-- ==== Sys2Proof/Word.lean ====
section
/-! DEFINITION. The words of the VB8402 model: the byte of the exchange memory and the small index types. -/

namespace Sys2Proof

/-- One byte of the exchange memory or of a tuning frame. -/
abbrev Byte := BitVec 8

/-- A line lane L0..L7 or a switch lane S0..S7 (spec/00_scope.md, Conventions). -/
abbrev LaneId := Fin 8

/-- Leg 0 to Leg 3. -/
abbrev LegId := Fin 4

/-- Task slot 0 to 11 (R134, Table 7-1). -/
abbrev SlotId := Fin 12

/-- Scan page 0 to 3 (R115). -/
abbrev PageId := Fin 4

end Sys2Proof
end

