-- ==== Sys2Proof/Syntax.lean ====
section
/-! DEFINITION. The commands of the VB8402: one constructor for each row of spec/opcode_table.json. A command is an
event at a pin or a lane, the expiry of one of the part's timers, a transaction of the management line, or the
hand-over of a task by the host. -/

namespace Sys2Proof

/-- A lane side is LINE or SWITCH (spec/00_scope.md, Conventions). -/
inductive Side where
  | line
  | switch
deriving DecidableEq, Repr

/-- One of the sixteen lane sides: L0..L7 on the LINE side, S0..S7 on the SWITCH side (Section 1.1). -/
structure LaneSide where
  side : Side
  lane : LaneId
deriving DecidableEq, Repr

/-- The five strap pins as they stand when the part reads them (R171). -/
structure StrapPins where
  profile   : BitVec 2
  rate      : BitVec 2
  autostart : Bool
deriving DecidableEq, Repr

/-- What the host does on the management line in the course of a write transaction (R130). -/
inductive WriteEvent where
  /-- a start, or repeated start, and the target address with the write direction -/
  | start (target : BitVec 7)
  /-- bytes written: the first two after the address are the offset, high byte first -/
  | bytes (data : List Byte)
  /-- the stop that ends the transaction -/
  | stop
  /-- a whole transaction: start, address, bytes, stop -/
  | whole (target : BitVec 7) (data : List Byte)
deriving DecidableEq, Repr

/-- What the host does on the management line in the course of a read transaction (R131). -/
inductive ReadEvent where
  /-- a start, or repeated start, and the target address with the read direction -/
  | start (target : BitVec 7)
  /-- the host clocks in this many bytes from the current offset -/
  | bytes (count : Nat)
  /-- the stop that ends the transaction -/
  | stop
  /-- the usual read of R131: a write of the two offset bytes, a repeated start, this many bytes read, and the stop -/
  | whole (target : BitVec 7) (offset : BitVec 16) (count : Nat)
deriving DecidableEq, Repr

/-- The header bytes the host writes for a task: class, leg, patience code and host label (Table 11-6). The kind byte
is the command's own. -/
structure TaskHeader where
  cls      : Byte
  leg      : Byte
  patience : Byte
  label0   : Byte
  label1   : Byte
deriving DecidableEq, Repr

/-- The commands, in the order of spec/opcode_table.json. -/
inductive Instr where
  /-- POWER_ON (R171): the supply comes up, with the strap pins, LOWPWR, RESET_L and the raw detects as they stand -/
  | powerOn (pins : StrapPins) (lowpwr resetHeld : Bool) (lineDetect switchDetect : BitVec 8)
  /-- RESET_L_ASSERT (R173) -/
  | resetLAssert
  /-- RESET_L_RELEASE (R173), with the strap pins as they stand -/
  | resetLRelease (pins : StrapPins)
  /-- INITIALIZATION_COMPLETE (R171, R172) -/
  | initializationComplete
  /-- LOWPWR_ASSERT (R174) -/
  | lowpwrAssert
  /-- LOWPWR_RELEASE (R175) -/
  | lowpwrRelease
  /-- RISE_COMPLETION (R175) -/
  | riseCompletion
  /-- RAW_DETECT_CHANGE (R15): the raw detect of a receiver now shows a signal, or none -/
  | rawDetectChange (x : LaneSide) (signal : Bool)
  /-- QUALIFICATION_TIMER_EXPIRY (R15) -/
  | qualificationTimerExpiry (x : LaneSide)
  /-- MASK_TIMER_EXPIRY (R19) -/
  | maskTimerExpiry (x : LaneSide)
  /-- RECEIVER_LOCK (R1) -/
  | receiverLock (x : LaneSide)
  /-- RECEIVER_UNLOCK (R35) -/
  | receiverUnlock (x : LaneSide)
  /-- LOCK_TIMER_EXPIRY (R33) -/
  | lockTimerExpiry (l : LegId)
  /-- RELAY_DELAY_EXPIRY (R43, R44) of the direction that watches the named side -/
  | relayDelayExpiry (l : LegId) (watched : Side)
  /-- RELAY_PULSE_END (R44) of the direction that watches the named side -/
  | relayPulseEnd (l : LegId) (watched : Side)
  /-- TUNING_FRAME_SENT (R49) -/
  | tuningFrameSent (x : LaneSide)
  /-- REQUEST_WAIT_TIMEOUT (R63) -/
  | requestWaitTimeout (x : LaneSide)
  /-- TUNING_FRAME_RECEIVED (R57): the eight bytes, byte 0 first, as they stand at the pins of the lane side -/
  | tuningFrameReceived (x : LaneSide) (frame : Vector Byte 8)
  /-- SESSION_TIMER_EXPIRY (R69) -/
  | sessionTimerExpiry (l : LegId) (side : Side)
  /-- MARGIN_READING_COMPLETE (R97) with the value the eye monitor delivers -/
  | marginReadingComplete (x : LaneSide) (value : Fin 64)
  /-- SCAN_CELL_COMPLETE (R120) with the number of differing decisions the monitor met in the dwell -/
  | scanCellComplete (p : PageId) (errors : Nat)
  /-- PATIENCE_EXPIRY (R149) of the deferred entry at this place of the leg queue: 0 the head, 1 the entry behind it -/
  | patienceExpiry (l : LegId) (place : Fin 2)
  /-- SLOT_HAND_OVER (R136): FILLED written to the hand-over byte -/
  | slotHandOver (n : SlotId)
  /-- SLOT_RETRACT (R136): EMPTY written to the hand-over byte of a slot the host takes to be FILLED -/
  | slotRetract (n : SlotId)
  /-- SLOT_CANCEL (R136, R156): CANCEL written to the hand-over byte -/
  | slotCancel (n : SlotId)
  /-- SLOT_RELEASE (R136): EMPTY written to the hand-over byte of a slot the host takes to be DONE -/
  | slotRelease (n : SlotId)
  /-- ATTENTION_SUMMARY_CLEAR (R164): the four bytes of the summary written in one transaction -/
  | attentionSummaryClear (value : BitVec 32)
  /-- ATTENTION_SUMMARY_READ (R131, R167): a read transaction, or a part of one -/
  | attentionSummaryRead (ev : ReadEvent)
  /-- NOTICE_ENABLES_WRITE (R165): the four bytes of the enables written in one transaction -/
  | noticeEnablesWrite (value : BitVec 32)
  /-- FAULT_LOG_RELEASE (R169): this value written to the release byte -/
  | faultLogRelease (value : Byte)
  /-- PAGE_STATE_WRITE (R116): this value written to the state byte of a scan page -/
  | pageStateWrite (p : PageId) (value : Byte)
  /-- EXCHANGE_CONTROL_WRITE (R142): this value written to exchange control -/
  | exchangeControlWrite (value : Byte)
  /-- EXCHANGE_RESET (R142): exchange control written with the trigger 1 and these settings -/
  | exchangeReset (latched holdIntake : Bool)
  /-- EXCHANGE_RESET_COMPLETE (R143) -/
  | exchangeResetComplete
  /-- REGISTER_WRITE (R130, R133): a write transaction, or a part of one -/
  | registerWrite (ev : WriteEvent)
  /-- LEG_SETUP (R157): the setup value block of Table 11-4 -/
  | legSetup (n : SlotId) (h : TaskHeader) (values : Vector Byte 16)
  /-- LEG_START (R26, R158) -/
  | legStart (n : SlotId) (h : TaskHeader)
  /-- LEG_PARK (R28, R158) -/
  | legPark (n : SlotId) (h : TaskHeader)
  /-- LEG_RETUNE (R40, R159) -/
  | legRetune (n : SlotId) (h : TaskHeader) (sides : Byte)
  /-- LANE_FUNCTION (R20) -/
  | laneFunction (n : SlotId) (h : TaskHeader) (lane function : Byte)
  /-- SET_TAPS (R89) -/
  | setTaps (n : SlotId) (h : TaskHeader) (side lane pre main post : Byte)
  /-- EYE_SCAN (R117) -/
  | eyeScan (n : SlotId) (h : TaskHeader) (side lane page dwell : Byte)
  /-- SNAPSHOT (R126) -/
  | snapshot (n : SlotId) (h : TaskHeader) (side clearAfter : Byte)
  /-- REMAP (R21): the eight sources and the two inversion masks -/
  | remap (n : SlotId) (h : TaskHeader) (sources : Vector Byte 8) (switchInversion lineInversion : Byte)
  /-- POWER (R160) -/
  | power (n : SlotId) (h : TaskHeader) (requested : Byte)
deriving DecidableEq, Repr

end Sys2Proof
end

