-- ==== Sys2Proof/Config.lean ====
section
/-! DEFINITION. What the part fixes (durations and capacities) and the two free values of the model. -/

namespace Sys2Proof.Config

/-- THE FREE CHOICE. The spec allows several outcomes in four places and names no rule for the choice: which blocks an
exchange reset in progress has already cleared (R143), the order of faults reported together (R168), the order in which
several engines act at one event (R146), and whether a waiting task is checked before another event at the same time
(R89, R117). The model draws each such choice from `freeChoice k`, `k` being the state's own counter `freeCount`, so
that nothing constrains it (notes/assumptions/5.md). -/
opaque freeChoice : Nat → Nat

/-- THE FREE BITS. The req_tap bits of the part's own PRESET request, by preset number: Table 3-1 calls them unused, and
R177 gives req_tap a value for req_kind NONE alone. They stand in byte 0 and enter the check byte of the frame
(notes/assumptions/31.md). -/
opaque presetTap : Fin 5 → BitVec 2

/-- R15: the qualification timer toward PRESENT, 1 ms, in µs. -/
def presentTime : Nat := 1000

/-- R15: the qualification timer toward ABSENT, 50 µs. -/
def absentTime : Nat := 50

/-- R18: the mask window, 2 ms. -/
def maskTime : Nat := 2000

/-- R97: the dwell of a margin reading, 200 µs. -/
def readingTime : Nat := 200

/-- R171: initialization, 2 ms. -/
def initTime : Nat := 2000

/-- R143: the longest an exchange reset lasts, 100 µs. -/
def exchangeResetTime : Nat := 100

/-- R175: the power rise, 10 ms. -/
def riseTime : Nat := 10000

/-- R145: a leg queue holds at most 8 entries. -/
def legQueueCapacity : Nat := 8

/-- R145: the device queue holds at most 4 entries. -/
def deviceQueueCapacity : Nat := 4

/-- R66: the agreement hold at which a lane side is agreed. -/
def agreementFrames : Nat := 16

/-- R103: the requests a climb may make. -/
def climbRequests : Nat := 32

/-- R120: an eye scan has 512 cells. -/
def scanCells : Nat := 512

/-- R17, R73, R74, R124: a lane counter stops at 2^32 - 1. -/
def laneCounterMax : Nat := 4294967295

/-- R47: a leg counter stops at 65,535. -/
def legCounterMax : Nat := 65535

/-- R129: the 7-bit target address of the management line. -/
def targetAddress : BitVec 7 := 0x3A

end Sys2Proof.Config
end

