-- ==== Sys2Proof/Machine/State.lean ====
section
/-! DEFINITION. The state of the VB8402: every piece of state of Table 2 of the spec, block by block, as plain data;
the reasons a step can stop; and the state after reset. Timers are `none` when stopped and `some t` when running
with t µs remaining. -/

namespace Sys2Proof.Machine

/-! ### Why a step can stop -/

/-- No command of this part stops it: the spec calls no command's effect undefined and names no event after which the
part does not go on. The type is closed and has no constructor, which is safe: nothing can be hidden behind a
fault. -/
inductive Fault where
deriving DecidableEq, Repr

/-- The refusals of `exec`. -/
inductive Refusal where
  /-- Raised by an arm of `exec` whose command has no meaning yet; safe, since nothing can be proved of such a command.
  No arm of this model raises it. -/
  | notModelled (mnemonic : String)
deriving DecidableEq, Repr

/-! ### Power and strap unit (Section 10) -/

/-- Effective power (R134, Table 10-1). -/
inductive EffectivePower where
  | low
  | rising
  | active
deriving DecidableEq, Repr

/-- Requested power (R160). -/
inductive RequestedPower where
  | low
  | active
deriving DecidableEq, Repr

/-- Device state (R134). -/
inductive DeviceState where
  | initializing
  | ready
  | exchangeResetting
deriving DecidableEq, Repr

/-- Last reset cause (R134). -/
inductive ResetCause where
  | powerOn
  | resetPin
deriving DecidableEq, Repr

/-! ### Lane map unit (Section 1.3) -/

/-- Polarity (Table 1-2). -/
inductive Polarity where
  | normal
  | inverted
deriving DecidableEq, Repr

/-- Lane function (Section 1.4). -/
inductive LaneFunction where
  | carry
  | squelch
  | loopFar
  | loopNear
deriving DecidableEq, Repr

/-- One lane map entry (Table 1-2). -/
structure MapEntry where
  source         : LaneId
  switchPolarity : Polarity
  linePolarity   : Polarity
  function       : LaneFunction
deriving DecidableEq, Repr

/-! ### One lane side: receiver, transmitter, monitors and lane tuner -/

/-- Presence monitor (Section 1.6): the raw detect, the qualified presence (true is PRESENT) and the qualification
timer. -/
structure Presence where
  raw       : Bool
  qualified : Bool
  timer     : Option Nat
deriving DecidableEq, Repr

/-- Mask record (R18). -/
structure Mask where
  timer : Option Nat
  start : Bool
deriving DecidableEq, Repr

/-- A tap triple (R76), as integers. -/
structure Taps where
  pre  : Int
  main : Int
  post : Int
deriving DecidableEq, Repr

/-- Activity of an eye monitor (R96); a reading carries its remaining dwell. -/
inductive Monitor where
  | idle
  | reading (left : Nat)
  | scanning
deriving DecidableEq, Repr

/-- Phase of a lane tuner (Table 3-2). -/
inductive TunerPhase where
  | idle
  | climbing
  | holding
  | agreed
  | failed
deriving DecidableEq, Repr

/-- Reply outcomes (Table 3-1). -/
inductive ReplyOutcome where
  | none
  | applied
  | clipped
  | pinned
  | badPreset
  | badRequest
  | frozen
deriving DecidableEq, Repr

/-- The taps a NUDGE can name (Table 3-1). -/
inductive Tap where
  | pre
  | main
  | post
deriving DecidableEq, Repr

/-- The part's own requests (R61): a NUDGE of one tap by a signed step, or a PRESET of a preset number. -/
inductive RequestKind where
  | nudge (tap : Tap) (step : Int)
  | preset (number : Fin 5)
deriving DecidableEq, Repr

/-- An outstanding request: its tag and what it asks (Table 3-2). -/
structure Request where
  tag  : BitVec 2
  kind : RequestKind
deriving DecidableEq, Repr

/-- The responder's current reply (Table 3-2). -/
structure Reply where
  tag     : BitVec 2
  outcome : ReplyOutcome
deriving DecidableEq, Repr

/-- Lane tuner record (Table 3-2). -/
structure Tuner where
  phase        : TunerPhase
  ownMark      : Byte
  partnerMark  : Option Byte
  lastAnswered : Option (BitVec 2)
  reply        : Reply
  nextTag      : BitVec 2
  outstanding  : Option Request
  waitCount    : Nat
  content      : Bool
  hold         : Nat
deriving DecidableEq, Repr

/-- Stage of a climb (R99). -/
inductive ClimbStage where
  | inactive
  | presetting
  | baseline
  | trial
  | measuring
  | reverting
  | ended
deriving DecidableEq, Repr

/-- The taps a climb moves (Table 5-1). -/
inductive ClimbTap where
  | post
  | pre
deriving DecidableEq, Repr

/-- Direction of a climb (Table 5-1): +1 or −1. -/
inductive Direction where
  | up
  | down
deriving DecidableEq, Repr

/-- Climb record (Table 5-1). -/
structure Climb where
  stage         : ClimbStage
  best          : Option Nat
  tap           : ClimbTap
  direction     : Direction
  improved      : Bool
  triedOpposite : Bool
  answered      : Nat
  frozenSeen    : Bool
  threshold     : Nat
  floor         : Nat
deriving DecidableEq, Repr

/-- The four lane counters of a lane side, in the order of Table 6-3. -/
structure LaneCounters where
  presenceDrops    : Nat
  lockLosses       : Nat
  badFrames        : Nat
  requestsAnswered : Nat
deriving DecidableEq, Repr

/-- The last frame a lane tuner formed, as its bytes stand at the pins, and whether it left the transmitter (R49).
The model's own record of an output. -/
structure FormedFrame where
  bytes : List Byte
  sent  : Bool
deriving DecidableEq, Repr

/-- One lane side. -/
structure LaneState where
  presence : Presence
  mask     : Mask
  locked   : Bool
  taps     : Taps
  monitor  : Monitor
  tuner    : Tuner
  climb    : Climb
  counters : LaneCounters
  frame    : Option FormedFrame
deriving DecidableEq, Repr

/-! ### Leg controllers (Section 2) -/

/-- Leg state (Section 2.3). -/
inductive LegState where
  | parked
  | dark
  | acquire
  | tune
  | carrying
deriving DecidableEq, Repr

/-- Grade (Table 2-1). -/
inductive Grade where
  | full
  | degraded
deriving DecidableEq, Repr

/-- Session state (Table 2-1). -/
inductive SessionState where
  | idle
  | running
  | done
  | failed
deriving DecidableEq, Repr

/-- Session kind (Table 2-1). -/
inductive SessionKind where
  | bringUp
  | retune
deriving DecidableEq, Repr

/-- Last failure cause (Table 2-1). -/
inductive FailureCause where
  | none
  | lockTimeout
  | tuneTimeout
  | noReply
deriving DecidableEq, Repr

/-- Rate class (Table 1 of 00_scope.md). -/
inductive RateClass where
  | rcA
  | rcB
  | rcC
deriving DecidableEq, Repr

/-- Budget mode (Table 2-2). -/
inductive BudgetMode where
  | fixed
  | balanced
deriving DecidableEq, Repr

/-- Request-wait limit (Table 2-2). -/
inductive RequestWait where
  | frames64
  | frames128
  | frames256
  | unlimited
deriving DecidableEq, Repr

/-- Fallback (R39). -/
inductive Fallback where
  | carry
  | retry
  | park
deriving DecidableEq, Repr

/-- Relay mode (R42). -/
inductive RelayMode where
  | off
  | follow
  | pulse
deriving DecidableEq, Repr

/-- Setup values (Table 2-2); the session timer in units of 100 ms, other times in ms. -/
structure Setup where
  rate          : RateClass
  ownPreset     : Fin 5
  partnerPreset : Fin 5
  budget        : BudgetMode
  requestWait   : RequestWait
  sessionTimer  : Nat
  lockTimeout   : Nat
  attemptLimit  : Nat
  fallback      : Fallback
  relayMode     : RelayMode
  relayDelay    : Nat
  pulseWidth    : Nat
  threshold     : Nat
  floor         : Nat
  passing       : Bool
  wakeWatch     : Bool
deriving DecidableEq, Repr

/-- One direction of the relay record (R42). -/
structure RelayDirection where
  armed      : Bool
  delay      : Option Nat
  pulse      : Option Nat
  squelching : Bool
deriving DecidableEq, Repr

/-- The items a leg holds for one of its sides: the session state, the weak-lane mask (bit i for line lane i) and the
session timer (Table 2-1, R53), and the relay direction that watches the side (R42). -/
structure LegSide where
  session : SessionState
  weak    : BitVec 8
  timer   : Option Nat
  relay   : RelayDirection
deriving DecidableEq, Repr

/-- The items of a leg controller (Table 2-1). -/
structure Leg where
  state          : LegState
  intent         : Bool
  attempts       : Nat
  grade          : Grade
  line           : LegSide
  switch         : LegSide
  kind           : SessionKind
  cause          : FailureCause
  givenUp        : Bool
  lockTimer      : Option Nat
  setup          : Setup
  carryEntries   : Nat
  presenceLosses : Nat
  failedSessions : Nat
deriving DecidableEq, Repr

/-! ### Task queues (Section 8) -/

/-- Task kinds (Table 11-8). -/
inductive TaskKind where
  | legSetup
  | legStart
  | legPark
  | legRetune
  | laneFunction
  | setTaps
  | eyeScan
  | snapshot
  | remap
  | power
deriving DecidableEq, Repr

/-- A queue entry (R145). An awaited entry reads its arguments in its slot; a posted entry holds the copy in `args`,
from slot offset 0x10 on. `deferred` and `clock` are the deferral of R148. -/
structure Entry where
  kind     : TaskKind
  awaited  : Bool
  slot     : SlotId
  kindByte : Byte
  leg      : Byte
  patience : Byte
  label0   : Byte
  label1   : Byte
  args     : List Byte
  deferred : Bool
  clock    : Option Nat
deriving DecidableEq, Repr

/-- A leg engine (R145): its leg queue, head first, and its in-flight set, the slot of at most one awaited bring-up
task. -/
structure LegEngine where
  queue    : List Entry
  inFlight : Option SlotId
deriving DecidableEq, Repr

/-! ### The exchange memory (Section 7) -/

/-- The stored bytes of the task slots and the scan page cells, as (offset, byte) pairs at rising offsets, none of
them 0: an unlisted byte reads 0, as every slot byte and cell does after power-on (R115, R135). -/
abbrev Memory := List Host.Cell

/-- Slot states (Table 7-2). -/
inductive SlotState where
  | empty
  | filled
  | taken
  | done
deriving DecidableEq, Repr

/-- Status codes (Table 11-9). -/
inductive Status where
  | inProgress
  | ok
  | okDegraded
  | already
  | heldLow
  | wrongState
  | badArgument
  | notPostable
  | unknownKind
  | pageBusy
  | gaveUp
  | cancelled
  | superseded
  | interrupted
  | bringUpFailed
deriving DecidableEq, Repr

/-- The header items of a slot that the part itself keeps (R134): the hand-over byte's state, the status and the
cancel-asked flag. The other bytes of the slot stand in the memory. -/
structure Slot where
  state       : SlotState
  status      : Status
  cancelAsked : Bool
deriving DecidableEq, Repr

/-- State of a scan page (R115). A BUSY page carries the running scan: the slot it reports to and the remaining dwell
of the cell in progress. -/
inductive PageState where
  | free
  | busy (slot : SlotId) (left : Nat)
  | held
deriving DecidableEq, Repr

/-- Outcome of a scan (Table 6-1). -/
inductive ScanOutcome where
  | none
  | complete
  | interrupted
  | cancelled
deriving DecidableEq, Repr

/-- Scan page header (Table 6-1); the cells stand in the memory. -/
structure Page where
  state     : PageState
  leg       : LegId
  side      : Side
  lane      : LaneId
  dwell     : Nat
  cellsDone : Nat
  outcome   : ScanOutcome
deriving DecidableEq, Repr

/-- A write transaction in progress on the management line (R130, R133): the first offset byte while only that has
come, whether both have, and the action bytes that wait for the end, offset and value, at rising offsets. -/
structure WriteTransaction where
  firstByte : Option Byte
  offsetSet : Bool
  actions   : List (Nat × Byte)
deriving DecidableEq, Repr

/-- A read transaction in progress (R131): the block copies it has taken, by block number, and whether it has
returned offset 0x0010 (R167). -/
structure ReadTransaction where
  copies          : List (Nat × List Byte)
  returnedSummary : Bool
deriving DecidableEq, Repr

/-- Cause of a fault record (Table 11-2). -/
inductive FaultCause where
  | posted
  | misuse
deriving DecidableEq, Repr

/-- Fault record (Table 9-2). -/
structure FaultRecord where
  cause   : FaultCause
  status  : Status
  slot    : Nat
  kind    : Byte
  leg     : Byte
  label0  : Byte
  label1  : Byte
  written : Byte
  found   : Byte
deriving DecidableEq, Repr

/-! ### The state -/

/-- The whole part. -/
structure State where
  /-- the commands that wait, first in, first out (the model's own) -/
  pending        : List Instr
  /-- RESET_L is held (input pin) -/
  resetHeld      : Bool
  /-- LOWPWR is asserted (input pin) -/
  lowpwr         : Bool
  /-- straps as read (R171) -/
  straps         : StrapPins
  requested      : RequestedPower
  effective      : EffectivePower
  riseTimer      : Option Nat
  device         : DeviceState
  initTimer      : Option Nat
  /-- the initialization in progress, or the last one, was begun by power-on (R173) -/
  initByPowerOn  : Bool
  resetTimer     : Option Nat
  lastCause      : ResetCause
  /-- the cause that the release of the present assertion of RESET_L will record (R173) -/
  releaseCause   : ResetCause
  /-- lane map, by line lane -/
  map            : Vector MapEntry 8
  /-- lane sides L0..L7 -/
  lineSide       : Vector LaneState 8
  /-- lane sides S0..S7 -/
  switchSide     : Vector LaneState 8
  legs           : Vector Leg 4
  engines        : Vector LegEngine 4
  deviceQueue    : List Entry
  powerWait      : List SlotId
  /-- hand-over order list, oldest first (R137) -/
  handOver       : List SlotId
  /-- legs whose check of a waiting head has been put off (R89, R117; the model's own, notes/assumptions/37.md) -/
  owed           : List LegId
  slots          : Vector Slot 12
  pages          : Vector Page 4
  mem            : Memory
  summary        : BitVec 32
  enables        : BitVec 32
  /-- attention mode is LATCHED (R142) -/
  latchedMode    : Bool
  holdIntake     : Bool
  /-- latched line state (R167) -/
  latchedLine    : Bool
  faultRecord    : Option FaultRecord
  laterFaults    : Nat
  /-- current offset (R129) -/
  offset         : BitVec 16
  writeOpen      : Option WriteTransaction
  readOpen       : Option ReadTransaction
  /-- the last address byte was acknowledged (R129): the model's own record of an output -/
  acknowledged   : Bool
  /-- the bytes returned in the read transaction in progress, or the last one: the model's own record of an output -/
  readData       : List Byte
  /-- how many free values have been drawn (the model's own) -/
  freeCount      : Nat
deriving DecidableEq, Repr

/-! ### The state after reset -/

/-- Reset value of a lane tuner (Table 3-2). -/
def Tuner.reset : Tuner :=
  { phase := .idle, ownMark := 0, partnerMark := none, lastAnswered := none, reply := ⟨0, .none⟩, nextTag := 0,
    outstanding := none, waitCount := 0, content := false, hold := 0 }

/-- Reset value of a climb record (Table 5-1). -/
def Climb.reset : Climb :=
  { stage := .inactive, best := none, tap := .post, direction := .up, improved := false, triedOpposite := false,
    answered := 0, frozenSeen := false, threshold := 2, floor := 8 }

/-- Reset value of a lane side whose raw detect shows no signal (R1, R15, R17, R18, R76, R96). -/
def LaneState.reset : LaneState :=
  { presence := ⟨false, false, none⟩, mask := ⟨none, false⟩, locked := false, taps := ⟨0, 48, -12⟩, monitor := .idle,
    tuner := .reset, climb := .reset, counters := ⟨0, 0, 0, 0⟩, frame := none }

/-- Default setup values (Table 2-2) with the rate class read from the RATE straps. -/
def Setup.reset (rate : RateClass) : Setup :=
  { rate := rate, ownPreset := 1, partnerPreset := 1, budget := .fixed, requestWait := .frames128, sessionTimer := 5,
    lockTimeout := 40, attemptLimit := 3, fallback := .retry, relayMode := .off, relayDelay := 1, pulseWidth := 4,
    threshold := 2, floor := 8, passing := false, wakeWatch := false }

/-- Reset value of a leg's side (R23, R42, R53). -/
def LegSide.reset : LegSide :=
  { session := .idle, weak := 0, timer := none, relay := ⟨true, none, none, false⟩ }

/-- Reset value of a leg controller (Table 2-1). -/
def Leg.reset (rate : RateClass) : Leg :=
  { state := .parked, intent := false, attempts := 0, grade := .full, line := .reset, switch := .reset,
    kind := .bringUp, cause := .none, givenUp := false, lockTimer := none, setup := .reset rate, carryEntries := 0,
    presenceLosses := 0, failedSessions := 0 }

/-- Reset value of a leg engine (R145). -/
def LegEngine.reset : LegEngine := { queue := [], inFlight := none }

/-- Reset value of a slot (R135). -/
def Slot.reset : Slot := { state := .empty, status := .inProgress, cancelAsked := false }

/-- Reset value of a scan page (Table 6-1). -/
def Page.reset : Page :=
  { state := .free, leg := 0, side := .line, lane := 0, dwell := 0, cellsDone := 0, outcome := .none }

/-- The reset lane map (R4): the identity, NORMAL polarities, every function CARRY. -/
def resetMap : Vector MapEntry 8 :=
  #v[⟨0, .normal, .normal, .carry⟩, ⟨1, .normal, .normal, .carry⟩, ⟨2, .normal, .normal, .carry⟩,
     ⟨3, .normal, .normal, .carry⟩, ⟨4, .normal, .normal, .carry⟩, ⟨5, .normal, .normal, .carry⟩,
     ⟨6, .normal, .normal, .carry⟩, ⟨7, .normal, .normal, .carry⟩]

/-- The machine right after power-on (R171), with every strap pin at 0 (PROFILE FULL, RATE RC-A, AUTOSTART off), LOWPWR
and RESET_L released and no signal at any receiver (notes/assumptions/4.md). -/
def State.reset : State :=
  { pending := [], resetHeld := false, lowpwr := false, straps := ⟨0, 0, false⟩, requested := .active,
    effective := .active, riseTimer := none, device := .initializing, initTimer := some Config.initTime,
    initByPowerOn := true, resetTimer := none, lastCause := .powerOn, releaseCause := .powerOn, map := resetMap,
    lineSide := Vector.replicate 8 .reset, switchSide := Vector.replicate 8 .reset,
    legs := Vector.replicate 4 (.reset .rcA), engines := Vector.replicate 4 .reset, deviceQueue := [], powerWait := [],
    handOver := [], owed := [], slots := Vector.replicate 12 .reset, pages := Vector.replicate 4 .reset, mem := [],
    summary := 0, enables := 0x030F0FFF, latchedMode := false, holdIntake := false, latchedLine := false,
    faultRecord := none, laterFaults := 0, offset := 0, writeOpen := none, readOpen := none, acknowledged := false,
    readData := [], freeCount := 0 }

end Sys2Proof.Machine
end

