-- ==== Sys2Proof/Machine/Ops.lean ====
section
/-! DEFINITION. The named operations over the state: the byte memory, the tables of lane sides, legs, slots and pages,
the lane map and leg membership, and the observed transmit state. -/

namespace Sys2Proof.Machine

/-! ### Memory -/

/-- The byte at an offset; an unlisted offset reads 0 (R115, R135). -/
def Memory.read : Memory → Nat → Byte
  | [], _ => 0
  | c :: m, a => if c.1 = a then c.2 else Memory.read m a

/-- Store one byte, keeping offsets rising and listing no 0. -/
def Memory.write : Memory → Nat → Byte → Memory
  | [], a, v => if v = 0 then [] else [(a, v)]
  | c :: m, a, v =>
    if a < c.1 then (if v = 0 then c :: m else (a, v) :: c :: m)
    else if a = c.1 then (if v = 0 then m else (a, v) :: m)
    else c :: Memory.write m a v

/-- Store bytes at successive offsets from `a` on. -/
def Memory.writeBytes : Memory → Nat → List Byte → Memory
  | m, _, [] => m
  | m, a, v :: vs => Memory.writeBytes (Memory.write m a v) (a + 1) vs

/-- Set the `n` bytes from offset `a` on to 0. -/
def Memory.clear (m : Memory) (a n : Nat) : Memory :=
  m.filter (fun c => !(decide (a ≤ c.1) && decide (c.1 < a + n)))

/-- The canonical form: offsets strictly rising, no listed byte 0. -/
def Memory.wf : Memory → Bool
  | [] => true
  | c :: m => c.2 != 0 && m.all (fun d => decide (c.1 < d.1)) && Memory.wf m

/-- First offset of slot n (Table 7-1). -/
def slotBase (n : SlotId) : Nat := 0x400 + n.val * 0x100

/-- First offset of page n (Table 7-1). -/
def pageBase (p : PageId) : Nat := 0x1000 + p.val * 0x400

/-- The 16 bits of a number, least significant byte first (R176). -/
def bytes16 (n : Nat) : List Byte := [BitVec.ofNat 8 n, BitVec.ofNat 8 (n / 256)]

/-- The 32 bits of a number, least significant byte first (R176). -/
def bytes32 (n : Nat) : List Byte :=
  [BitVec.ofNat 8 n, BitVec.ofNat 8 (n / 256), BitVec.ofNat 8 (n / 65536), BitVec.ofNat 8 (n / 16777216)]

/-- Increase a counter by one, stopping at its greatest value (R17, R47, R168). -/
def countUp (most n : Nat) : Nat := if n < most then n + 1 else n

/-! ### Tables -/

/-- A table with every row changed. -/
def mapVector {α β : Type} {n : Nat} (f : α → β) (v : Vector α n) : Vector β n := ⟨⟨v.toList.map f⟩, by simp⟩


/-- The lane sides in order. -/
def allLanes : List LaneId := [0, 1, 2, 3, 4, 5, 6, 7]

/-- The legs in order. -/
def allLegs : List LegId := [0, 1, 2, 3]

/-- The pages in order. -/
def allPages : List PageId := [0, 1, 2, 3]

/-- The slots in order. -/
def allSlots : List SlotId := [0, 1, 2, 3, 4, 5, 6, 7, 8, 9, 10, 11]

/-- One lane side. -/
def State.lane (s : State) (x : LaneSide) : LaneState :=
  match x.side with
  | .line => s.lineSide[x.lane]
  | .switch => s.switchSide[x.lane]

/-- Change one lane side. -/
def State.modLane (s : State) (x : LaneSide) (f : LaneState → LaneState) : State :=
  { s with
    lineSide := match x.side with
      | .line => s.lineSide.set x.lane (f s.lineSide[x.lane])
      | .switch => s.lineSide
    switchSide := match x.side with
      | .line => s.switchSide
      | .switch => s.switchSide.set x.lane (f s.switchSide[x.lane]) }

/-- Change every lane side of a list. -/
def State.modLanes (s : State) (xs : List LaneSide) (f : LaneState → LaneState) : State :=
  xs.foldl (fun s x => s.modLane x f) s

/-- Change all sixteen lane sides. -/
def State.modAllLanes (s : State) (f : LaneState → LaneState) : State :=
  { s with lineSide := mapVector f s.lineSide, switchSide := mapVector f s.switchSide }

/-- One leg controller. -/
def State.leg (s : State) (l : LegId) : Leg := s.legs[l]

/-- Change one leg controller. -/
def State.modLeg (s : State) (l : LegId) (f : Leg → Leg) : State :=
  { s with legs := s.legs.set l (f s.legs[l]) }

/-- One side of a leg. -/
def Leg.side (g : Leg) : Side → LegSide
  | .line => g.line
  | .switch => g.switch

/-- Change one side of a leg. -/
def Leg.modSide (g : Leg) (side : Side) (f : LegSide → LegSide) : Leg :=
  match side with
  | .line => { g with line := f g.line }
  | .switch => { g with switch := f g.switch }

/-- Change both sides of a leg. -/
def Leg.modSides (g : Leg) (f : LegSide → LegSide) : Leg :=
  { g with line := f g.line, switch := f g.switch }

/-- Change one side of one leg. -/
def State.modLegSide (s : State) (l : LegId) (side : Side) (f : LegSide → LegSide) : State :=
  s.modLeg l (fun g => g.modSide side f)

/-- The other side. -/
def otherSide : Side → Side
  | .line => .switch
  | .switch => .line

/-- One leg engine. -/
def State.engine (s : State) (l : LegId) : LegEngine := s.engines[l]

/-- Change one leg engine. -/
def State.modEngine (s : State) (l : LegId) (f : LegEngine → LegEngine) : State :=
  { s with engines := s.engines.set l (f s.engines[l]) }

/-- Replace one leg queue. -/
def State.setQueue (s : State) (l : LegId) (q : List Entry) : State :=
  s.modEngine l (fun e => { e with queue := q })

/-- R89, R117: the check of the head of a leg queue is put off, so that another event can be taken before it
(notes/assumptions/37.md). -/
def State.putOff (s : State) (l : LegId) : State := { s with owed := if l ∈ s.owed then s.owed else s.owed ++ [l] }

/-- One slot. -/
def State.slot (s : State) (n : SlotId) : Slot := s.slots[n]

/-- Change one slot. -/
def State.modSlot (s : State) (n : SlotId) (f : Slot → Slot) : State :=
  { s with slots := s.slots.set n (f s.slots[n]) }

/-- One page. -/
def State.page (s : State) (p : PageId) : Page := s.pages[p]

/-- Change one page. -/
def State.modPage (s : State) (p : PageId) (f : Page → Page) : State :=
  { s with pages := s.pages.set p (f s.pages[p]) }

/-- The stored byte at offset k of slot n. -/
def State.slotByte (s : State) (n : SlotId) (k : Nat) : Byte := s.mem.read (slotBase n + k)

/-! ### Profiles, membership and the lane map -/

/-- Table 1-1: the leg a line lane belongs to, by PROFILE. -/
def legOfLine (profile : BitVec 2) (i : LaneId) : LegId :=
  match profile.toNat with
  | 0 => 0
  | 1 => if i.val < 4 then 0 else 1
  | 2 => if i.val < 2 then 0 else if i.val < 4 then 1 else if i.val < 6 then 2 else 3
  | _ => if i.val < 4 then 0 else if i.val < 6 then 2 else 3

/-- The member line lanes of a leg, in ascending order (R2). -/
def State.members (s : State) (l : LegId) : List LaneId :=
  allLanes.filter (fun i => legOfLine s.straps.profile i = l)

/-- The width of a leg; 0 marks an unused leg (R3). -/
def State.width (s : State) (l : LegId) : Nat := (s.members l).length

/-- The leg is used (R3). -/
def State.used (s : State) (l : LegId) : Bool := !(s.members l).isEmpty

/-- One entry of the lane map. -/
def State.entry (s : State) (i : LaneId) : MapEntry := s.map[i]

/-- The line lane that a switch lane feeds: the one that names it as its source (R3, R4). The sources are a permutation
(R4), so one does; the switch lane's own number stands in for a map that no run reaches. -/
def State.fedBy (s : State) (sw : LaneId) : LaneId :=
  (allLanes.find? (fun i => (s.entry i).source = sw)).getD sw

/-- The line lane of the lane pair of a lane side. -/
def State.lineOf (s : State) (x : LaneSide) : LaneId :=
  match x.side with
  | .line => x.lane
  | .switch => s.fedBy x.lane

/-- The leg a lane side belongs to under the lane map (R3). -/
def State.legOf (s : State) (x : LaneSide) : LegId := legOfLine s.straps.profile (s.lineOf x)

/-- The lane side of line lane i's pair on the named side: the line lane itself, or its source switch lane (R3). -/
def State.sideOf (s : State) (i : LaneId) (side : Side) : LaneSide :=
  match side with
  | .line => ⟨.line, i⟩
  | .switch => ⟨.switch, (s.entry i).source⟩

/-- The member lane sides of one side of a leg, in the order of the line lanes (R3). -/
def State.memberSides (s : State) (l : LegId) (side : Side) : List LaneSide :=
  (s.members l).map (fun i => s.sideOf i side)

/-- The member lane sides of both sides of a leg. -/
def State.allMemberSides (s : State) (l : LegId) : List LaneSide := s.memberSides l .line ++ s.memberSides l .switch

/-- The polarity applied at the pins of a lane side (R6). -/
def State.polarity (s : State) (x : LaneSide) : Polarity :=
  match x.side with
  | .line => (s.entry x.lane).linePolarity
  | .switch => (s.entry (s.fedBy x.lane)).switchPolarity

/-- The rate class of the leg a lane side belongs to (R77). -/
def State.rateOf (s : State) (x : LaneSide) : RateClass := (s.leg (s.legOf x)).setup.rate

/-- Every member lane of a side is PRESENT. -/
def State.sidePresent (s : State) (l : LegId) (side : Side) : Bool :=
  (s.memberSides l side).all (fun x => (s.lane x).presence.qualified)

/-- Every member lane is PRESENT on both sides (R31). -/
def State.allPresent (s : State) (l : LegId) : Bool :=
  (s.allMemberSides l).all (fun x => (s.lane x).presence.qualified)

/-- Every member lane is LOCKED on both sides (R32). -/
def State.allLocked (s : State) (l : LegId) : Bool :=
  (s.allMemberSides l).all (fun x => (s.lane x).locked)

/-- Every member line lane is in function CARRY (R12). -/
def State.allCarry (s : State) (l : LegId) : Bool :=
  (s.members l).all (fun i => (s.entry i).function = .carry)

/-! ### Observed transmit state (Section 1.5) -/

/-- Observed transmit state (Section 1.5). -/
inductive TransmitState where
  | squelched
  | frames
  | data
  | loop
deriving DecidableEq, Repr

/-- Table 1-3, first row: the transmit state of a lane pair of a PARKED leg. -/
def parkedTransmit (f : LaneFunction) (side : Side) : TransmitState :=
  match f, side with
  | .loopFar, .line => .loop
  | .loopNear, .switch => .loop
  | _, _ => .squelched

/-- R13: the observed transmit state of a transmitter, the first case that applies giving the state. -/
def State.transmit (s : State) (x : LaneSide) : TransmitState :=
  let g := s.leg (s.legOf x)
  if s.resetHeld || s.effective ≠ .active then .squelched
  else if g.state ≠ .parked && (g.side (otherSide x.side)).relay.squelching then .squelched
  else match g.state with
    | .parked => parkedTransmit (s.entry (s.lineOf x)).function x.side
    | .dark => .frames
    | .acquire => .frames
    | .tune => .frames
    | .carrying => .data

/-! ### Orders that the spec leaves open -/

/-- Put a value at a place of a list; past the end means at the end. -/
def insertAt {α : Type} (v : α) : List α → Nat → List α
  | [], _ => [v]
  | y :: ys, 0 => v :: y :: ys
  | y :: ys, k + 1 => y :: insertAt v ys k

/-- The list in an order that the free values from `k` on choose: every order is possible, and a list of one or none
is itself (notes/assumptions/7.md). -/
def arrange {α : Type} (k : Nat) : List α → List α
  | [] => []
  | v :: vs => insertAt v (arrange (k + 1) vs) (Config.freeChoice k)

end Sys2Proof.Machine
end

