-- ==== Sys2Proof/Machine/Operands.lean ====
section
/-! DEFINITION. The code tables of Section 11, the tuning frame's bytes, and the arguments of the tasks. -/

namespace Sys2Proof.Machine

/-- A flag reads 1 for set and 0 for clear (R176). -/
def flagByte (b : Bool) : Byte := if b then 1 else 0

/-- Table 11-3: leg state codes. -/
def LegState.code : LegState → Byte
  | .parked => 0
  | .dark => 1
  | .acquire => 2
  | .tune => 3
  | .carrying => 4

/-- Table 11-3: grade codes. -/
def Grade.code : Grade → Byte
  | .full => 0
  | .degraded => 1

/-- Table 11-3: session state codes. -/
def SessionState.code : SessionState → Byte
  | .idle => 0
  | .running => 1
  | .done => 2
  | .failed => 3

/-- Table 11-3: session kind codes. -/
def SessionKind.code : SessionKind → Byte
  | .bringUp => 0
  | .retune => 1

/-- Table 11-3: last failure cause codes. -/
def FailureCause.code : FailureCause → Byte
  | .none => 0
  | .lockTimeout => 1
  | .tuneTimeout => 2
  | .noReply => 3

/-- Table 11-4: rate class codes. -/
def RateClass.code : RateClass → Byte
  | .rcA => 0
  | .rcB => 1
  | .rcC => 2

/-- Table 11-4: budget mode codes. -/
def BudgetMode.code : BudgetMode → Byte
  | .fixed => 0
  | .balanced => 1

/-- Table 11-4: request-wait codes. -/
def RequestWait.code : RequestWait → Byte
  | .frames64 => 0
  | .frames128 => 1
  | .frames256 => 2
  | .unlimited => 3

/-- Table 11-4: fallback codes. -/
def Fallback.code : Fallback → Byte
  | .carry => 0
  | .retry => 1
  | .park => 2

/-- Table 11-4: relay mode codes. -/
def RelayMode.code : RelayMode → Byte
  | .off => 0
  | .follow => 1
  | .pulse => 2

/-- Table 11-5: polarity codes. -/
def Polarity.code : Polarity → Byte
  | .normal => 0
  | .inverted => 1

/-- Table 11-5: lane function codes. -/
def LaneFunction.code : LaneFunction → Byte
  | .carry => 0
  | .squelch => 1
  | .loopFar => 2
  | .loopNear => 3

/-- Table 11-5: transmit state codes. -/
def TransmitState.code : TransmitState → Byte
  | .squelched => 0
  | .frames => 1
  | .data => 2
  | .loop => 3

/-- Table 11-1: device state codes. -/
def DeviceState.code : DeviceState → Byte
  | .initializing => 0
  | .ready => 1
  | .exchangeResetting => 2

/-- Table 11-1: effective power codes. -/
def EffectivePower.code : EffectivePower → Byte
  | .low => 0
  | .rising => 1
  | .active => 2

/-- Table 11-7, POWER: requested power codes. -/
def RequestedPower.code : RequestedPower → Byte
  | .low => 0
  | .active => 1

/-- Table 11-1: last reset cause codes. -/
def ResetCause.code : ResetCause → Byte
  | .powerOn => 1
  | .resetPin => 2

/-- Table 7-2: slot state codes. -/
def SlotState.code : SlotState → Byte
  | .empty => 0
  | .filled => 1
  | .taken => 2
  | .done => 3

/-- Table 11-7b: page state codes. -/
def PageState.code : PageState → Byte
  | .free => 0
  | .busy _ _ => 1
  | .held => 2

/-- Table 11-7b: scan outcome codes. -/
def ScanOutcome.code : ScanOutcome → Byte
  | .none => 0
  | .complete => 1
  | .interrupted => 2
  | .cancelled => 3

/-- Table 11-9: status codes. -/
def Status.code : Status → Byte
  | .inProgress => 0x00
  | .ok => 0x01
  | .okDegraded => 0x02
  | .already => 0x03
  | .heldLow => 0x04
  | .wrongState => 0x10
  | .badArgument => 0x11
  | .notPostable => 0x12
  | .unknownKind => 0x13
  | .pageBusy => 0x14
  | .gaveUp => 0x20
  | .cancelled => 0x21
  | .superseded => 0x22
  | .interrupted => 0x23
  | .bringUpFailed => 0x24

/-- Table 11-2: fault cause codes. -/
def FaultCause.code : FaultCause → Byte
  | .posted => 1
  | .misuse => 2

/-- Table 11-7b: LINE is 0, SWITCH is 1. -/
def sideCode : Side → Byte
  | .line => 0
  | .switch => 1

/-- Table 11-8: kind codes. -/
def TaskKind.code : TaskKind → Byte
  | .legSetup => 0x01
  | .legStart => 0x02
  | .legPark => 0x03
  | .legRetune => 0x04
  | .laneFunction => 0x05
  | .setTaps => 0x06
  | .eyeScan => 0x07
  | .snapshot => 0x08
  | .remap => 0x10
  | .power => 0x11

/-- Table 11-8 read backwards; any other code names no kind (R138). -/
def taskKind (b : Byte) : Option TaskKind :=
  match b.toNat with
  | 0x01 => some .legSetup
  | 0x02 => some .legStart
  | 0x03 => some .legPark
  | 0x04 => some .legRetune
  | 0x05 => some .laneFunction
  | 0x06 => some .setTaps
  | 0x07 => some .eyeScan
  | 0x08 => some .snapshot
  | 0x10 => some .remap
  | 0x11 => some .power
  | _ => none

/-- The kinds of the device queue (Table 8-1). -/
def TaskKind.device : TaskKind → Bool
  | .remap => true
  | .power => true
  | _ => false

/-- Table 8-1: every kind but EYE_SCAN, SNAPSHOT and REMAP may be posted. -/
def TaskKind.postable : TaskKind → Bool
  | .eyeScan => false
  | .snapshot => false
  | .remap => false
  | _ => true

/-! ### Arguments -/

/-- Table 11-7: a side code. -/
def decodeSide (b : Byte) : Option Side :=
  match b.toNat with
  | 0 => some .line
  | 1 => some .switch
  | _ => none

/-- Table 11-7: the sides of a LEG_RETUNE. -/
def decodeSides (b : Byte) : Option (List Side) :=
  match b.toNat with
  | 0 => some [.line]
  | 1 => some [.switch]
  | 2 => some [.line, .switch]
  | _ => none

/-- Table 11-5: a lane function code. -/
def decodeFunction (b : Byte) : Option LaneFunction :=
  match b.toNat with
  | 0 => some .carry
  | 1 => some .squelch
  | 2 => some .loopFar
  | 3 => some .loopNear
  | _ => none

/-- A byte that is to be a number below n. -/
def decodeFin (n : Nat) (b : Byte) : Option (Fin n) := if h : b.toNat < n then some ⟨b.toNat, h⟩ else none

/-- Table 11-7: a dwell of 1, 2 or 4 ms. -/
def decodeDwell (b : Byte) : Option Nat :=
  match b.toNat with
  | 1 => some 1
  | 2 => some 2
  | 4 => some 4
  | _ => none

/-- A code 0 off, 1 on. -/
def decodeFlag (b : Byte) : Option Bool :=
  match b.toNat with
  | 0 => some false
  | 1 => some true
  | _ => none

/-- Table 11-7: the requested power of a POWER task. -/
def decodePower (b : Byte) : Option RequestedPower :=
  match b.toNat with
  | 0 => some .low
  | 1 => some .active
  | _ => none

/-- Table 11-4: rate class. -/
def decodeRate (b : Byte) : Option RateClass :=
  match b.toNat with
  | 0 => some .rcA
  | 1 => some .rcB
  | 2 => some .rcC
  | _ => none

/-- R171: the rate class that a RATE strap code gives; 11 is taken as RC-C. -/
def strapRate (rate : BitVec 2) : RateClass :=
  match rate.toNat with
  | 0 => .rcA
  | 1 => .rcB
  | _ => .rcC

/-- Table 11-4: budget mode. -/
def decodeBudget (b : Byte) : Option BudgetMode :=
  match b.toNat with
  | 0 => some .fixed
  | 1 => some .balanced
  | _ => none

/-- Table 11-4: request-wait limit. -/
def decodeRequestWait (b : Byte) : Option RequestWait :=
  match b.toNat with
  | 0 => some .frames64
  | 1 => some .frames128
  | 2 => some .frames256
  | 3 => some .unlimited
  | _ => none

/-- Table 11-4: fallback. -/
def decodeFallback (b : Byte) : Option Fallback :=
  match b.toNat with
  | 0 => some .carry
  | 1 => some .retry
  | 2 => some .park
  | _ => none

/-- Table 11-4: relay mode. -/
def decodeRelayMode (b : Byte) : Option RelayMode :=
  match b.toNat with
  | 0 => some .off
  | 1 => some .follow
  | 2 => some .pulse
  | _ => none

/-- R63: the request-wait limit in frames; none is unlimited. -/
def RequestWait.limit : RequestWait → Option Nat
  | .frames64 => some 64
  | .frames128 => some 128
  | .frames256 => some 256
  | .unlimited => none

/-- R157: a number outside its range becomes the nearer end. -/
def clampNat (lo hi n : Nat) : Nat := if n < lo then lo else if hi < n then hi else n

/-- R157: the setup values that sixteen argument bytes load, numbers clamped; none when a code lies outside its set. -/
def decodeSetup (arg : Nat → Byte) : Option Setup := do
  let rate ← decodeRate (arg 0)
  let own ← decodeFin 5 (arg 1)
  let partner ← decodeFin 5 (arg 2)
  let budget ← decodeBudget (arg 3)
  let wait ← decodeRequestWait (arg 4)
  let fallback ← decodeFallback (arg 8)
  let relay ← decodeRelayMode (arg 9)
  let passing ← decodeFlag (arg 14)
  let wake ← decodeFlag (arg 15)
  return {
    rate := rate, ownPreset := own, partnerPreset := partner, budget := budget, requestWait := wait,
    sessionTimer := clampNat 1 20 (arg 5).toNat, lockTimeout := clampNat 10 80 (arg 6).toNat,
    attemptLimit := clampNat 1 7 (arg 7).toNat, fallback := fallback, relayMode := relay,
    relayDelay := clampNat 0 7 (arg 10).toNat, pulseWidth := clampNat 2 16 (arg 11).toNat,
    threshold := clampNat 1 4 (arg 12).toNat, floor := clampNat 0 63 (arg 13).toNat,
    passing := passing, wakeWatch := wake }

/-- Table 11-4: the setup value block. -/
def Setup.bytes (v : Setup) : List Byte :=
  [v.rate.code, BitVec.ofNat 8 v.ownPreset.val, BitVec.ofNat 8 v.partnerPreset.val, v.budget.code, v.requestWait.code,
   BitVec.ofNat 8 v.sessionTimer, BitVec.ofNat 8 v.lockTimeout, BitVec.ofNat 8 v.attemptLimit, v.fallback.code,
   v.relayMode.code, BitVec.ofNat 8 v.relayDelay, BitVec.ofNat 8 v.pulseWidth, BitVec.ofNat 8 v.threshold,
   BitVec.ofNat 8 v.floor, flagByte v.passing, flagByte v.wakeWatch]

/-- R157: the adjusted flag, set when any number was clamped, that is when a number loaded differs from its byte. -/
def setupAdjusted (arg : Nat → Byte) (v : Setup) : Bool :=
  (arg 5).toNat ≠ v.sessionTimer || (arg 6).toNat ≠ v.lockTimeout || (arg 7).toNat ≠ v.attemptLimit ||
  (arg 10).toNat ≠ v.relayDelay || (arg 11).toNat ≠ v.pulseWidth || (arg 12).toNat ≠ v.threshold ||
  (arg 13).toNat ≠ v.floor

/-- The argument byte at offset 0x10 + i of an entry's task: read in the slot for an awaited entry, in the copy for a
posted one (R139, R145). -/
def State.arg (s : State) (e : Entry) (i : Nat) : Byte :=
  if e.awaited then s.slotByte e.slot (0x10 + i) else e.args.getD i 0

/-- Tap triple bytes: two's complement (Table 11-7). -/
def Taps.bytes (t : Taps) : List Byte := [BitVec.ofInt 8 t.pre, BitVec.ofInt 8 t.main, BitVec.ofInt 8 t.post]

/-! ### The tuning frame (Section 11.7) -/

/-- Table 11-10: reply outcome codes. -/
def ReplyOutcome.code : ReplyOutcome → BitVec 3
  | .none => 0
  | .applied => 1
  | .clipped => 2
  | .pinned => 3
  | .badPreset => 4
  | .badRequest => 5
  | .frozen => 6

/-- R177: a rep_outcome of 7 names no outcome. -/
def decodeOutcome (b : BitVec 3) : Option ReplyOutcome :=
  match b.toNat with
  | 0 => some .none
  | 1 => some .applied
  | 2 => some .clipped
  | 3 => some .pinned
  | 4 => some .badPreset
  | 5 => some .badRequest
  | 6 => some .frozen
  | _ => none

/-- Table 11-10: tap codes. -/
def Tap.code : Tap → BitVec 2
  | .pre => 0
  | .main => 1
  | .post => 2

/-- Table 11-10: tap codes read backwards; 3 is the fourth code. -/
def decodeTap (b : BitVec 2) : Option Tap :=
  match b.toNat with
  | 0 => some .pre
  | 1 => some .main
  | 2 => some .post
  | _ => none

/-- What a frame says (Table 3-1), before its check byte. -/
structure FrameFields where
  reqTag  : BitVec 2
  reqKind : BitVec 2
  reqTap  : BitVec 2
  reqArg  : Byte
  reply   : Reply
  content : Bool
  taps    : Taps
  mark    : Byte
deriving DecidableEq, Repr

/-- Sum of bytes modulo 256. -/
def byteSum (bs : List Byte) : Byte := bs.foldl (· + ·) 0

/-- Table 11-10: bytes 0 to 6 of a frame. -/
def FrameFields.body (f : FrameFields) : List Byte :=
  [f.reply.tag ++ f.reqTap ++ f.reqKind ++ f.reqTag, f.reqArg, 0#4 ++ BitVec.ofBool f.content ++ f.reply.outcome.code,
   BitVec.ofInt 8 f.taps.pre, BitVec.ofInt 8 f.taps.main, BitVec.ofInt 8 f.taps.post, f.mark]

/-- R51: the eight bytes of a sent frame. -/
def FrameFields.bytes (f : FrameFields) : List Byte := f.body ++ [255 - byteSum f.body]

/-- R50, R61: the request fields: kind, tap and argument of an outstanding request. The tap bits of a PRESET are free
(notes/assumptions/31.md). -/
def RequestKind.fields : RequestKind → BitVec 2 × BitVec 2 × Byte
  | .nudge tap step => (1, tap.code, BitVec.ofInt 8 step)
  | .preset n => (2, Config.presetTap n, BitVec.ofNat 8 n.val)

/-- R51: a received frame is good when its eight bytes sum to 255 modulo 256. -/
def frameGood (bs : Vector Byte 8) : Bool := byteSum bs.toList == 255

/-- R177: the fields the part reads of a received good frame; rep_outcome none stands for the code 7. -/
structure RxFrame where
  reqTag  : BitVec 2
  reqKind : BitVec 2
  reqTap  : BitVec 2
  reqArg  : Byte
  repTag  : BitVec 2
  outcome : Option ReplyOutcome
  content : Bool
  mark    : Byte
deriving DecidableEq, Repr

/-- R177, Table 11-10: decoding a good frame. -/
def decodeFrame (bs : Vector Byte 8) : RxFrame :=
  { reqTag := bs[0].extractLsb' 0 2, reqKind := bs[0].extractLsb' 2 2, reqTap := bs[0].extractLsb' 4 2,
    reqArg := bs[1], repTag := bs[0].extractLsb' 6 2, outcome := decodeOutcome (bs[2].extractLsb' 0 3),
    content := bs[2].getLsbD 3, mark := bs[6] }

/-- R6: a lane side whose polarity is INVERTED inverts every bit at its pins (notes/assumptions/10.md). -/
def applyPolarity (p : Polarity) (b : Byte) : Byte :=
  match p with
  | .normal => b
  | .inverted => ~~~b

/-- R6: bytes that pass the polarity stage of a lane side, on their way in from its pins or out to them. -/
def State.throughPolarity (s : State) (x : LaneSide) (bs : List Byte) : List Byte := bs.map (applyPolarity (s.polarity x))

end Sys2Proof.Machine
end

