-- ==== Sys2Proof/Machine/Equalizer.lean ====
section
/-! DEFINITION. The transmitter equalizer arithmetic of Section 4: ranges, presets, NUDGE under both budget modes, and the
saturation of SET_TAPS. -/

namespace Sys2Proof.Machine

/-- The magnitude |PRE| or |POST| of a tap. -/
def magnitude (v : Int) : Int := if v < 0 then -v else v

/-- R78: the budget S = |PRE| + MAIN + |POST|. -/
def Taps.budget (t : Taps) : Int := magnitude t.pre + t.main + magnitude t.post

/-- R78: the floor F = MAIN − |PRE| − |POST|. -/
def Taps.floor (t : Taps) : Int := t.main - magnitude t.pre - magnitude t.post

/-- Table 4-1: the lower end of PRE; RC-A fixes PRE at 0. -/
def preLow : RateClass → Int
  | .rcA => 0
  | .rcB => -16
  | .rcC => -16

/-- R77: a value is within a tap's range for the rate class. -/
def tapInRange (rate : RateClass) (tap : Tap) (v : Int) : Bool :=
  match tap with
  | .pre => decide (preLow rate ≤ v) && decide (v ≤ 0)
  | .main => decide (20 ≤ v) && decide (v ≤ 60)
  | .post => decide (-24 ≤ v) && decide (v ≤ 0)

/-- R78: a valid triple: three ranges, budget at most 60, floor at least 10. -/
def Taps.valid (rate : RateClass) (t : Taps) : Bool :=
  tapInRange rate .pre t.pre && tapInRange rate .main t.main && tapInRange rate .post t.post &&
  decide (t.budget ≤ 60) && decide (10 ≤ t.floor)

/-- The value of one tap. -/
def Taps.get (t : Taps) : Tap → Int
  | .pre => t.pre
  | .main => t.main
  | .post => t.post

/-- The triple with one tap replaced. -/
def Taps.put (t : Taps) (tap : Tap) (v : Int) : Taps :=
  match tap with
  | .pre => { t with pre := v }
  | .main => { t with main := v }
  | .post => { t with post := v }

/-- Table 4-3: the presets P0 to P4 for RC-B and RC-C. -/
def presetTaps (n : Fin 5) : Taps :=
  match n.val with
  | 0 => ⟨0, 60, 0⟩
  | 1 => ⟨0, 48, -12⟩
  | 2 => ⟨-6, 42, -12⟩
  | 3 => ⟨-8, 36, -16⟩
  | _ => ⟨0, 40, 0⟩

/-- R79, R80, R81: in RC-A the PRE tap becomes 0 and MAIN and POST are kept. -/
def Taps.forRate (rate : RateClass) (t : Taps) : Taps :=
  match rate with
  | .rcA => { t with pre := 0 }
  | .rcB => t
  | .rcC => t

/-- R81, R82: a preset in the form of the rate class. -/
def loadPreset (rate : RateClass) (n : Fin 5) : Taps := (presetTaps n).forRate rate

/-- R84: the candidate steps: s first, then one closer to 0 each time, stopping before 0. -/
def candidates (s : Int) : List Int :=
  (List.range s.natAbs).map (fun j => if s < 0 then s + (j : Int) else s - (j : Int))

/-- R84: the triple a candidate step of tap X forms under FIXED, if it qualifies. -/
def tryFixed (rate : RateClass) (t : Taps) (tap : Tap) (k : Int) : Option Taps :=
  let t' := t.put tap (t.get tap + k)
  if tapInRange rate tap (t'.get tap) && decide (t'.budget ≤ 60) && decide (10 ≤ t'.floor) then some t' else none

/-- R86: the triple a candidate step forms under BALANCED, MAIN lowered by the excess e of the budget, if it
qualifies. -/
def tryBalanced (rate : RateClass) (t : Taps) (tap : Tap) (k : Int) : Option Taps :=
  let t' := t.put tap (t.get tap + k)
  let e := if 60 < t'.budget then t'.budget - 60 else 0
  let t'' := { t' with main := t'.main - e }
  if tapInRange rate tap (t'.get tap) && decide (20 ≤ t''.main) && decide (10 ≤ t''.floor) then some t'' else none

/-- R85: BALANCED treats a NUDGE of PRE or POST by a negative step in its own way, every other NUDGE as FIXED. -/
def tryStep (mode : BudgetMode) (rate : RateClass) (t : Taps) (tap : Tap) (k : Int) : Option Taps :=
  match mode, tap with
  | .balanced, .pre => if k < 0 then tryBalanced rate t tap k else tryFixed rate t tap k
  | .balanced, .post => if k < 0 then tryBalanced rate t tap k else tryFixed rate t tap k
  | _, _ => tryFixed rate t tap k

/-- The first candidate of the list that qualifies, with its triple (R84, step 3). -/
def firstQualifying (attempt : Int → Option Taps) : List Int → Option (Int × Taps)
  | [] => none
  | k :: ks =>
    match attempt k with
    | some t => some (k, t)
    | none => firstQualifying attempt ks

/-- R84, R86: a NUDGE of a tap by a step: the outcome and the triple after it. -/
def nudge (mode : BudgetMode) (rate : RateClass) (t : Taps) (tap : Tap) (step : Int) : ReplyOutcome × Taps :=
  match firstQualifying (tryStep mode rate t tap) (candidates step) with
  | none => (.pinned, t)
  | some (k, t') => (if k = step then .applied else .clipped, t')

/-- R59: the outcome of a new request on a lane side that is not AGREED, and the triple after it. -/
def answerRequest (mode : BudgetMode) (rate : RateClass) (t : Taps) (f : RxFrame) : ReplyOutcome × Taps :=
  match f.reqKind.toNat with
  | 1 =>
    match decodeTap f.reqTap with
    | none => (.badRequest, t)
    | some tap =>
      if 1 ≤ f.reqArg.toInt.natAbs ∧ f.reqArg.toInt.natAbs ≤ 3 then nudge mode rate t tap f.reqArg.toInt
      else (.badRequest, t)
  | 2 =>
    match decodeFin 5 f.reqArg with
    | none => (.badPreset, t)
    | some n => (.applied, loadPreset rate n)
  | _ => (.badRequest, t)

/-- Clamp an integer into a range. -/
def clampInt (lo hi v : Int) : Int := if v < lo then lo else if hi < v then hi else v

/-- R90: each tap clamped into its range for the rate class. -/
def clampTaps (rate : RateClass) (t : Taps) : Taps :=
  { pre := clampInt (preLow rate) 0 t.pre, main := clampInt 20 60 t.main, post := clampInt (-24) 0 t.post }

/-- The part of an amount that a tap at or below 0 can be raised by without passing 0. -/
def roomToZero (v amount : Int) : Int := if amount < -v then amount else -v

/-- R91: the budget enforced: MAIN lowered by the excess but not below 20, then POST, then PRE raised toward 0. -/
def enforceBudget (t : Taps) : Taps :=
  if t.budget ≤ 60 then t
  else
    let e := t.budget - 60
    let m := if t.main - e < 20 then t.main - 20 else e
    let e₁ := e - m
    let p := roomToZero t.post e₁
    let q := roomToZero t.pre (e₁ - p)
    { pre := t.pre + q, main := t.main - m, post := t.post + p }

/-- R92: the floor enforced: POST raised toward 0 by 10 − F, then PRE by what remains. -/
def enforceFloor (t : Taps) : Taps :=
  if 10 ≤ t.floor then t
  else
    let d := 10 - t.floor
    let p := roomToZero t.post d
    let q := roomToZero t.pre (d - p)
    { t with pre := t.pre + q, post := t.post + p }

/-- R89 to R92: the saturated triple of a SET_TAPS. -/
def saturate (rate : RateClass) (t : Taps) : Taps := enforceFloor (enforceBudget (clampTaps rate t))

end Sys2Proof.Machine
end

