-- ==== Sys2Proof/Machine/Flags.lean ====
section
/-! DEFINITION. The attention summary, the attention line, the fault log, and the end of a task (Sections 7.4, 8.1, 9). -/

namespace Sys2Proof.Machine

/-! ### The attention summary and the line (R163 to R167) -/

/-- Table 9-1: the implemented bits of the summary: 0 to 11, 16 to 19, 24 and 25. -/
def implementedBits : BitVec 32 := 0x030F0FFF

/-- The summary bit of slot n. -/
def slotBit (n : SlotId) : BitVec 32 := 1#32 <<< n.val

/-- The summary bit of Leg l's notice. -/
def legBit (l : LegId) : BitVec 32 := 1#32 <<< (16 + l.val)

/-- Bit 24, fault held. -/
def faultBit : BitVec 32 := 1#32 <<< 24

/-- Bit 25, the power notice. -/
def powerBit : BitVec 32 := 1#32 <<< 25

/-- The bits a host write of 1 clears (R164): 16 to 19 and 25. -/
def clearableBits : BitVec 32 := 0x020F0000

/-- Set summary bits (R163); in LATCHED mode an enabled bit that changes from 0 to 1 asserts the latched line state
(R167). -/
def State.raise (s : State) (bits : BitVec 32) : State :=
  { s with
    summary := s.summary ||| bits
    latchedLine := s.latchedLine || (s.latchedMode && (bits &&& ~~~s.summary &&& s.enables) != 0) }

/-- Clear summary bits (R163, R164). -/
def State.lower (s : State) (bits : BitVec 32) : State := { s with summary := s.summary &&& ~~~bits }

/-- Raise a leg's notice (R46). -/
def State.legNotice (s : State) (l : LegId) : State := s.raise (legBit l)

/-- ATTN_L is asserted (R166, R167). -/
def State.attentionAsserted (s : State) : Bool :=
  if s.resetHeld || s.device = .initializing then false
  else if s.latchedMode then s.latchedLine
  else (s.summary &&& s.enables) != 0

/-- The device state becomes READY; in LATCHED mode with some enabled bit set the latched state becomes asserted
(R167). -/
def State.becomeReady (s : State) : State :=
  { s with
    device := .ready
    latchedLine := s.latchedLine || (s.latchedMode && (s.summary &&& s.enables) != 0) }

/-- The four enables with byte k replaced, unimplemented positions kept 0 (R165). -/
def replaceEnable (enables : BitVec 32) (k : Nat) (v : Byte) : BitVec 32 :=
  ((enables &&& ~~~(0xFF#32 <<< (8 * k))) ||| (v.setWidth 32 <<< (8 * k))) &&& implementedBits

/-- A host write of one byte of the notice enables acts when received; in LATCHED mode an enable turned on for a set
bit asserts the latched state (R165, R167). -/
def State.writeEnable (s : State) (k : Nat) (v : Byte) : State :=
  let after := replaceEnable s.enables k v
  { s with
    enables := after
    latchedLine := s.latchedLine || (s.latchedMode && (after &&& ~~~s.enables &&& s.summary) != 0) }

/-! ### The fault log (R168, R169) -/

/-- Report a fault: it fills an empty log and sets bit 24, or is counted (R168). -/
def State.reportFault (s : State) (r : FaultRecord) : State :=
  match s.faultRecord with
  | none => { s with faultRecord := some r }.raise faultBit
  | some _ => { s with laterFaults := countUp 255 s.laterFaults }

/-- Empty the log (R169). -/
def State.releaseFaults (s : State) : State :=
  { s with faultRecord := none, laterFaults := 0 }.lower faultBit

/-- R168: the statuses a posted task's end reports: 0x10 and above. -/
def Status.isFault (st : Status) : Bool := decide (0x10 ≤ st.code.toNat)

/-- A posted task of this header finishes: a status of 0x10 or above is reported as a POSTED fault (R144, R168). -/
def State.endPosted (s : State) (slot : SlotId) (kind leg label0 label1 : Byte) (st : Status) : State :=
  if st.isFault then
    s.reportFault { cause := .posted, status := st, slot := slot.val, kind := kind, leg := leg, label0 := label0,
                    label1 := label1, written := 0, found := 0 }
  else s

/-- A hand-over byte write that is a misuse (R136, R168). -/
def State.slotMisuse (s : State) (n : SlotId) (v : Byte) : State :=
  s.reportFault { cause := .misuse, status := .inProgress, slot := n.val, kind := s.slotByte n 0, leg := s.slotByte n 2,
                  label0 := s.slotByte n 4, label1 := s.slotByte n 5, written := v, found := (s.slot n).state.code }

/-- A page state write that is a misuse (R116, R168). -/
def State.pageMisuse (s : State) (p : PageId) (v : Byte) : State :=
  s.reportFault { cause := .misuse, status := .inProgress, slot := 16 + p.val, kind := 0, leg := 0, label0 := 0,
                  label1 := 0, written := v, found := (s.page p).state.code }

/-! ### The end of a task (R140, R144) -/

/-- An awaited task finishes: the result bytes, the status, DONE, and the slot's DONE bit (R140). -/
def State.endAwaited (s : State) (n : SlotId) (result : List Byte) (st : Status) : State :=
  ({ s with mem := s.mem.writeBytes (slotBase n + 0x80) result }.modSlot n
    (fun c => { c with state := .done, status := st })).raise (slotBit n)

/-- The task of an entry finishes, in its slot or at the attention unit, according to its class (R144). -/
def State.endTask (s : State) (e : Entry) (result : List Byte) (st : Status) : State :=
  if e.awaited then s.endAwaited e.slot result st
  else s.endPosted e.slot e.kindByte e.leg e.label0 e.label1 st

end Sys2Proof.Machine
end

