-- ==== Sys2Proof/Machine/Tuner.lean ====
section
/-! DEFINITION. The lane tuner: the requester, the climb (Section 5) and the tuner's record at the start, the failure and
the end of a session (Section 3). -/

namespace Sys2Proof.Machine

/-- Change the tuner record of a lane side. -/
def State.modTuner (s : State) (x : LaneSide) (f : Tuner → Tuner) : State :=
  s.modLane x (fun v => { v with tuner := f v.tuner })

/-- Change the climb record of a lane side. -/
def State.modClimb (s : State) (x : LaneSide) (f : Climb → Climb) : State :=
  s.modLane x (fun v => { v with climb := f v.climb })

/-- R61: the request becomes outstanding with the next tag, its wait count 0. -/
def Tuner.issue (t : Tuner) (k : RequestKind) : Tuner :=
  { t with outstanding := some ⟨t.nextTag, k⟩, waitCount := 0 }

/-- The climb issues a request (R61). -/
def State.issue (s : State) (x : LaneSide) (k : RequestKind) : State := s.modTuner x (fun t => t.issue k)

/-- The climb starts a margin reading (R97). -/
def State.startReading (s : State) (x : LaneSide) : State :=
  s.modLane x (fun v => { v with monitor := .reading Config.readingTime })

/-- A reading in progress is discarded; a scan is not a reading (R98). -/
def Monitor.discardReading : Monitor → Monitor
  | .reading _ => .idle
  | m => m

/-! ### The climb (Section 5) -/

/-- The signed step of a direction (R103). -/
def Direction.step : Direction → Int
  | .up => 1
  | .down => -1

/-- The reversed direction (R108). -/
def Direction.reversed : Direction → Direction
  | .up => .down
  | .down => .up

/-- The tap a climb's NUDGE names (R103). -/
def ClimbTap.tap : ClimbTap → Tap
  | .post => .post
  | .pre => .pre

/-- R110: the lane side is weak when its best margin is below the margin floor. -/
def Climb.weak (c : Climb) : Bool :=
  match c.best with
  | some b => decide (b < c.floor)
  | none => false

/-- The weak-lane flag of line lane i (Table 2-1). -/
def laneBit (i : LaneId) : BitVec 8 := 1#8 <<< i.val

/-- R110, R64, R38: the climb ends: the stage becomes ENDED, own CONTENT is set, the tuner enters HOLDING, and a weak
lane sets its flag in the side's weak-lane mask. -/
def State.endClimb (s : State) (x : LaneSide) : State :=
  let weak := (s.lane x).climb.weak
  let s := s.modLane x (fun v =>
    { v with climb := { v.climb with stage := .ended }, tuner := { v.tuner with content := true, phase := .holding } })
  if weak then s.modLegSide (s.legOf x) x.side (fun d => { d with weak := d.weak ||| laneBit (s.lineOf x) }) else s

/-- R103: the trial check: with at least 2 requests remaining a trial NUDGE is issued, else the climb ends cut short. -/
def State.trialCheck (s : State) (x : LaneSide) : State :=
  let c := (s.lane x).climb
  if 2 ≤ Config.climbRequests - c.answered then
    (s.issue x (.nudge c.tap.tap c.direction.step)).modClimb x (fun c => { c with stage := .trial })
  else s.endClimb x

/-- R108: the pass decision. -/
def State.passDecision (s : State) (x : LaneSide) : State :=
  let c := (s.lane x).climb
  if !c.improved && !c.triedOpposite then
    (s.modClimb x (fun c => { c with triedOpposite := true, direction := c.direction.reversed })).trialCheck x
  else match c.tap with
    | .post =>
      (s.modClimb x (fun c => { c with tap := .pre, direction := .up, improved := false,
                                       triedOpposite := false })).trialCheck x
    | .pre => s.endClimb x

/-- R109: the climb acts on the outcome of a reply taken, by its stage (Table 5-2, R100, R104 to R107). -/
def State.climbReply (s : State) (x : LaneSide) (o : ReplyOutcome) : State :=
  let stage := (s.lane x).climb.stage
  let counted := s.modClimb x (fun c =>
    { c with answered := c.answered + 1, frozenSeen := c.frozenSeen || o = .frozen })
  match stage with
  | .presetting => (counted.startReading x).modClimb x (fun c => { c with stage := .baseline })
  | .trial =>
    match o with
    | .applied => (counted.startReading x).modClimb x (fun c => { c with stage := .measuring })
    | .clipped => (counted.startReading x).modClimb x (fun c => { c with stage := .measuring })
    | .frozen => counted.endClimb x
    | _ => counted.passDecision x
  | .reverting => if o = .frozen then counted.endClimb x else counted.passDecision x
  | _ => s

/-- R102, R104: the climb acts on a completed reading, by its stage. -/
def State.climbReading (s : State) (x : LaneSide) (m : Nat) : State :=
  let c := (s.lane x).climb
  match c.stage with
  | .baseline =>
    let s := s.modClimb x (fun c => { c with best := some m })
    if c.frozenSeen then s.endClimb x
    else (s.modClimb x (fun c => { c with tap := .post, direction := .up, improved := false,
                                          triedOpposite := false })).trialCheck x
  | .measuring =>
    if c.best.getD 0 + c.threshold ≤ m then
      (s.modClimb x (fun c => { c with best := some m, improved := true })).trialCheck x
    else
      (s.issue x (.nudge c.tap.tap c.direction.reversed.step)).modClimb x (fun c => { c with stage := .reverting })
  | _ => s

/-! ### The tuner's record over a session (R54, R55, R27, R68, R71) -/

/-- R54: the tuner record at a session start. -/
def Tuner.prepared (t : Tuner) : Tuner :=
  { t with ownMark := t.ownMark + 1, partnerMark := none, lastAnswered := none, reply := ⟨0, .none⟩, nextTag := 0,
           outstanding := none, waitCount := 0, content := false, hold := 0, phase := .climbing }

/-- R55: the tuner record of a side that a LEG_RETUNE does not name. -/
def Tuner.unnamed (t : Tuner) : Tuner :=
  { t with partnerMark := none, lastAnswered := none, reply := ⟨0, .none⟩, outstanding := none, waitCount := 0,
           content := true, hold := 0, phase := .agreed }

/-- R100, R101: the climb record as prepared at a session start, in its first stage. -/
def Climb.prepared (c : Climb) (g : Setup) (stage : ClimbStage) : Climb :=
  { c with best := none, answered := 0, frozenSeen := false, threshold := g.threshold, floor := g.floor,
           stage := stage }

/-- R54, R82, R100, R101: one lane side at a session start: its record prepared, the own start preset loaded on a
BRING_UP, and its climb started, by a PRESET request on a BRING_UP and by a baseline reading on a RETUNE. -/
def LaneState.startSession (v : LaneState) (g : Setup) : SessionKind → LaneState
  | .bringUp =>
    { v with tuner := v.tuner.prepared.issue (.preset g.partnerPreset), taps := loadPreset g.rate g.ownPreset,
             climb := v.climb.prepared g .presetting }
  | .retune =>
    { v with tuner := v.tuner.prepared, climb := v.climb.prepared g .baseline,
             monitor := .reading Config.readingTime }

/-- R55, R99: one lane side of a side that a LEG_RETUNE does not name: AGREED, with no climb. -/
def LaneState.standBy (v : LaneState) : LaneState :=
  { v with tuner := v.tuner.unnamed, climb := { v.climb with stage := .inactive } }

/-- R27, R98, R112: the exchange of a lane side stops with its session abandoned: request, reading and hold dropped,
CONTENT cleared, the climb without a result, phase IDLE. -/
def LaneState.abandon (v : LaneState) : LaneState :=
  { v with tuner := { v.tuner with outstanding := none, content := false, hold := 0, phase := .idle },
           climb := { v.climb with stage := .inactive }, monitor := v.monitor.discardReading }

/-- R71: the tuner of a lane side whose leg leaves TUNE with this side's session ended enters phase IDLE; an outstanding
request, a reading and the hold are dropped. -/
def LaneState.rest (v : LaneState) : LaneState :=
  { v with tuner := { v.tuner with outstanding := none, hold := 0, phase := .idle },
           climb := { v.climb with stage := .inactive }, monitor := v.monitor.discardReading }

/-- R68: a lane side of a failed session: not AGREED, it enters FAILED; AGREED, it stays so. -/
def LaneState.failSession (v : LaneState) : LaneState :=
  if v.tuner.phase = .agreed then v
  else
    { v with tuner := { v.tuner with outstanding := none, content := false, hold := 0, phase := .failed },
             climb := { v.climb with stage := .inactive }, monitor := v.monitor.discardReading }

end Sys2Proof.Machine
end

