-- ==== Sys2Proof/Machine/LegControl.lean ====
section
/-! DEFINITION. The leg controllers (Section 2): states and transitions, attempts and fallback, the loss relay, notices and
counters, and the end of the scans of a leg that leaves CARRYING. -/

namespace Sys2Proof.Machine

/-! ### Scans of a leg (Section 6.4) -/

/-- The lane side a page's scan is of (R115). -/
def State.scanSide (s : State) (p : PageId) : LaneSide := s.sideOf (s.page p).lane (s.page p).side

/-- R120, R121, R122: the running scan of a page ends: the page HELD with its outcome, the eye monitor IDLE, then the
result, the status and DONE in the slot. -/
def State.endScan (s : State) (p : PageId) (slot : SlotId) (o : ScanOutcome) (st : Status) : State :=
  let s := (s.modPage p (fun c => { c with state := .held, outcome := o })).modLane (s.scanSide p)
    (fun v => { v with monitor := .idle })
  s.endAwaited slot ([BitVec.ofNat 8 p.val, o.code] ++ bytes16 (s.page p).cellsDone) st

/-- R121: the scan that runs in a page, if it is of this leg, is interrupted. -/
def State.interruptScan (s : State) (l : LegId) (p : PageId) : State :=
  match (s.page p).state with
  | .busy slot _ => if (s.page p).leg = l then s.endScan p slot .interrupted .interrupted else s
  | _ => s

/-- R121: every running scan of the leg is interrupted. -/
def State.interruptScans (s : State) (l : LegId) : State :=
  allPages.foldl (fun s p => s.interruptScan l p) s

/-! ### Outcomes reported to the leg engine (R41, R155, R158) -/

/-- R158: the result of an awaited bring-up task. -/
def Leg.bringUpResult (g : Leg) : List Byte :=
  [g.state.code, g.grade.code, BitVec.ofNat 8 g.attempts, g.cause.code, flagByte g.givenUp]

/-- R41, R155: an outcome is reported; the task in the in-flight set, if there is one, finishes with the status. -/
def State.reportOutcome (s : State) (l : LegId) (st : Status) : State :=
  match (s.engine l).inFlight with
  | none => s
  | some n => (s.modEngine l (fun e => { e with inFlight := none })).endAwaited n (s.leg l).bringUpResult st

/-! ### Leaving a state -/

/-- R27, R71: one side of a leg that leaves TUNE other than for CARRYING: a RUNNING session is abandoned; a DONE or
FAILED one keeps its state and mask, and its tuners enter IDLE. -/
def State.abandonSide (s : State) (l : LegId) (side : Side) : State :=
  if ((s.leg l).side side).session = .running then
    (s.modLanes (s.memberSides l side) LaneState.abandon).modLegSide l side
      (fun d => { d with timer := none, weak := 0, session := .idle })
  else s.modLanes (s.memberSides l side) LaneState.rest

/-- R27: the sessions of a leg in TUNE are abandoned; in any other state there are none. -/
def State.abandonSessions (s : State) (l : LegId) : State :=
  if (s.leg l).state = .tune then (s.abandonSide l .line).abandonSide l .switch else s

/-- R46, R121: a leg that leaves CARRYING raises its notice, and its scans are interrupted. -/
def State.leaveCarrying (s : State) (l : LegId) : State :=
  if (s.leg l).state = .carrying then (s.legNotice l).interruptScans l else s

/-- R45: a relay direction is ended; its armed flag keeps its value. -/
def RelayDirection.ended (r : RelayDirection) : RelayDirection :=
  { r with delay := none, pulse := none, squelching := false }

/-- R28, R29, R33, R39: the entry into PARKED that all its causes share: the lock timer stopped, any sessions abandoned,
the relay's activity ended, the notice and the scans of a leg that was CARRYING. -/
def State.parkLeg (s : State) (l : LegId) : State :=
  ((s.abandonSessions l).leaveCarrying l).modLeg l (fun g =>
    { g.modSides (fun d => { d with relay := d.relay.ended }) with lockTimer := none, state := .parked })

/-- R33, R39: the leg gives up. -/
def State.giveUp (s : State) (l : LegId) : State :=
  (((s.parkLeg l).modLeg l (fun g => { g with intent := false, givenUp := true })).legNotice l).reportOutcome l
    .bringUpFailed

/-! ### Entering a state -/

/-- R54: a session starts on one side of a leg. -/
def State.startSession (s : State) (l : LegId) (kind : SessionKind) (side : Side) : State :=
  let g := (s.leg l).setup
  (s.modLanes (s.memberSides l side) (fun v => v.startSession g kind)).modLegSide l side
    (fun d => { d with session := .running, weak := 0, timer := some (g.sessionTimer * 100000) })

/-- R40, R55: a side that a LEG_RETUNE does not name: DONE at once, its mask kept, its tuners AGREED. -/
def State.standBySide (s : State) (l : LegId) (side : Side) : State :=
  (s.modLanes (s.memberSides l side) LaneState.standBy).modLegSide l side (fun d => { d with session := .done })

/-- R36, R40: one side at the entry into TUNE. -/
def State.enterTuneSide (s : State) (l : LegId) (kind : SessionKind) (named : List Side) (side : Side) : State :=
  if side ∈ named then s.startSession l kind side else s.standBySide l side

/-- R36: the leg enters TUNE with sessions of this kind on the named sides. -/
def State.enterTune (s : State) (l : LegId) (kind : SessionKind) (named : List Side) : State :=
  ((s.modLeg l (fun g => { g with state := .tune, kind := kind })).enterTuneSide l kind named .line).enterTuneSide l kind
    named .switch

/-- R32: with every member lane LOCKED, the lock timer stops and the leg enters TUNE with both sides running. -/
def State.tryTune (s : State) (l : LegId) : State :=
  if s.allLocked l then
    (s.modLeg l (fun g => { g with lockTimer := none })).enterTune l .bringUp [.line, .switch]
  else s

/-- R32: the leg enters ACQUIRE: the lock timer starts, and with every lane LOCKED the leg passes on to TUNE. -/
def State.enterAcquire (s : State) (l : LegId) : State :=
  (s.modLeg l (fun g => { g with state := .acquire, lockTimer := some (g.setup.lockTimeout * 1000) })).tryTune l

/-- R31: the leg enters DARK, and with every lane PRESENT passes on to ACQUIRE. -/
def State.enterDark (s : State) (l : LegId) : State :=
  let s := s.modLeg l (fun g => { g with state := .dark, lockTimer := none })
  if s.allPresent l then s.enterAcquire l else s

/-- R37, R39: the leg enters CARRYING with a grade: attempt count 0, the relay re-armed, the entry counted, the tuners
IDLE (R71), the notice, and the outcome reported. -/
def State.enterCarrying (s : State) (l : LegId) (grade : Grade) : State :=
  (((s.modLanes (s.allMemberSides l) LaneState.rest).modLeg l (fun g =>
      { g.modSides (fun d => { d with relay := { d.relay with armed := true } }) with
        state := .carrying, attempts := 0, grade := grade
        carryEntries := countUp Config.legCounterMax g.carryEntries })).legNotice l).reportOutcome l
    (match grade with
     | .full => .ok
     | .degraded => .okDegraded)

/-! ### Sessions (R37, R38, R39, R67, R68) -/

/-- R38: DEGRADED if any flag is set in either side's weak-lane mask, FULL otherwise. -/
def Leg.tunedGrade (g : Leg) : Grade := if g.line.weak = 0 ∧ g.switch.weak = 0 then .full else .degraded

/-- R67, R37: a session is DONE: its timer stops, and with the other side DONE too the leg enters CARRYING. -/
def State.sessionDone (s : State) (l : LegId) (side : Side) : State :=
  let s := s.modLegSide l side (fun d => { d with session := .done, timer := none })
  if ((s.leg l).side (otherSide side)).session = .done then s.enterCarrying l (s.leg l).tunedGrade else s

/-- R39: the leg follows its fallback. -/
def State.fallBack (s : State) (l : LegId) : State :=
  match (s.leg l).setup.fallback with
  | .carry => s.enterCarrying l .degraded
  | .retry =>
    let s := (s.abandonSessions l).modLeg l (fun g => { g with attempts := g.attempts + 1 })
    if (s.leg l).attempts < (s.leg l).setup.attemptLimit then s.enterAcquire l else s.giveUp l
  | .park =>
    (((s.parkLeg l).modLeg l (fun g => { g with intent := false })).legNotice l).reportOutcome l .bringUpFailed

/-- R39: the other side of a failed session: abandoned if RUNNING, a DONE one left as it is. -/
def State.abandonRunning (s : State) (l : LegId) (side : Side) : State :=
  if ((s.leg l).side side).session = .running then s.abandonSide l side else s

/-- R68, R39: the running session of a side fails with a cause, and the leg follows its fallback. -/
def State.sessionFailed (s : State) (l : LegId) (side : Side) (cause : FailureCause) : State :=
  let s := (s.modLanes (s.memberSides l side) LaneState.failSession).modLegSide l side
    (fun d => { d with session := .failed, timer := none })
  let s := s.modLeg l (fun g =>
    { g with cause := cause, failedSessions := countUp Config.legCounterMax g.failedSessions })
  (s.abandonRunning l (otherSide side)).fallBack l

/-! ### The loss relay (R42 to R45) -/

/-- Change one relay direction: the one that watches the named side. -/
def State.modRelay (s : State) (l : LegId) (watched : Side) (f : RelayDirection → RelayDirection) : State :=
  s.modLegSide l watched (fun d => { d with relay := f d.relay })

/-- R43, R44: expiry of the delay timer of the direction that watches a side. -/
def State.relayExpire (s : State) (l : LegId) (watched : Side) : State :=
  match (s.leg l).setup.relayMode with
  | .off => s.modRelay l watched (fun r => { r with delay := none })
  | .follow =>
    let complete := s.sidePresent l watched
    s.modRelay l watched (fun r => { r with delay := none, squelching := r.squelching || !complete })
  | .pulse =>
    let width := (s.leg l).setup.pulseWidth
    s.modRelay l watched (fun r => { r with delay := none, squelching := true, pulse := some (width * 1000) })

/-- R43, R44: the delay timer starts; a delay of 0 ms expires at the trigger itself. -/
def State.relayStart (s : State) (l : LegId) (watched : Side) : State :=
  let delay := (s.leg l).setup.relayDelay
  if delay = 0 then s.relayExpire l watched
  else s.modRelay l watched (fun r => { r with delay := some (delay * 1000) })

/-- R42 to R44: the trigger of the direction that watches a side: a member lane of it became ABSENT. -/
def State.relayTrigger (s : State) (l : LegId) (watched : Side) : State :=
  let r := ((s.leg l).side watched).relay
  match (s.leg l).setup.relayMode with
  | .off => s
  | .follow => if r.delay.isNone && !r.squelching then s.relayStart l watched else s
  | .pulse =>
    if r.armed && r.delay.isNone && r.pulse.isNone then
      (s.modRelay l watched (fun r => { r with armed := false })).relayStart l watched
    else s

/-- R43, R44: the release of the direction that watches a side: the side is fully PRESENT again. -/
def State.relayRelease (s : State) (l : LegId) (watched : Side) : State :=
  match (s.leg l).setup.relayMode with
  | .off => s
  | .follow => s.modRelay l watched (fun r => { r with delay := none, squelching := false })
  | .pulse => s.modRelay l watched (fun r => { r with delay := none })

/-! ### Presence and lock events (R16, R31 to R35) -/

/-- R34: a presence loss: in ACQUIRE, TUNE and CARRYING the leg enters DARK. -/
def State.legPresenceLoss (s : State) (l : LegId) : State :=
  match (s.leg l).state with
  | .parked => s
  | .dark => s
  | _ =>
    (((s.abandonSessions l).leaveCarrying l).modLeg l (fun g =>
      { g with presenceLosses := countUp Config.legCounterMax g.presenceLosses })).enterDark l

/-- R31: a change to PRESENT that leaves every member lane PRESENT sends a leg in DARK to ACQUIRE. -/
def State.legPresenceGain (s : State) (l : LegId) : State :=
  if (s.leg l).state = .dark ∧ s.allPresent l then s.enterAcquire l else s

/-- R19, R46: a wake-watch notice, if the leg is PARKED with wake watch on. -/
def State.wakeWatch (s : State) (l : LegId) : State :=
  if (s.leg l).state = .parked ∧ (s.leg l).setup.wakeWatch then s.legNotice l else s

/-- R16: the presence event of a lane side that became ABSENT: the drop is counted (R17), the receiver becomes UNLOCKED
(R1), and the leg controller and the relay take it. -/
def State.becomeAbsent (s : State) (x : LaneSide) : State :=
  let l := s.legOf x
  let s := s.modLane x (fun v =>
    { v with presence := { v.presence with qualified := false }, locked := false
             counters := { v.counters with
               presenceDrops := countUp Config.laneCounterMax v.counters.presenceDrops } })
  let parked := (s.leg l).state = .parked
  let s := s.legPresenceLoss l
  if parked then s else s.relayTrigger l x.side

/-- R16: the presence event of a lane side that became PRESENT. -/
def State.becomePresent (s : State) (x : LaneSide) : State :=
  let l := s.legOf x
  let s := s.modLane x (fun v => { v with presence := { v.presence with qualified := true } })
  let s := s.legPresenceGain l
  if s.sidePresent l x.side then s.relayRelease l x.side else s

/-- R15, R16: the qualified presence takes the raw detect's value, and its users take the event; an unmasked lane side
of a PARKED leg with wake watch on raises the notice (R19). -/
def State.presenceEvent (s : State) (x : LaneSide) : State :=
  let p := (s.lane x).presence
  let s := s.modLane x (fun v => { v with presence := { v.presence with timer := none } })
  if p.raw = p.qualified then s
  else
    let s := if p.raw then s.becomePresent x else s.becomeAbsent x
    if (s.lane x).mask.timer.isNone then s.wakeWatch (s.legOf x) else s

/-- R1, R32: a receiver becomes LOCKED; the lock event that completes a leg in ACQUIRE sends it to TUNE. -/
def State.lockEvent (s : State) (x : LaneSide) : State :=
  let s := s.modLane x (fun v => { v with locked := true })
  if (s.leg (s.legOf x)).state = .acquire then s.tryTune (s.legOf x) else s

/-- R35, R124: a lock loss: from TUNE and CARRYING the leg enters ACQUIRE and the loss is counted. -/
def State.unlockEvent (s : State) (x : LaneSide) : State :=
  let l := s.legOf x
  let s := s.modLane x (fun v => { v with locked := false })
  let lost (s : State) : State :=
    (((s.modLane x (fun v => { v with counters := { v.counters with
        lockLosses := countUp Config.laneCounterMax v.counters.lockLosses } })).abandonSessions l).leaveCarrying
      l).enterAcquire l
  match (s.leg l).state with
  | .tune => lost s
  | .carrying => lost s
  | _ => s

/-- R33: expiry of the lock timer. -/
def State.lockTimerExpire (s : State) (l : LegId) : State :=
  let s := s.modLeg l (fun g => { g with attempts := g.attempts + 1, cause := .lockTimeout, lockTimer := none })
  if (s.leg l).attempts < (s.leg l).setup.attemptLimit then
    s.modLeg l (fun g => { g with lockTimer := some (g.setup.lockTimeout * 1000) })
  else s.giveUp l

/-! ### Tasks executed against the leg controller (R26, R28, R40) -/

/-- R26, R172: the leg takes intent 1, attempt count 0 and given-up 0. -/
def State.takeIntent (s : State) (l : LegId) : State :=
  s.modLeg l (fun g => { g with intent := true, attempts := 0, givenUp := false })

/-- R28: LEG_PARK at the leg controller: intent 0; a leg not PARKED parks and reports "parked by task". -/
def State.parkByTask (s : State) (l : LegId) : State :=
  let s := s.modLeg l (fun g => { g with intent := false })
  if (s.leg l).state = .parked then s else (s.parkLeg l).reportOutcome l .superseded

/-- R29: LOW effective power at the leg controller: intent kept, "parked by power" reported. -/
def State.parkByPower (s : State) (l : LegId) : State :=
  if (s.leg l).state = .parked then s else (s.parkLeg l).reportOutcome l .superseded

/-- R40: LEG_RETUNE on a CARRYING leg. -/
def State.retune (s : State) (l : LegId) (named : List Side) : State :=
  (s.leaveCarrying l).enterTune l .retune named

end Sys2Proof.Machine
end

