-- ==== Sys2Proof/Machine/Exchange.lean ====
section
/-! DEFINITION. The tuning exchange on one lane side (Section 3): the frames a tuner sends and the handling of a received
frame. -/

namespace Sys2Proof.Machine

/-- R25, R49: the leg states in which a lane tuner generates frames. -/
def LegState.generates : LegState → Bool
  | .dark => true
  | .acquire => true
  | .tune => true
  | _ => false

/-- R25, R50: what the frame formed on a lane side says: in TUNE the tuner's record, in DARK and ACQUIRE no request, no
reply, CONTENT clear; always the present taps and the own session mark. -/
def State.frameFields (s : State) (x : LaneSide) : FrameFields :=
  let v := s.lane x
  if (s.leg (s.legOf x)).state = .tune then
    match v.tuner.outstanding with
    | some r =>
      { reqTag := r.tag, reqKind := r.kind.fields.1, reqTap := r.kind.fields.2.1, reqArg := r.kind.fields.2.2,
        reply := v.tuner.reply, content := v.tuner.content, taps := v.taps, mark := v.tuner.ownMark }
    | none =>
      { reqTag := 0, reqKind := 0, reqTap := 0, reqArg := 0, reply := v.tuner.reply, content := v.tuner.content,
        taps := v.taps, mark := v.tuner.ownMark }
  else
    { reqTag := 0, reqKind := 0, reqTap := 0, reqArg := 0, reply := ⟨0, .none⟩, content := false, taps := v.taps,
      mark := v.tuner.ownMark }

/-- R49, R50, R6: the tuner forms a frame; the transmitter sends it, at its polarity, when its observed transmit state
is FRAMES. -/
def State.formFrame (s : State) (x : LaneSide) : State :=
  let bytes := s.throughPolarity x (s.frameFields x).bytes
  let sent := decide (s.transmit x = .frames)
  s.modLane x (fun v => { v with frame := some ⟨bytes, sent⟩ })

/-- R63: a frame formed now is sent and carries the outstanding request, and the leg's limit is finite: the wait count
it brings the request to. -/
def State.nextWait (s : State) (x : LaneSide) : Option (Nat × Nat) :=
  match (s.lane x).tuner.outstanding, (s.leg (s.legOf x)).setup.requestWait.limit with
  | some _, some limit =>
    if (s.leg (s.legOf x)).state = .tune ∧ s.transmit x = .frames then some ((s.lane x).tuner.waitCount + 1, limit)
    else none
  | _, _ => none

/-- R49, R63: one frame period: the frame is formed, the wait count of a request it carries advances, and at the limit
the request has timed out and the session fails with NO_REPLY (R68). -/
def State.framePeriod (s : State) (x : LaneSide) : State :=
  match s.nextWait x with
  | none => s.formFrame x
  | some (count, limit) =>
    let s := (s.formFrame x).modTuner x (fun t => { t with waitCount := count })
    if limit ≤ count ∧ ((s.leg (s.legOf x)).side x.side).session = .running then
      s.sessionFailed (s.legOf x) x.side .noReply
    else s

/-! ### A received frame (R51 to R66) -/

/-- R52, R73: a bad frame is counted. -/
def State.badFrame (s : State) (x : LaneSide) : State :=
  s.modLane x (fun v => { v with counters := { v.counters with
    badFrames := countUp Config.laneCounterMax v.counters.badFrames } })

/-- R56: the session mark of a good frame. -/
def Tuner.takeMark (t : Tuner) (mark : Byte) : Tuner :=
  match t.partnerMark with
  | none => { t with partnerMark := some mark }
  | some m =>
    if m = mark then t
    else { t with partnerMark := some mark, lastAnswered := none, reply := ⟨0, .none⟩, hold := 0 }

/-- R59: the outcome of a new request and the triple after it: FROZEN when AGREED, else by the arithmetic. -/
def LaneState.answer (v : LaneState) (g : Setup) (f : RxFrame) : ReplyOutcome × Taps :=
  if v.tuner.phase = .agreed then (.frozen, v.taps) else answerRequest g.budget g.rate v.taps f

/-- R58, R74: the responder takes a request: a repetition changes nothing; a new one is handled, answered and
counted. -/
def LaneState.respond (v : LaneState) (g : Setup) (f : RxFrame) : LaneState :=
  if f.reqKind = 0 ∨ v.tuner.lastAnswered = some f.reqTag then v
  else
    { v with taps := (v.answer g f).2
             tuner := { v.tuner with reply := ⟨f.reqTag, (v.answer g f).1⟩, lastAnswered := some f.reqTag }
             counters := { v.counters with
               requestsAnswered := countUp Config.laneCounterMax v.counters.requestsAnswered } }

/-- R62: the outcome of the reply to the outstanding request that a good frame holds, if it holds one. -/
def Tuner.replyIn (t : Tuner) (f : RxFrame) : Option ReplyOutcome :=
  match t.outstanding, f.outcome with
  | some r, some o => if f.repTag = r.tag ∧ o ≠ .none then some o else none
  | _, _ => none

/-- R62: the requester takes a reply, and the climb acts on it. -/
def State.takeReply (s : State) (x : LaneSide) (f : RxFrame) : State :=
  match (s.lane x).tuner.replyIn f with
  | none => s
  | some o =>
    (s.modTuner x (fun t => { t with outstanding := none, nextTag := t.nextTag + 1 })).climbReply x o

/-- R65, R66: the agreement hold counts in HOLDING; at 16 the lane side is AGREED. -/
def Tuner.countHold (t : Tuner) (content : Bool) : Tuner :=
  if t.phase = .holding then
    if content then
      { t with hold := t.hold + 1, phase := if Config.agreementFrames ≤ t.hold + 1 then .agreed else .holding }
    else { t with hold := 0 }
  else t

/-- R67: every member lane side of the side is AGREED. -/
def State.sideAgreed (s : State) (l : LegId) (side : Side) : Bool :=
  (s.memberSides l side).all (fun x => (s.lane x).tuner.phase = .agreed)

/-- R57, step 4, and R67: the hold is updated, and when the last lane side of a running session agrees the session is
DONE. -/
def State.takeAgreement (s : State) (x : LaneSide) (content : Bool) : State :=
  let s := s.modTuner x (fun t => t.countHold content)
  let l := s.legOf x
  if ((s.leg l).side x.side).session = .running ∧ s.sideAgreed l x.side then s.sessionDone l x.side else s

/-- R57: the handling of a good frame: mark, request, reply, agreement. -/
def State.goodFrame (s : State) (x : LaneSide) (f : RxFrame) : State :=
  let g := (s.leg (s.legOf x)).setup
  (((s.modTuner x (fun t => t.takeMark f.mark)).modLane x (fun v => v.respond g f)).takeReply x f).takeAgreement x
    f.content

/-- R51, R6: a frame as it stands at the pins, after the polarity stage. -/
def State.afterPolarity (s : State) (x : LaneSide) (frame : Vector Byte 8) : Vector Byte 8 :=
  mapVector (applyPolarity (s.polarity x)) frame

/-- R51: a frame that a locked receiver delivers in TUNE is checked, and handled or counted as bad. -/
def State.receiveFrame (s : State) (x : LaneSide) (frame : Vector Byte 8) : State :=
  let bytes := s.afterPolarity x frame
  if frameGood bytes then s.goodFrame x (decodeFrame bytes) else s.badFrame x

end Sys2Proof.Machine
end

