-- ==== Sys2Proof/Machine/Tasks.lean ====
section
/-! DEFINITION. The task kinds of the leg queues, and REMAP: their argument checks (R147) and what each does when its engine
executes it (Sections 1.8, 2, 4.7, 6, 8.7). An executed task has left its queue. -/

namespace Sys2Proof.Machine

/-! ### LEG_SETUP (R157) -/

/-- R79: a change of rate class brings the triples of the leg's transmitters into range. -/
def State.adjustRate (s : State) (l : LegId) (rate : RateClass) : State :=
  if (s.leg l).setup.rate = rate then s
  else s.modLanes (s.allMemberSides l) (fun v => { v with taps := v.taps.forRate rate })

/-- R157: LEG_SETUP executed with its decoded values. -/
def State.runLegSetup (s : State) (l : LegId) (e : Entry) : State :=
  match decodeSetup (s.arg e) with
  | none => s.endTask e [] .badArgument
  | some v =>
    if (s.leg l).state ≠ .parked then s.endTask e [] .wrongState
    else
      ((s.adjustRate l v.rate).modLeg l (fun g => { g with setup := v })).endTask e
        (v.bytes ++ [flagByte (setupAdjusted (s.arg e) v)]) .ok

/-! ### LEG_START, LEG_PARK, LEG_RETUNE (R26, R28, R40, R158, R159) -/

/-- R155: an awaited bring-up task enters the in-flight set; a posted one finishes OK at its launch (R144). -/
def State.launch (s : State) (l : LegId) (e : Entry) : State :=
  if e.awaited then s.modEngine l (fun g => { g with inFlight := some e.slot }) else s.endTask e [] .ok

/-- Table 2-4: LEG_START executed. -/
def State.runLegStart (s : State) (l : LegId) (e : Entry) : State :=
  if (s.leg l).state ≠ .parked then s.endTask e (s.leg l).bringUpResult .already
  else if !s.allCarry l then s.endTask e [] .wrongState
  else if s.effective = .active then ((s.takeIntent l).launch l e).enterDark l
  else
    let s := s.takeIntent l
    s.endTask e (s.leg l).bringUpResult .heldLow

/-- R28, R158: LEG_PARK executed. -/
def State.runLegPark (s : State) (l : LegId) (e : Entry) : State :=
  (s.parkByTask l).endTask e [(s.leg l).state.code] .ok

/-- R40, R159: LEG_RETUNE executed on a CARRYING leg; in any other state it waits. -/
def State.runLegRetune (s : State) (l : LegId) (e : Entry) : Option State :=
  match decodeSides (s.arg e 0) with
  | none => some (s.endTask e [] .badArgument)
  | some named => if (s.leg l).state = .carrying then some ((s.retune l named).launch l e) else none

/-! ### LANE_FUNCTION (R20) and the mask window (R18) -/

/-- R18: a lane side is masked: a stopped mask timer starts with the present qualified presence as start value; a
running one restarts and keeps its start value. -/
def LaneState.startMask (v : LaneState) : LaneState :=
  { v with mask := ⟨some Config.maskTime, if v.mask.timer.isNone then v.presence.qualified else v.mask.start⟩ }

/-- R18: a change of the entry of line lane i masks the line lane and its source after the change. -/
def State.maskPair (s : State) (i : LaneId) : State :=
  s.modLanes [s.sideOf i .line, s.sideOf i .switch] LaneState.startMask

/-- R20, step 4: a function is set; the function the entry already has is no change. -/
def State.setFunction (s : State) (i : LaneId) (f : LaneFunction) : State :=
  if (s.entry i).function = f then s
  else { s with map := s.map.set i { s.entry i with function := f } }.maskPair i

/-- A line lane argument that names a member of the leg (R20, R89, R117). -/
def State.memberArg (s : State) (l : LegId) (b : Byte) : Option LaneId :=
  (decodeFin 8 b).bind (fun i => if legOfLine s.straps.profile i = l then some i else none)

/-- R20: LANE_FUNCTION executed. -/
def State.runLaneFunction (s : State) (l : LegId) (e : Entry) : State :=
  match s.memberArg l (s.arg e 0), decodeFunction (s.arg e 1) with
  | some i, some f =>
    if (s.leg l).state ≠ .parked then s.endTask e [] .wrongState
    else if f ≠ .carry ∧ (s.leg l).intent then s.endTask e [] .wrongState
    else (s.setFunction i f).endTask e [(s.entry i).function.code, f.code] .ok
  | _, _ => s.endTask e [] .badArgument

/-! ### SET_TAPS (R89 to R93) -/

/-- R89, R93: SET_TAPS executed on a PARKED or CARRYING leg; in any other state it waits. -/
def State.runSetTaps (s : State) (l : LegId) (e : Entry) : Option State :=
  match decodeSide (s.arg e 0), s.memberArg l (s.arg e 1) with
  | some side, some i =>
    if (s.leg l).state = .parked ∨ (s.leg l).state = .carrying then
      let wanted : Taps := ⟨(s.arg e 2).toInt, (s.arg e 3).toInt, (s.arg e 4).toInt⟩
      let loaded := saturate (s.leg l).setup.rate wanted
      let x := s.sideOf i side
      some ((s.modLane x (fun v => { v with taps := loaded })).endTask e
        ((s.lane x).taps.bytes ++ loaded.bytes ++ [flagByte (decide (loaded ≠ wanted))]) .ok)
    else none
  | _, _ => some (s.endTask e [] .badArgument)

/-! ### EYE_SCAN (R117, R118) -/

/-- R118: the scan starts in a FREE page, in one action. -/
def State.startScan (s : State) (l : LegId) (slot : SlotId) (p : PageId) (side : Side) (i : LaneId) (dwell : Nat) :
    State :=
  ({ s with mem := s.mem.clear (pageBase p + 0x200) 0x200 }.modPage p (fun _ =>
    { state := .busy slot (dwell * 1000), leg := l, side := side, lane := i, dwell := dwell, cellsDone := 0,
      outcome := .none })).modLane (s.sideOf i side) (fun v => { v with monitor := .scanning })

/-- R117, R118: EYE_SCAN executed on a CARRYING leg whose monitor is not SCANNING; otherwise it waits. One that completes
PAGE_BUSY leaves its result area as its take cleared it (notes/assumptions/35.md). -/
def State.runEyeScan (s : State) (l : LegId) (e : Entry) : Option State :=
  match decodeSide (s.arg e 0), s.memberArg l (s.arg e 1), decodeFin 4 (s.arg e 2), decodeDwell (s.arg e 3) with
  | some side, some i, some p, some dwell =>
    if (s.leg l).state = .carrying ∧ (s.lane (s.sideOf i side)).monitor ≠ .scanning then
      if (s.page p).state = .free then some (s.startScan l e.slot p side i dwell)
      else some (s.endTask e [] .pageBusy)
    else none
  | _, _, _, _ => some (s.endTask e [] .badArgument)

/-! ### SNAPSHOT (R126, R127) -/

/-- Table 11-7a: one lane record. -/
def LaneCounters.bytes (c : LaneCounters) : List Byte :=
  bytes32 c.presenceDrops ++ bytes32 c.lockLosses ++ bytes32 c.badFrames ++ bytes32 c.requestsAnswered

/-- R126, R127: SNAPSHOT executed: the counters copied in one action and, with clear-after, cleared in it. -/
def State.runSnapshot (s : State) (l : LegId) (e : Entry) : State :=
  match decodeSide (s.arg e 0), decodeFlag (s.arg e 1) with
  | some side, some clearAfter =>
    let xs := s.memberSides l side
    let copied := xs.flatMap (fun x => (s.lane x).counters.bytes)
    let s := if clearAfter then s.modLanes xs (fun v => { v with counters := ⟨0, 0, 0, 0⟩ }) else s
    s.endTask e copied .ok
  | _, _ => s.endTask e [] .badArgument

/-! ### REMAP (R21) -/

/-- R21, step 1: eight source bytes that are a permutation of 0..7. -/
def isPermutation (sources : List Byte) : Bool :=
  allLanes.all (fun i => sources.any (fun b => b.toNat = i.val)) && sources.all (fun b => decide (b.toNat < 8))

/-- The polarity an inversion mask gives line lane i: a set bit means INVERTED (Table 11-7). -/
def maskPolarity (mask : Byte) (i : LaneId) : Polarity := if mask.getLsbD i.val then .inverted else .normal

/-- The entry of line lane i under the arguments of a REMAP; the function is kept. -/
def remapEntry (old : MapEntry) (source switchMask lineMask : Byte) (i : LaneId) : MapEntry :=
  { source := Fin.ofNat 8 source.toNat, switchPolarity := maskPolarity switchMask i,
    linePolarity := maskPolarity lineMask i, function := old.function }

/-- The map a REMAP asks for. -/
def State.remapped (s : State) (e : Entry) : Vector MapEntry 8 :=
  Vector.ofFn (fun i => remapEntry s.map[i] (s.arg e i.val) (s.arg e 8) (s.arg e 9) i)

/-- R21, step 2: the changed line lanes. -/
def State.changedLanes (s : State) (map : Vector MapEntry 8) : List LaneId :=
  allLanes.filter (fun i => s.map[i] ≠ map[i])

/-- R80: a switch lane that a new map moves into an RC-A leg has its PRE set to 0. -/
def State.moveSwitchLane (old s : State) (sw : LaneId) : State :=
  let x : LaneSide := ⟨.switch, sw⟩
  if old.legOf x = s.legOf x then s else s.modLane x (fun v => { v with taps := v.taps.forRate (s.rateOf x) })

/-- R21, step 3: a new map applied in one action: the crossbar and membership follow, switch lanes that move to
another leg take its rate class (R80), and the changed lanes are masked (R18). -/
def State.applyMap (s : State) (map : Vector MapEntry 8) : State :=
  let changed := s.changedLanes map
  let s' := allLanes.foldl (fun t sw => State.moveSwitchLane s t sw) { s with map := map }
  changed.foldl (fun t i => t.maskPair i) s'

/-- The bits of a list of line lanes (Table 11-7). -/
def lanesMask (is : List LaneId) : BitVec 8 := is.foldl (fun m i => m ||| laneBit i) 0

/-- R21: REMAP executed. -/
def State.runRemap (s : State) (e : Entry) : State :=
  if isPermutation ((List.range 8).map (s.arg e)) then
    let map := s.remapped e
    let changed := s.changedLanes map
    if changed.all (fun i => (s.leg (legOfLine s.straps.profile i)).state = .parked) then
      (s.applyMap map).endTask e [lanesMask changed, BitVec.ofNat 8 changed.length] .ok
    else s.endTask e [] .wrongState
  else s.endTask e [] .badArgument

/-! ### Argument checks and execution (R146, R147) -/

/-- R147: the patience code, for every kind; a kind's arguments are checked as its execution reads them. -/
def Entry.patienceGood (e : Entry) : Bool := decide (e.patience.toNat ≤ 3)

/-- R146, Table 8-1: a leg task is executed or refused, or, none, its kind waits. -/
def State.runLegTask (s : State) (l : LegId) (e : Entry) : Option State :=
  if !e.patienceGood then some (s.endTask e [] .badArgument)
  else match e.kind with
    | .legSetup => some (s.runLegSetup l e)
    | .legStart => some (s.runLegStart l e)
    | .legPark => some (s.runLegPark l e)
    | .legRetune => s.runLegRetune l e
    | .laneFunction => some (s.runLaneFunction l e)
    | .setTaps => s.runSetTaps l e
    | .eyeScan => s.runEyeScan l e
    | .snapshot => some (s.runSnapshot l e)
    | .remap => some s
    | .power => some s

end Sys2Proof.Machine
end

