-- ==== Sys2Proof/Machine/Queues.lean ====
section
/-! DEFINITION. The leg queues (Section 8): examination, deferral, patience, passing, the passing LEG_PARK, and
cancellation. -/

namespace Sys2Proof.Machine

/-- The list without its element at a place. -/
def dropAt {α : Type} (q : List α) (k : Nat) : List α := q.take k ++ q.drop (k + 1)

/-- R148: the patience a code gives, in µs; none is unlimited. -/
def patienceTime (code : Byte) : Option Nat :=
  match code.toNat with
  | 0 => some 1000000
  | 1 => some 5000000
  | 2 => some 30000000
  | _ => none

/-- R148: an entry is deferred; its patience clock starts at its first deferral. -/
def Entry.deferEntry (e : Entry) : Entry :=
  if e.deferred then e else { e with deferred := true, clock := patienceTime e.patience }

/-- The entry at a place of a leg queue is deferred. -/
def State.deferAt (s : State) (l : LegId) (k : Nat) : State :=
  s.setQueue l ((s.engine l).queue.modify k Entry.deferEntry)

/-- R146: the entry at a place of a leg queue is executed or refused and leaves the queue, or, none, its kind waits. -/
def State.attemptAt (s : State) (l : LegId) (k : Nat) (e : Entry) : Option State :=
  (s.setQueue l (dropAt (s.engine l).queue k)).runLegTask l e

/-- R150: the pass over the entries behind a deferred awaited head, at most `fuel` of them leaving. Each entry that the
pass executes or refuses leaves, so that the entry it considers next stands behind the head. -/
def State.passEntries (l : LegId) : Nat → State → State
  | 0, s => s
  | fuel + 1, s =>
    match (s.engine l).queue with
    | head :: e :: _ =>
      if head.awaited && (s.leg l).setup.passing && !e.awaited && e.kind ≠ .legPark then
        match s.attemptAt l 1 e with
        | some s' => passEntries l fuel s'
        | none => s.deferAt l 1
      else s
    | _ => s

/-- The place of the first LEG_PARK of a queue. -/
def parkPlace (q : List Entry) : Option Nat := q.findIdx? (fun e => e.kind = .legPark)

/-- The result of an awaited task that completes SUPERSEDED in the queue of a leg: a LEG_START's items as the leg stands
(R158); of any other kind none, its result area left as its take cleared it (notes/assumptions/32.md). -/
def State.supersededResult (s : State) (l : LegId) (e : Entry) : List Byte :=
  if e.kind = .legStart then (s.leg l).bringUpResult else []

/-- R152, R154: the awaited ones among entries that left the queue of a leg complete with SUPERSEDED. -/
def State.supersedeAwaited (s : State) (l : LegId) (es : List Entry) : State :=
  (es.filter (fun e => e.awaited)).foldl (fun s e => s.endTask e (s.supersededResult l e) .superseded) s

/-- R152, R154: the posted ones complete with SUPERSEDED; their faults are reported in a free order (R168). -/
def State.supersedePosted (s : State) (es : List Entry) : State :=
  let posted := es.filter (fun e => !e.awaited)
  let s := (arrange s.freeCount posted).foldl (fun s e => s.endTask e [] .superseded) s
  { s with freeCount := s.freeCount + posted.length }

/-- R152, R158: with the head deferred, the first LEG_PARK of the queue is refused, or passes the entries ahead of it: it
is executed, and they complete SUPERSEDED in the state that the park leaves. None when there is no LEG_PARK. -/
def State.passPark (s : State) (l : LegId) : Option State :=
  match parkPlace (s.engine l).queue with
  | none => none
  | some k =>
    match (s.engine l).queue[k]? with
    | none => none
    | some e =>
      if e.patienceGood then
        let ahead := (s.engine l).queue.take k
        let s := (s.setQueue l ((s.engine l).queue.drop (k + 1))).runLegPark l e
        some ((s.supersedeAwaited l ahead).supersedePosted ahead)
      else some ((s.setQueue l (dropAt (s.engine l).queue k)).endTask e [] .badArgument)

/-- R146: an examination of a leg queue: the head is executed or refused and the next examined, until the queue is
empty or the head is deferred; then the pass of R150 and the LEG_PARK of R152. Each round but the last removes an
entry, so one more round than the queue has entries is enough. -/
def State.examineRounds (l : LegId) : Nat → State → State
  | 0, s => s
  | fuel + 1, s =>
    match (s.engine l).queue with
    | [] => s
    | e :: _ =>
      match s.attemptAt l 0 e with
      | some s' => examineRounds l fuel s'
      | none =>
        let s := s.deferAt l 0
        let s := s.passEntries l (s.engine l).queue.length
        match s.passPark l with
        | some s' => examineRounds l fuel s'
        | none => s

/-- R146: the leg engine examines its queue. -/
def State.examineLeg (s : State) (l : LegId) : State := s.examineRounds l ((s.engine l).queue.length + 1)

/-- The engines with queued work examine their queues at one event; the queues carry no order between them (R146), so
several act in a free order. -/
def State.examineLegs (s : State) : State :=
  let busy := allLegs.filter (fun l => !(s.engine l).queue.isEmpty)
  let order := arrange s.freeCount busy
  order.foldl (fun s l => s.examineLeg l) { s with freeCount := s.freeCount + busy.length }

/-- R154: at LOW effective power every deferred entry of every leg queue completes with SUPERSEDED. -/
def State.supersedeDeferred (s : State) : State :=
  let gone := fun l => (s.engine l).queue.filter (fun e => e.deferred)
  let kept := fun l => (s.engine l).queue.filter (fun e => !e.deferred)
  (allLegs.foldl (fun t l => (t.setQueue l (kept l)).supersedeAwaited l (gone l)) s).supersedePosted
    (allLegs.flatMap gone)

/-- R149: the entry at a place whose patience clock can expire: deferred, its clock running. -/
def State.waitingEntry (s : State) (l : LegId) (k : Nat) : Option Entry :=
  (s.engine l).queue[k]?.bind (fun e => if e.deferred && e.clock.isSome then some e else none)

/-- R149: the deferred entry at a place completes with GAVE_UP and leaves, an awaited one's result area left as its take
cleared it (notes/assumptions/32.md), and the queue is examined. -/
def State.giveUpEntry (s : State) (l : LegId) (k : Nat) (e : Entry) : State :=
  ((s.setQueue l (dropAt (s.engine l).queue k)).endTask e [] .gaveUp).examineLeg l

/-! ### Cancellation (R156) -/

/-- The place of the awaited entry of a slot in a queue. -/
def awaitedPlace (n : SlotId) (q : List Entry) : Option Nat := q.findIdx? (fun e => e.awaited && e.slot = n)

/-- R156: the leg engine takes a cancel: a queued entry completes CANCELLED and the queue is examined; a task in the
in-flight set completes CANCELLED and leaves the set. -/
def State.cancelInLeg (s : State) (n : SlotId) (l : LegId) : State :=
  match awaitedPlace n (s.engine l).queue with
  | some k => ((s.setQueue l (dropAt (s.engine l).queue k)).endAwaited n [] .cancelled).examineLeg l
  | none =>
    if (s.engine l).inFlight = some n then
      (s.modEngine l (fun e => { e with inFlight := none })).endAwaited n [] .cancelled
    else s

/-- The leg whose engine holds the awaited task of a slot. -/
def State.holdingLeg (s : State) (n : SlotId) : Option LegId :=
  allLegs.find? (fun l => (awaitedPlace n (s.engine l).queue).isSome || (s.engine l).inFlight = some n)

/-- R156: a cancel that acts on a TAKEN slot: the cancel-asked flag, and the end that the task's place gives. A running
eye scan ends at its next cell (R122). -/
def State.takeCancel (s : State) (n : SlotId) : State :=
  let s := s.modSlot n (fun c => { c with cancelAsked := true })
  match s.holdingLeg n with
  | some l => s.cancelInLeg n l
  | none =>
    if n ∈ s.powerWait then
      { s with powerWait := s.powerWait.filter (fun m => m ≠ n) }.endAwaited n [] .cancelled
    else s

end Sys2Proof.Machine
end

