-- ==== Sys2Proof/Machine/PowerUnit.lean ====
section
/-! DEFINITION. Effective power (Section 10.3), the device queue's tasks, start-up and RESET_L (Sections 10.1, 10.2). -/

namespace Sys2Proof.Machine

/-! ### Effective power -/

/-- R160: the result of a POWER task. -/
def State.powerResult (s : State) : List Byte := [s.requested.code, s.effective.code]

/-- R160: the tasks of the power wait list finish together with a status. -/
def State.finishPowerWait (s : State) (st : Status) : State :=
  s.powerWait.foldl (fun t n => t.endAwaited n s.powerResult st) { s with powerWait := [] }

/-- R174: effective power becomes LOW, from ACTIVE or RISING: the rise timer stopped, every receiver UNLOCKED (R1), the
legs parked with intent kept (R29) and their scans interrupted, deferred entries superseded and the queues examined
(R154), the power wait list finished, and the power notice. -/
def State.powerLow (s : State) (waitStatus : Status) : State :=
  let s := { s with effective := .low, riseTimer := none }.modAllLanes (fun v => { v with locked := false })
  let s := allLegs.foldl (fun s l => s.parkByPower l) s
  ((s.supersedeDeferred.finishPowerWait waitStatus).raise powerBit).examineLegs

/-- R175: with LOWPWR released and ACTIVE requested, LOW moves to RISING and the rise timer starts. -/
def State.tryRise (s : State) : State :=
  if s.effective = .low ∧ ¬ s.lowpwr ∧ s.requested = .active then
    { s with effective := .rising, riseTimer := some Config.riseTime }.examineLegs
  else s

/-- R30: at rise completion a PARKED leg with intent 1 enters DARK with attempt count 0. -/
def State.riseLeg (s : State) (l : LegId) : State :=
  if s.used l ∧ (s.leg l).state = .parked ∧ (s.leg l).intent then
    (s.modLeg l (fun g => { g with attempts := 0 })).enterDark l
  else s

/-- R175: the rise completion. -/
def State.completeRise (s : State) : State :=
  let s := { s with effective := .active, riseTimer := none }.raise powerBit
  ((allLegs.foldl (fun s l => s.riseLeg l) s).finishPowerWait .ok).examineLegs

/-! ### The device queue (R153, R160) -/

/-- R160: POWER executed. -/
def State.runPower (s : State) (e : Entry) : State :=
  match decodePower (s.arg e 0) with
  | none => s.endTask e [] .badArgument
  | some .low =>
    let s := { s with requested := .low }
    let s := if s.effective = .low then s else s.powerLow .superseded
    s.endTask e s.powerResult .ok
  | some .active =>
    let s := { s with requested := .active }
    if s.effective = .active then s.endTask e s.powerResult .ok
    else if s.lowpwr then s.endTask e s.powerResult .heldLow
    else
      let s := s.tryRise
      if e.awaited then { s with powerWait := s.powerWait ++ [e.slot] } else s.endTask e [] .ok

/-- R146, R147: a task of the device queue is executed or refused. -/
def State.runDeviceTask (s : State) (e : Entry) : State :=
  if !e.patienceGood then s.endTask e [] .badArgument
  else if e.kind = .remap then s.runRemap e
  else s.runPower e

/-- R153: the device engine executes its entries in order; none is ever deferred. -/
def State.examineDeviceRounds : Nat → State → State
  | 0, s => s
  | fuel + 1, s =>
    match s.deviceQueue with
    | [] => s
    | e :: q => examineDeviceRounds fuel ({ s with deviceQueue := q }.runDeviceTask e)

/-- R146, R153: the device engine examines its queue. -/
def State.examineDevice (s : State) : State := s.examineDeviceRounds s.deviceQueue.length

/-! ### Start-up and RESET_L (R171, R172, R173) -/

/-- The raw detects given as one bit for each lane of a side. -/
def withDetects (detects : BitVec 8) : Vector LaneState 8 :=
  Vector.ofFn (fun i => { LaneState.reset with presence := ⟨detects.getLsbD i.val, false, none⟩ })

/-- R15: qualification starts at once: the timer of a receiver with a signal already arriving runs. -/
def LaneState.startQualifying (v : LaneState) : LaneState :=
  if v.presence.raw then { v with presence := { v.presence with timer := some Config.presentTime } } else v

/-- R15, R23, R53, R76, R115: the reset value of a lane side; the raw detect is the detector's present judgment. -/
def LaneState.afterReset (v : LaneState) : LaneState :=
  { LaneState.reset with presence := ⟨v.presence.raw, false, none⟩ }

/-- R171: every piece of state takes its start-up value, the straps are read and the effective power is set from
LOWPWR. The fault log is left as it is: its own rule differs for the two starts (R169). -/
def State.startUp (s : State) (pins : StrapPins) (cause : ResetCause) : State :=
  { s with
    straps := pins, requested := .active, effective := if s.lowpwr then .low else .active, riseTimer := none
    device := .initializing, initTimer := some Config.initTime, resetTimer := none, lastCause := cause
    map := resetMap
    lineSide := mapVector LaneState.afterReset s.lineSide, switchSide := mapVector LaneState.afterReset s.switchSide
    legs := Vector.replicate 4 (Leg.reset (strapRate pins.rate)), engines := Vector.replicate 4 LegEngine.reset
    deviceQueue := [], powerWait := [], handOver := [], owed := []
    slots := Vector.replicate 12 Slot.reset, pages := Vector.replicate 4 Page.reset, mem := []
    summary := if s.faultRecord.isSome then faultBit else 0
    enables := implementedBits, latchedMode := false, holdIntake := false, latchedLine := false, offset := 0
    writeOpen := none, readOpen := none, acknowledged := false, readData := [] }

/-- R171: power-on. While RESET_L is held from power-on the part is stopped until its release (R173). -/
def State.powerUp (s : State) (pins : StrapPins) (lowpwr held : Bool) (lineDetect switchDetect : BitVec 8) : State :=
  let s := { s with
    lowpwr := lowpwr, resetHeld := held, initByPowerOn := true, releaseCause := .powerOn, faultRecord := none
    laterFaults := 0, lineSide := withDetects lineDetect, switchSide := withDetects switchDetect }.startUp pins .powerOn
  if held then { s with initTimer := none } else s.modAllLanes LaneState.startQualifying

/-- R123, R173: the assertion of RESET_L stops a scan; its page takes its reset values with it. -/
def Page.stopScan (c : Page) : Page :=
  match c.state with
  | .busy _ _ => Page.reset
  | _ => c

/-- R115, R123: with a stopped scan its page's cells read 0, as every cell not below cells done does. -/
def State.clearStopped (s : State) (m : Memory) (p : PageId) : Memory :=
  match (s.page p).state with
  | .busy _ _ => m.clear (pageBase p + 0x200) 0x200
  | _ => m

/-- R1, R96, R98, Table 5-2: what the assertion of RESET_L does to a lane side: UNLOCKED, the eye monitor IDLE, the
climb record at its reset values. -/
def LaneState.holdReset (v : LaneState) : LaneState := { v with locked := false, monitor := .idle, climb := Climb.reset }

/-- R173: assertion of RESET_L: receivers UNLOCKED (R1), readings and scans stopped (R98, R123), transactions abandoned
(R129), initialization, exchange reset and rise ended. -/
def State.holdReset (s : State) : State :=
  let cause : ResetCause := if s.device = .initializing ∧ s.initByPowerOn then .powerOn else .resetPin
  { s with
    resetHeld := true, initTimer := none, resetTimer := none, riseTimer := none, writeOpen := none, readOpen := none
    releaseCause := cause, pages := mapVector Page.stopScan s.pages
    mem := allPages.foldl s.clearStopped s.mem
    lineSide := mapVector LaneState.holdReset s.lineSide
    switchSide := mapVector LaneState.holdReset s.switchSide }

/-- R173: release of RESET_L: an initialization begins, the fault log kept. -/
def State.releaseReset (s : State) (pins : StrapPins) : State :=
  ({ s with resetHeld := false, initByPowerOn := false }.startUp pins s.releaseCause).modAllLanes
    LaneState.startQualifying

/-- R172: AUTOSTART at READY for one leg. -/
def State.autostartLeg (s : State) (l : LegId) : State :=
  if s.used l then
    let s := s.takeIntent l
    if s.effective = .active then s.enterDark l else s
  else s

/-- R171, R172: initialization completes: READY, and AUTOSTART if it was strapped. -/
def State.completeInit (s : State) : State :=
  let s := { s with initTimer := none }.becomeReady
  (if s.straps.autostart then allLegs.foldl (fun s l => s.autostartLeg l) s else s).examineLegs

end Sys2Proof.Machine
end

