-- ==== Sys2Proof/Machine/Intake.lean ====
section
/-! DEFINITION. The hand-over order list, the intake, the hand-over byte, scan pages, the cells of a scan, and the exchange
reset (Sections 6, 7.4 to 7.6). -/

namespace Sys2Proof.Machine

/-! ### Intake (R138, R139) -/

/-- R170: the intake examines nothing while hold-intake-on-fault is on and the fault log holds a record. -/
def State.intakeHeld (s : State) : Bool := s.holdIntake && s.faultRecord.isSome

/-- A queue a task can join: a leg's, or the device queue. -/
inductive Target where
  | leg (l : LegId)
  | device
deriving DecidableEq, Repr

/-- R138, checks 1 to 3, on the header of a slot: the kind and target queue, or the status of the refusal. -/
def State.checkSlot (s : State) (n : SlotId) : Except Status (TaskKind × Target) :=
  match taskKind (s.slotByte n 0) with
  | none => .error .unknownKind
  | some k =>
    if s.slotByte n 1 = 1 ∧ !k.postable then .error .notPostable
    else
      let leg := s.slotByte n 2
      if k.device ∧ leg = 0xFF then .ok (k, .device)
      else match decodeFin 4 leg with
        | none => .error .badArgument
        | some l =>
          if !s.used l then .error .badArgument
          else if k.device then .ok (k, .device)
          else .ok (k, .leg l)

/-- The target queue of a slot that passes the checks. -/
def State.targetOf (s : State) (n : SlotId) : Option Target :=
  match s.checkSlot n with
  | .ok (_, t) => some t
  | .error _ => none

/-- R145: the target queue has room. -/
def State.hasRoom (s : State) : Target → Bool
  | .leg l => decide ((s.engine l).queue.length < Config.legQueueCapacity)
  | .device => decide (s.deviceQueue.length < Config.deviceQueueCapacity)

/-- R138, step 4: an older slot still in the list has the same target. -/
def State.olderWaits (s : State) (n : SlotId) (t : Target) : Bool :=
  (s.handOver.takeWhile (fun m => m ≠ n)).any (fun m => s.targetOf m = some t)

/-- R139, R145: the entry a slot makes; a posted entry copies the sixteen argument bytes (Table 11-7). -/
def State.makeEntry (s : State) (n : SlotId) (k : TaskKind) : Entry :=
  let awaited := !(s.slotByte n 1 == 1)
  { kind := k, awaited := awaited, slot := n, kindByte := s.slotByte n 0, leg := s.slotByte n 2,
    patience := s.slotByte n 3, label0 := s.slotByte n 4, label1 := s.slotByte n 5
    args := if awaited then [] else (List.range 0x10).map (fun i => s.slotByte n (0x10 + i))
    deferred := false, clock := none }

/-- R137: a slot leaves the hand-over order list. -/
def State.leaveList (s : State) (n : SlotId) : State := { s with handOver := s.handOver.filter (fun m => m ≠ n) }

/-- R139: the slot's side of a take: an awaited slot becomes TAKEN with status, cancel-asked and result area 0, a posted
one EMPTY; either leaves the list. -/
def State.takeSlot (s : State) (n : SlotId) (awaited : Bool) : State :=
  let s := s.leaveList n
  if awaited then
    { s with mem := s.mem.clear (slotBase n + 0x80) 0x80 }.modSlot n (fun _ => ⟨.taken, .inProgress, false⟩)
  else s.modSlot n (fun c => { c with state := .empty })

/-- R139, R146: a slot is taken: its entry joins the target queue, and that engine examines its queue. -/
def State.takeTask (s : State) (n : SlotId) (k : TaskKind) (t : Target) : State :=
  let e := s.makeEntry n k
  let s := s.takeSlot n e.awaited
  match t with
  | .leg l => (s.setQueue l ((s.engine l).queue ++ [e])).examineLeg l
  | .device => { s with deviceQueue := s.deviceQueue ++ [e] }.examineDevice

/-- R138: a slot is refused at intake: an awaited one becomes DONE with the status, its results cleared; a posted one
becomes EMPTY and the fault is recorded. -/
def State.refuseSlot (s : State) (n : SlotId) (st : Status) : State :=
  let awaited := !(s.slotByte n 1 == 1)
  let s := s.leaveList n
  if awaited then
    (({ s with mem := s.mem.clear (slotBase n + 0x80) 0x80 }.modSlot n
      (fun c => { c with cancelAsked := false })).endAwaited n [] st)
  else
    (s.modSlot n (fun c => { c with state := .empty })).endPosted n (s.slotByte n 0) (s.slotByte n 2) (s.slotByte n 4)
      (s.slotByte n 5) st

/-- R138: the intake considers one slot of the list. -/
def State.considerSlot (s : State) (n : SlotId) : State :=
  match s.checkSlot n with
  | .error st => s.refuseSlot n st
  | .ok (k, t) => if s.olderWaits n t || !s.hasRoom t then s else s.takeTask n k t

/-- R138: a pass over slots of the list, oldest first; it stops when the intake comes to be held. -/
def State.intakePass (s : State) (ns : List SlotId) : State :=
  ns.foldl (fun s n => if s.intakeHeld then s else s.considerSlot n) s

/-- R138: the intake examines the list. A leaving in a pass is itself an event at the intake, so passes follow until one
takes and refuses nothing; each but the last shortens the list. -/
def State.intakeRounds : Nat → State → State
  | 0, s => s
  | fuel + 1, s =>
    if s.intakeHeld then s
    else
      let s' := s.intakePass s.handOver
      if s'.handOver.length < s.handOver.length then intakeRounds fuel s' else s'

/-- R138: an examination of the hand-over order list. -/
def State.intake (s : State) : State := s.intakeRounds (s.handOver.length + 1)

/-! ### Events at the engines and the intake -/

/-- R89, R117: the head of a leg queue is an EYE_SCAN or a SET_TAPS that has waited, and its check would pass now. -/
def State.headCanStart (s : State) (l : LegId) : Bool :=
  match (s.engine l).queue with
  | [] => false
  | e :: _ => e.deferred && (e.kind = .eyeScan || e.kind = .setTaps) && (s.attemptAt l 0 e).isSome

/-- R146, R138: an event at a leg engine, and then at the intake, which examines the list once after that examination,
however many entries left in it (notes/assumptions/34.md). Where the event lets a waiting EYE_SCAN or SET_TAPS at the
head start, that check and another event of the leg may be taken in either order (R117, R89): a free choice makes it
in this event or puts it off (notes/assumptions/37.md). -/
def State.engineEvent (s : State) (l : LegId) : State :=
  if s.headCanStart l then
    let t := { s with freeCount := s.freeCount + 1 }
    if Config.freeChoice s.freeCount % 2 = 1 then t.putOff l else (t.examineLeg l).intake
  else (s.examineLeg l).intake

/-- R117: the checks that were put off are made, the legs in a free order, and then the intake examines the list. -/
def State.makeOwedChecks (s : State) : State :=
  let order := arrange s.freeCount s.owed
  let t := { s with owed := [], freeCount := s.freeCount + s.owed.length }
  (order.foldl (fun (s : State) l => s.examineLeg l) t).intake

/-- R146: after an event of one leg: if its state changed, that is an event at its engine. -/
def State.afterLegEvent (s before : State) (l : LegId) : State :=
  if (s.leg l).state = (before.leg l).state then s else s.engineEvent l

/-! ### The hand-over byte (R136) -/

/-- R136, Table 7-3: a host write to a hand-over byte acts. -/
def State.writeHandOver (s : State) (n : SlotId) (v : Byte) : State :=
  if s.device = .exchangeResetting then s
  else match (s.slot n).state, v.toNat with
    | .empty, 0x01 => ({ s with handOver := s.handOver ++ [n] }.modSlot n (fun c => { c with state := .filled })).intake
    | .filled, 0x00 => (s.leaveList n).modSlot n (fun c => { c with state := .empty })
    | .taken, 0x0C => if (s.slot n).cancelAsked then s else (s.takeCancel n).intake
    | .done, 0x00 => (s.modSlot n (fun c => { c with state := .empty })).lower (slotBit n)
    | .empty, 0x00 => s
    | .taken, 0x00 => s
    | .done, 0x0C => s
    | _, _ => s.slotMisuse n v

/-! ### Scan pages (R116, R120, R122) -/

/-- R116: a host write to a page's state byte acts. -/
def State.writePage (s : State) (p : PageId) (v : Byte) : State :=
  if s.device = .exchangeResetting then s
  else if v ≠ 0 then s.pageMisuse p v
  else match (s.page p).state with
    | .held => { s with mem := s.mem.clear (pageBase p + 0x200) 0x200 }.modPage p (fun _ => Page.reset)
    | .free => s
    | .busy _ _ => s.pageMisuse p v

/-- R120, R122: a cell of a running scan completes: the count, at most 255, and cells done are written; then a cancel
asked ends the scan CANCELLED, the last cell ends it COMPLETE, or the next cell begins. An end is an event at the leg
engine (R146). -/
def State.completeCell (s : State) (p : PageId) (slot : SlotId) (errors : Nat) : State :=
  let c := s.page p
  let count : Byte := BitVec.ofNat 8 (if 255 < errors then 255 else errors)
  let s := { s with mem := s.mem.write (pageBase p + 0x200 + c.cellsDone) count }.modPage p (fun c =>
    { c with cellsDone := c.cellsDone + 1, state := .busy slot (c.dwell * 1000) })
  if (s.slot slot).cancelAsked then (s.endScan p slot .cancelled .cancelled).engineEvent c.leg
  else if Config.scanCells ≤ (s.page p).cellsDone then (s.endScan p slot .complete .ok).engineEvent c.leg
  else s

/-! ### Exchange control and the exchange reset (R142, R143) -/

/-- R123: an eye monitor that was SCANNING becomes IDLE. -/
def Monitor.stopScan : Monitor → Monitor
  | .scanning => .idle
  | m => m

/-- R142: the hand-over byte reads EMPTY. -/
def Slot.vacate (c : Slot) : Slot := { c with state := .empty }

/-- R123, R142: the page's state reads FREE. -/
def Page.vacate (c : Page) : Page := { c with state := .free }

/-- R142: the start of an exchange reset. -/
def State.startExchangeReset (s : State) : State :=
  { s with
    device := .exchangeResetting, resetTimer := some Config.exchangeResetTime
    engines := Vector.replicate 4 LegEngine.reset, deviceQueue := [], powerWait := [], handOver := [], owed := []
    slots := mapVector Slot.vacate s.slots, pages := mapVector Page.vacate s.pages
    summary := 0, latchedLine := false, faultRecord := none, laterFaults := 0 }.modAllLanes
    (fun v => { v with monitor := v.monitor.stopScan })

/-- R143: the completion of an exchange reset: every slot and page byte reads 0, and the device state becomes READY. -/
def State.completeExchangeReset (s : State) : State :=
  { s with
    resetTimer := none, slots := Vector.replicate 12 Slot.reset, pages := Vector.replicate 4 Page.reset
    mem := [] }.becomeReady

/-- R142, R166, R167: a mode written; a change to LATCHED with an enabled bit set asserts the latched state, a change to
LEVEL discards it. -/
def State.setMode (s : State) (latched : Bool) : State :=
  if s.latchedMode = latched then s
  else { s with latchedMode := latched, latchedLine := latched && (s.summary &&& s.enables) != 0 }

/-- R142, R170: a host write of exchange control acts: the mode, hold-intake-on-fault, the trigger at READY, and the
examination that turning hold-intake-on-fault off calls for (notes/assumptions/13.md). -/
def State.writeControl (s : State) (v : Byte) : State :=
  let turnedOff := s.holdIntake && !v.getLsbD 1
  let s : State := { s.setMode (v.getLsbD 0) with holdIntake := v.getLsbD 1 }
  let s := if v.getLsbD 7 = true ∧ s.device = .ready then s.startExchangeReset else s
  if turnedOff then s.intake else s

/-- R169: a host write of the fault log's release byte acts. -/
def State.writeRelease (s : State) (v : Byte) : State :=
  if v = 0 ∨ s.faultRecord.isNone then s else s.releaseFaults.intake

end Sys2Proof.Machine
end

