-- ==== Sys2Proof/Machine/Line.lean ====
section
/-! DEFINITION. The management line (Sections 7.1 to 7.3): the bytes the host reads, write and read transactions. -/

namespace Sys2Proof.Machine

/-! ### What each offset reads (Sections 7.3, 11) -/

/-- Table 11-1: offset k of the head area. -/
def State.headByte (s : State) (k : Nat) : Byte :=
  match k with
  | 0x00 => 0x54
  | 0x01 => 0x56
  | 0x02 => 0x02
  | 0x03 => 0x84
  | 0x04 => 0x01
  | 0x08 => s.device.code
  | 0x09 => s.effective.code
  | 0x0A => 0#3 ++ BitVec.ofBool s.straps.autostart ++ s.straps.rate ++ s.straps.profile
  | 0x0B => s.lastCause.code
  | 0x10 => s.summary.extractLsb' 0 8
  | 0x11 => s.summary.extractLsb' 8 8
  | 0x12 => s.summary.extractLsb' 16 8
  | 0x13 => s.summary.extractLsb' 24 8
  | 0x14 => s.enables.extractLsb' 0 8
  | 0x15 => s.enables.extractLsb' 8 8
  | 0x16 => s.enables.extractLsb' 16 8
  | 0x17 => s.enables.extractLsb' 24 8
  | 0x18 => 0#6 ++ BitVec.ofBool s.holdIntake ++ BitVec.ofBool s.latchedMode
  | _ => 0

/-- Table 11-2: offset 0x40 + k, the fault log. -/
def State.faultByte (s : State) (k : Nat) : Byte :=
  match s.faultRecord with
  | none => 0
  | some r =>
    match k with
    | 0x00 => r.cause.code
    | 0x01 => r.status.code
    | 0x02 => BitVec.ofNat 8 r.slot
    | 0x03 => r.kind
    | 0x04 => r.leg
    | 0x05 => r.label0
    | 0x06 => r.label1
    | 0x07 => r.written
    | 0x08 => r.found
    | 0x09 => BitVec.ofNat 8 s.laterFaults
    | _ => 0

/-- Table 11-3: the relay flags of a leg. -/
def Leg.relayFlags (g : Leg) : Byte :=
  0#4 ++ BitVec.ofBool g.switch.relay.squelching ++ BitVec.ofBool g.switch.relay.armed ++
    BitVec.ofBool g.line.relay.squelching ++ BitVec.ofBool g.line.relay.armed

/-- Table 11-3: the bytes of a used leg's record, from offset 0 on. -/
def Leg.record (g : Leg) (width : Nat) : List Byte :=
  [g.state.code, flagByte g.intent, BitVec.ofNat 8 g.attempts, g.grade.code, g.line.session.code, g.switch.session.code,
   g.kind.code, g.cause.code, flagByte g.givenUp, g.line.weak, g.switch.weak, g.relayFlags, BitVec.ofNat 8 width, 0, 0,
   0] ++ g.setup.bytes ++ bytes16 g.carryEntries ++ bytes16 g.presenceLosses ++ bytes16 g.failedSessions

/-- R48, R3: offset k of a leg's record; an unused leg's record reads 0 throughout. -/
def State.legByte (s : State) (l : LegId) (k : Nat) : Byte :=
  if s.used l then ((s.leg l).record (s.width l)).getD k 0 else 0

/-- Table 11-5: the bytes of a lane map image entry. -/
def State.imageEntry (s : State) (i : LaneId) : List Byte :=
  let m := s.entry i
  let line : LaneSide := ⟨.line, i⟩
  let switch : LaneSide := ⟨.switch, m.source⟩
  [BitVec.ofNat 8 m.source.val, m.switchPolarity.code, m.linePolarity.code, m.function.code,
   BitVec.ofNat 8 (legOfLine s.straps.profile i).val, flagByte (s.lane line).presence.qualified,
   flagByte (s.lane line).locked, (s.transmit line).code, flagByte (s.lane switch).presence.qualified,
   flagByte (s.lane switch).locked, (s.transmit switch).code]

/-- R133, R176: the slot offsets that an EMPTY slot stores: kind, class, leg, patience and label (Table 11-6), and the
arguments that Table 11-7 lists for some kind (notes/assumptions/33.md), whatever the slot's own kind
(notes/assumptions/38.md). -/
def isStoredSlotOffset (k : Nat) : Bool := decide (k < 6) || (decide (0x10 ≤ k) && decide (k < 0x20))

/-- Tables 11-6 and 11-7: offset k of a slot; a byte that no table lists reads 0 (R176). -/
def State.slotImage (s : State) (n : SlotId) (k : Nat) : Byte :=
  match k with
  | 0x0C => (s.slot n).status.code
  | 0x0D => flagByte (s.slot n).cancelAsked
  | 0x0F => (s.slot n).state.code
  | _ => if isStoredSlotOffset k || decide (0x80 ≤ k) then s.slotByte n k else 0

/-- Table 11-7b: offset k of a page. -/
def State.pageImage (s : State) (p : PageId) (k : Nat) : Byte :=
  let c := s.page p
  match k with
  | 0x000 => c.state.code
  | 0x001 => BitVec.ofNat 8 c.leg.val
  | 0x002 => sideCode c.side
  | 0x003 => BitVec.ofNat 8 c.lane.val
  | 0x004 => BitVec.ofNat 8 c.dwell
  | 0x005 => c.outcome.code
  | 0x006 => BitVec.ofNat 8 c.cellsDone
  | 0x007 => BitVec.ofNat 8 (c.cellsDone / 256)
  | _ => if 0x200 ≤ k then s.mem.read (pageBase p + k) else 0

/-- Table 7-1, R132: the byte that an offset of the exchange memory shows. -/
def State.readByte (s : State) (a : Nat) : Byte :=
  if a < 0x40 then s.headByte a
  else if a < 0x60 then s.faultByte (a - 0x40)
  else if a < 0x100 then 0
  else if a < 0x200 then s.legByte (Fin.ofNat 4 ((a - 0x100) / 0x40)) ((a - 0x100) % 0x40)
  else if a < 0x280 then (s.imageEntry (Fin.ofNat 8 ((a - 0x200) / 0x10))).getD ((a - 0x200) % 0x10) 0
  else if a < 0x400 then 0
  else if a < 0x1000 then s.slotImage (Fin.ofNat 12 ((a - 0x400) / 0x100)) ((a - 0x400) % 0x100)
  else if a < 0x2000 then s.pageImage (Fin.ofNat 4 ((a - 0x1000) / 0x400)) ((a - 0x1000) % 0x400)
  else 0

/-! ### The line -/

/-- R129: the line interface acknowledges its address. -/
def State.listens (s : State) : Bool := !s.resetHeld && decide (s.device ≠ .initializing)

/-! ### Write transactions (R130, R132, R133) -/

/-- R133: the offsets of the action bytes: the attention summary, exchange control, the release byte, the hand-over byte
of each slot and the state byte of each page. -/
def isActionOffset (a : Nat) : Bool :=
  (decide (0x10 ≤ a) && decide (a < 0x14)) || a == 0x18 || a == 0x5F ||
  (decide (0x400 ≤ a) && decide (a < 0x1000) && a % 0x100 == 0x0F) ||
  (decide (0x1000 ≤ a) && decide (a < 0x2000) && a % 0x400 == 0)

/-- R133: an action byte joins those that wait, at rising offsets; the last value written to an offset acts. -/
def addAction (a : Nat) (v : Byte) : List (Nat × Byte) → List (Nat × Byte)
  | [] => [(a, v)]
  | c :: cs =>
    if a < c.1 then (a, v) :: c :: cs
    else if a = c.1 then (a, v) :: cs
    else c :: addAction a v cs

/-- R132, R133, R135, R143: a byte received for a stored field is stored; one for any other field is ignored. -/
def State.storeByte (s : State) (a : Nat) (v : Byte) : State :=
  if 0x14 ≤ a ∧ a < 0x18 then s.writeEnable (a - 0x14) v
  else if 0x400 ≤ a ∧ a < 0x1000 then
    if s.device ≠ .exchangeResetting ∧ isStoredSlotOffset ((a - 0x400) % 0x100) ∧
        (s.slot (Fin.ofNat 12 ((a - 0x400) / 0x100))).state = .empty then
      { s with mem := s.mem.write a v }
    else s
  else s

/-- R130, R133: a data byte is written at the current offset, which then increases by one, with the wrap: an action byte
waits for the end (slot and page bytes of an exchange reset in progress are ignored, R143), any other is stored or
ignored at once. -/
def State.receiveData (s : State) (t : WriteTransaction) (v : Byte) : State :=
  let a := s.offset.toNat
  let s := { s with offset := s.offset + 1 }
  if isActionOffset a then
    if 0x400 ≤ a ∧ s.device = .exchangeResetting then s
    else { s with writeOpen := some { t with actions := addAction a v t.actions } }
  else s.storeByte a v

/-- R130: one byte of a write transaction after the address: the two offset bytes, high byte first, then data. -/
def State.receiveByte (s : State) (v : Byte) : State :=
  match s.writeOpen with
  | none => s
  | some t =>
    if t.offsetSet then s.receiveData t v
    else match t.firstByte with
      | none => { s with writeOpen := some { t with firstByte := some v } }
      | some high => { s with offset := high ++ v, writeOpen := some { t with offsetSet := true } }

/-- R133: an action byte acts. -/
def State.act (s : State) (c : Nat × Byte) : State :=
  if c.1 < 0x14 then s.lower ((c.2.setWidth 32 <<< (8 * (c.1 - 0x10))) &&& clearableBits)
  else if c.1 = 0x18 then s.writeControl c.2
  else if c.1 = 0x5F then s.writeRelease c.2
  else if c.1 < 0x1000 then s.writeHandOver (Fin.ofNat 12 ((c.1 - 0x400) / 0x100)) c.2
  else s.writePage (Fin.ofNat 4 ((c.1 - 0x1000) / 0x400)) c.2

/-- R133: a write transaction ends: its action bytes act in ascending order of offset. -/
def State.endWrite (s : State) : State :=
  match s.writeOpen with
  | none => s
  | some t => t.actions.foldl State.act { s with writeOpen := none }

/-! ### Read transactions (R131, R143, R167) -/

/-- Set a 64-byte block of slots or pages to 0, with the header items the part keeps for it. -/
def State.clearBlock (s : State) (b : Nat) : State :=
  let a := b * 64
  let s := { s with mem := s.mem.clear a 64 }
  if 0x400 ≤ a ∧ a < 0x1000 ∧ a % 0x100 = 0 then s.modSlot (Fin.ofNat 12 ((a - 0x400) / 0x100)) (fun _ => Slot.reset)
  else if 0x1000 ≤ a ∧ a < 0x2000 ∧ a % 0x400 = 0 then
    { s with mem := s.mem.clear a 0x400 }.modPage (Fin.ofNat 4 ((a - 0x1000) / 0x400)) (fun _ => Page.reset)
  else s

/-- R143: while an exchange reset is in progress, a free value says whether a slot or page block has been cleared by the
time it is copied; the cell blocks of a page are cleared before its header block (notes/assumptions/6.md). -/
def State.clearProgress (s : State) (b : Nat) : State :=
  if s.device = .exchangeResetting ∧ 0x400 ≤ b * 64 ∧ b * 64 < 0x2000 then
    let cleared := decide (Config.freeChoice s.freeCount % 2 = 1)
    let s := { s with freeCount := s.freeCount + 1 }
    if cleared then s.clearBlock b else s
  else s

/-- A 64-byte block as it stands (R131). -/
def State.blockBytes (s : State) (b : Nat) : List Byte := (List.range 64).map (fun k => s.readByte (b * 64 + k))

/-- R131: the read transaction in progress holds a copy of a block, taken now if it has none yet. -/
def State.copyBlock (s : State) (t : ReadTransaction) (b : Nat) : State × ReadTransaction :=
  match t.copies.find? (fun c => c.1 = b) with
  | some _ => (s, t)
  | none =>
    let s := s.clearProgress b
    (s, { t with copies := t.copies ++ [(b, s.blockBytes b)] })

/-- The byte that a read transaction's copies hold at an offset. -/
def ReadTransaction.byteAt (t : ReadTransaction) (a : Nat) : Byte :=
  match t.copies.find? (fun c => c.1 = a / 64) with
  | some c => c.2.getD (a % 64) 0
  | none => 0

/-- R131: one byte is returned from the current offset, which then increases by one, with the wrap. -/
def State.returnByte (s : State) : State :=
  match s.readOpen with
  | none => s
  | some t =>
    let a := s.offset.toNat
    let (s, t) := s.copyBlock t (a / 64)
    { s with
      offset := s.offset + 1, readData := s.readData ++ [t.byteAt a]
      readOpen := some { t with returnedSummary := t.returnedSummary || a == 0x10 } }

/-- The summary as a read transaction's copy shows it. -/
def ReadTransaction.summaryCopy (t : ReadTransaction) : BitVec 32 :=
  t.byteAt 0x13 ++ t.byteAt 0x12 ++ t.byteAt 0x11 ++ t.byteAt 0x10

/-- R167: a read transaction ends: if it returned offset 0x0010 and every enabled bit set now was set in its copy, the
latched state is released. Its copies end with it (R131). -/
def State.endRead (s : State) : State :=
  match s.readOpen with
  | none => s
  | some t =>
    let fresh := s.summary &&& s.enables &&& ~~~t.summaryCopy
    { s with readOpen := none, latchedLine := s.latchedLine && !(t.returnedSummary && fresh == 0) }

/-! ### Transactions -/

/-- A stop, or a repeated start: the transaction in progress ends (R133). -/
def State.endTransaction (s : State) : State := s.endWrite.endRead

/-- R129, R130: a start and an address with the write direction. -/
def State.startWrite (s : State) (target : BitVec 7) : State :=
  let s := s.endTransaction
  if s.listens ∧ target = Config.targetAddress then
    { s with acknowledged := true, writeOpen := some ⟨none, false, []⟩ }
  else { s with acknowledged := false }

/-- R129, R131: a start and an address with the read direction. -/
def State.startRead (s : State) (target : BitVec 7) : State :=
  let s := s.endTransaction
  if s.listens ∧ target = Config.targetAddress then
    { s with acknowledged := true, readOpen := some ⟨[], false⟩, readData := [] }
  else { s with acknowledged := false }

/-- Bytes written in the transaction in progress. -/
def State.sendBytes (s : State) (data : List Byte) : State := data.foldl State.receiveByte s

/-- Bytes read in the transaction in progress. -/
def State.takeBytes : Nat → State → State
  | 0, s => s
  | n + 1, s => takeBytes n s.returnByte

/-- A whole write transaction. -/
def State.transact (s : State) (target : BitVec 7) (data : List Byte) : State :=
  ((s.startWrite target).sendBytes data).endTransaction

/-- The bytes of a 16-bit offset, high byte first (R130). -/
def offsetBytes (a : Nat) : List Byte := [BitVec.ofNat 8 (a / 256), BitVec.ofNat 8 a]

/-- A host write of these bytes from this offset on, in one transaction. -/
def State.hostWrite (s : State) (a : Nat) (data : List Byte) : State :=
  s.transact Config.targetAddress (offsetBytes a ++ data)

/-- A write event of the line. -/
def State.writeEvent (s : State) : WriteEvent → State
  | .start target => s.startWrite target
  | .bytes data => s.sendBytes data
  | .stop => s.endTransaction
  | .whole target data => s.transact target data

/-- A read event of the line. -/
def State.readEvent (s : State) : ReadEvent → State
  | .start target => s.startRead target
  | .bytes count => s.takeBytes count
  | .stop => s.endTransaction
  | .whole target offset count =>
    ((((s.startWrite target).sendBytes (offsetBytes offset.toNat)).startRead target).takeBytes count).endTransaction

/-- The bytes of a slot from its first offset on, for a task of this kind: the header, the hand-over byte FILLED and the
arguments (Section 7, "handing over an awaited task"). -/
def taskBytes (k : TaskKind) (h : TaskHeader) (args : List Byte) : List Byte :=
  [k.code, h.cls, h.leg, h.patience, h.label0, h.label1, 0, 0, 0, 0, 0, 0, 0, 0, 0, 1] ++ args

/-- The host hands over a task in slot n, in one write transaction (notes/assumptions/1.md). -/
def State.handOverTask (s : State) (n : SlotId) (k : TaskKind) (h : TaskHeader) (args : List Byte) : State :=
  s.hostWrite (slotBase n) (taskBytes k h args)

end Sys2Proof.Machine
end

