-- ==== Sys2Proof/Machine/PowerCommands.lean ====
section
/-! DEFINITION. The meanings of the power, reset and start-up commands (Section 10). -/

namespace Sys2Proof.Machine

/-- The outcome of every command: the part has no fault and no refusal. -/
abbrev Result := Host.Outcome State Fault Refusal

/-- R173: while RESET_L is held the part is stopped and an event of its own does not occur; otherwise the event is taken
if it can occur, and a command for an event that cannot leaves the state as it is (notes/assumptions/3.md). -/
def whenRunning (s : State) (can : Bool) (event : State → State) : Result :=
  .next (if !s.resetHeld && can then event s else s)

/-- POWER_ON (R171): the supply comes up, in whatever state the part was left. -/
def execPowerOn (pins : StrapPins) (lowpwr held : Bool) (lineDetect switchDetect : BitVec 8) (s : State) : Result :=
  .next (s.powerUp pins lowpwr held lineDetect switchDetect)

/-- RESET_L_ASSERT (R173). -/
def execResetLAssert (s : State) : Result := whenRunning s true State.holdReset

/-- RESET_L_RELEASE (R173, R171). -/
def execResetLRelease (pins : StrapPins) (s : State) : Result :=
  .next (if s.resetHeld then s.releaseReset pins else s)

/-- INITIALIZATION_COMPLETE (R171, R172). -/
def execInitializationComplete (s : State) : Result :=
  whenRunning s (s.device = .initializing) State.completeInit

/-- LOWPWR_ASSERT (R174): the pin's level; and, unless RESET_L is held or the power is LOW already, the change to
LOW. -/
def execLowpwrAssert (s : State) : Result :=
  let s' := { s with lowpwr := true }
  .next (if s.lowpwr || s.resetHeld || s.effective = .low then s' else (s'.powerLow .heldLow).intake)

/-- LOWPWR_RELEASE (R175): the pin's level; and, unless RESET_L is held, the rise if ACTIVE is requested. -/
def execLowpwrRelease (s : State) : Result :=
  let s' := { s with lowpwr := false }
  .next (if !s.lowpwr || s.resetHeld then s' else s'.tryRise.intake)

/-- RISE_COMPLETION (R175). -/
def execRiseCompletion (s : State) : Result :=
  whenRunning s (s.effective = .rising) (fun s => s.completeRise.intake)

end Sys2Proof.Machine
end

