-- ==== Sys2Proof/Machine/LaneCommands.lean ====
section
/-! DEFINITION. The meanings of the presence, lock and leg timer commands (Sections 1 and 2). -/

namespace Sys2Proof.Machine

/-- R146: an event of the leg that a lane side belongs to, followed by the leg engine's examination if the leg's state
changed. -/
def State.laneEvent (s : State) (x : LaneSide) (event : State → State) : State :=
  (event s).afterLegEvent s (s.legOf x)

/-- R146: an event of a leg, followed by the leg engine's examination if the leg's state changed. -/
def State.legEvent (s : State) (l : LegId) (event : State → State) : State := (event s).afterLegEvent s l

/-- R15: the raw detect now differs from the qualified presence, and the timer starts, or agrees with it, and the timer
stops. -/
def Presence.detect (p : Presence) (signal : Bool) : Presence :=
  { p with
    raw := signal
    timer := if signal = p.qualified then none
      else some (if signal then Config.presentTime else Config.absentTime) }

/-- RAW_DETECT_CHANGE (R15): a raw detect that has its value already does not change. Qualification stops while RESET_L is
held; the detector's judgment does not. -/
def execRawDetectChange (x : LaneSide) (signal : Bool) (s : State) : Result :=
  .next (if (s.lane x).presence.raw = signal then s
    else s.modLane x (fun v => { v with presence :=
      if s.resetHeld then { v.presence with raw := signal } else v.presence.detect signal }))

/-- QUALIFICATION_TIMER_EXPIRY (R15, R16). -/
def execQualificationTimerExpiry (x : LaneSide) (s : State) : Result :=
  whenRunning s (s.lane x).presence.timer.isSome (fun s => s.laneEvent x (fun s => s.presenceEvent x))

/-- R19: the mask ends; a net change over the window raises one wake-watch notice. -/
def State.maskExpire (s : State) (x : LaneSide) : State :=
  let v := s.lane x
  let s := s.modLane x (fun v => { v with mask := { v.mask with timer := none } })
  if v.presence.qualified = v.mask.start then s else s.wakeWatch (s.legOf x)

/-- MASK_TIMER_EXPIRY (R19). -/
def execMaskTimerExpiry (x : LaneSide) (s : State) : Result :=
  whenRunning s (s.lane x).mask.timer.isSome (fun s => s.maskExpire x)

/-- RECEIVER_LOCK (R1): a receiver can become LOCKED while PRESENT with effective power ACTIVE. -/
def execReceiverLock (x : LaneSide) (s : State) : Result :=
  whenRunning s ((s.lane x).presence.qualified && !(s.lane x).locked && s.effective = .active)
    (fun s => s.laneEvent x (fun s => s.lockEvent x))

/-- RECEIVER_UNLOCK (R1, R35). -/
def execReceiverUnlock (x : LaneSide) (s : State) : Result :=
  whenRunning s (s.lane x).locked (fun s => s.laneEvent x (fun s => s.unlockEvent x))

/-- LOCK_TIMER_EXPIRY (R33). -/
def execLockTimerExpiry (l : LegId) (s : State) : Result :=
  whenRunning s ((s.leg l).lockTimer.isSome && (s.leg l).state = .acquire)
    (fun s => s.legEvent l (fun s => s.lockTimerExpire l))

/-- RELAY_DELAY_EXPIRY (R43, R44). -/
def execRelayDelayExpiry (l : LegId) (watched : Side) (s : State) : Result :=
  whenRunning s ((s.leg l).side watched).relay.delay.isSome (fun s => s.relayExpire l watched)

/-- RELAY_PULSE_END (R44). -/
def execRelayPulseEnd (l : LegId) (watched : Side) (s : State) : Result :=
  whenRunning s ((s.leg l).side watched).relay.pulse.isSome
    (fun s => s.modRelay l watched (fun r => { r with pulse := none, squelching := false }))

end Sys2Proof.Machine
end

