-- ==== Sys2Proof/Machine/TuningCommands.lean ====
section
/-! DEFINITION. The meanings of the tuning exchange and scan cell commands (Sections 3, 5 and 6). -/

namespace Sys2Proof.Machine

/-- TUNING_FRAME_SENT (R49, R63): one frame period of a lane tuner, in DARK, ACQUIRE and TUNE. -/
def execTuningFrameSent (x : LaneSide) (s : State) : Result :=
  whenRunning s (s.leg (s.legOf x)).state.generates (fun s => s.laneEvent x (fun s => s.framePeriod x))

/-- R63: the next frame sent brings the wait count to the limit. -/
def State.waitEnds (s : State) (x : LaneSide) : Bool :=
  match s.nextWait x with
  | some (count, limit) => decide (limit ≤ count)
  | none => false

/-- REQUEST_WAIT_TIMEOUT (R63, R68): the sending of the frame that brings the wait count to the limit
(notes/assumptions/12.md). -/
def execRequestWaitTimeout (x : LaneSide) (s : State) : Result :=
  whenRunning s (s.waitEnds x) (fun s => s.laneEvent x (fun s => s.framePeriod x))

/-- TUNING_FRAME_RECEIVED (R51, R57): a frame is decoded only while the leg is in TUNE, and a receiver that is unlocked
delivers none. -/
def execTuningFrameReceived (x : LaneSide) (frame : Vector Byte 8) (s : State) : Result :=
  whenRunning s ((s.leg (s.legOf x)).state = .tune && (s.lane x).locked)
    (fun s => s.laneEvent x (fun s => s.receiveFrame x frame))

/-- SESSION_TIMER_EXPIRY (R69, R68). -/
def execSessionTimerExpiry (l : LegId) (side : Side) (s : State) : Result :=
  whenRunning s (((s.leg l).side side).timer.isSome && ((s.leg l).side side).session = .running &&
      (s.leg l).state = .tune)
    (fun s => s.legEvent l (fun s => s.sessionFailed l side .tuneTimeout))

/-- A reading is in progress (R96). -/
def Monitor.isReading : Monitor → Bool
  | .reading _ => true
  | _ => false

/-- R97: the reading completes: the monitor returns to IDLE and the climb takes the value. -/
def State.readingDone (s : State) (x : LaneSide) (m : Nat) : State :=
  (s.modLane x (fun v => { v with monitor := .idle })).climbReading x m

/-- MARGIN_READING_COMPLETE (R97). -/
def execMarginReadingComplete (x : LaneSide) (value : Fin 64) (s : State) : Result :=
  whenRunning s (s.lane x).monitor.isReading (fun s => s.readingDone x value.val)

/-- SCAN_CELL_COMPLETE (R120, R122). -/
def execScanCellComplete (p : PageId) (errors : Nat) (s : State) : Result :=
  match (s.page p).state with
  | .busy slot _ => whenRunning s true (fun s => s.completeCell p slot errors)
  | _ => .next s

/-- PATIENCE_EXPIRY (R149). -/
def execPatienceExpiry (l : LegId) (place : Fin 2) (s : State) : Result :=
  match s.waitingEntry l place.val with
  | some e => whenRunning s true (fun s => (s.giveUpEntry l place.val e).intake)
  | none => .next s

end Sys2Proof.Machine
end

