-- ==== Sys2Proof/Machine/MemoryCommands.lean ====
section
/-! DEFINITION. The meanings of the exchange memory commands (Sections 6, 7 and 9). Each host write is a transaction of the
management line (notes/assumptions/17.md). -/

namespace Sys2Proof.Machine

/-- The four bytes of a 32-bit head word, least significant first (R176). -/
def wordBytes (v : BitVec 32) : List Byte :=
  [v.extractLsb' 0 8, v.extractLsb' 8 8, v.extractLsb' 16 8, v.extractLsb' 24 8]

/-- SLOT_HAND_OVER (R136): FILLED written to the hand-over byte. -/
def execSlotHandOver (n : SlotId) (s : State) : Result := .next (s.hostWrite (slotBase n + 0x0F) [0x01])

/-- SLOT_RETRACT (R136): EMPTY written to the hand-over byte. -/
def execSlotRetract (n : SlotId) (s : State) : Result := .next (s.hostWrite (slotBase n + 0x0F) [0x00])

/-- SLOT_CANCEL (R136, R156): CANCEL written to the hand-over byte. -/
def execSlotCancel (n : SlotId) (s : State) : Result := .next (s.hostWrite (slotBase n + 0x0F) [0x0C])

/-- SLOT_RELEASE (R136): EMPTY written to the hand-over byte. -/
def execSlotRelease (n : SlotId) (s : State) : Result := .next (s.hostWrite (slotBase n + 0x0F) [0x00])

/-- ATTENTION_SUMMARY_CLEAR (R164): the four bytes of the summary written. -/
def execAttentionSummaryClear (value : BitVec 32) (s : State) : Result := .next (s.hostWrite 0x10 (wordBytes value))

/-- ATTENTION_SUMMARY_READ (R131, R167): a read transaction, or a part of one. -/
def execAttentionSummaryRead (ev : ReadEvent) (s : State) : Result := .next (s.readEvent ev)

/-- NOTICE_ENABLES_WRITE (R165): the four bytes of the enables written. -/
def execNoticeEnablesWrite (value : BitVec 32) (s : State) : Result := .next (s.hostWrite 0x14 (wordBytes value))

/-- FAULT_LOG_RELEASE (R169): the release byte written. -/
def execFaultLogRelease (value : Byte) (s : State) : Result := .next (s.hostWrite 0x5F [value])

/-- PAGE_STATE_WRITE (R116): a page's state byte written. -/
def execPageStateWrite (p : PageId) (value : Byte) (s : State) : Result := .next (s.hostWrite (pageBase p) [value])

/-- EXCHANGE_CONTROL_WRITE (R142): exchange control written. -/
def execExchangeControlWrite (value : Byte) (s : State) : Result := .next (s.hostWrite 0x18 [value])

/-- EXCHANGE_RESET (R142): exchange control written with the trigger 1 and these settings. -/
def execExchangeReset (latched holdIntake : Bool) (s : State) : Result :=
  .next (s.hostWrite 0x18 [1#1 ++ 0#5 ++ BitVec.ofBool holdIntake ++ BitVec.ofBool latched])

/-- EXCHANGE_RESET_COMPLETE (R143). -/
def execExchangeResetComplete (s : State) : Result :=
  whenRunning s (s.device = .exchangeResetting) State.completeExchangeReset

/-- REGISTER_WRITE (R130, R133): a write transaction, or a part of one. -/
def execRegisterWrite (ev : WriteEvent) (s : State) : Result := .next (s.writeEvent ev)

end Sys2Proof.Machine
end

