-- ==== Sys2Proof/Machine/TaskCommands.lean ====
section
/-! DEFINITION. The meanings of the task commands (Section 8.7): the host hands over a task of the kind in a slot, in one
write transaction; the intake takes it and its engine executes it, defers it or refuses it
(notes/assumptions/1.md). What each kind does when executed stands in Machine/Tasks.lean and Machine/PowerUnit.lean. -/

namespace Sys2Proof.Machine

/-- LEG_SETUP (R157) handed over. -/
def execLegSetup (n : SlotId) (h : TaskHeader) (values : Vector Byte 16) (s : State) : Result :=
  .next (s.handOverTask n .legSetup h values.toList)

/-- LEG_START (R26, R158) handed over. -/
def execLegStart (n : SlotId) (h : TaskHeader) (s : State) : Result := .next (s.handOverTask n .legStart h [])

/-- LEG_PARK (R28, R152, R158) handed over. -/
def execLegPark (n : SlotId) (h : TaskHeader) (s : State) : Result := .next (s.handOverTask n .legPark h [])

/-- LEG_RETUNE (R40, R159) handed over. -/
def execLegRetune (n : SlotId) (h : TaskHeader) (sides : Byte) (s : State) : Result :=
  .next (s.handOverTask n .legRetune h [sides])

/-- LANE_FUNCTION (R20) handed over. -/
def execLaneFunction (n : SlotId) (h : TaskHeader) (lane function : Byte) (s : State) : Result :=
  .next (s.handOverTask n .laneFunction h [lane, function])

/-- SET_TAPS (R89) handed over. -/
def execSetTaps (n : SlotId) (h : TaskHeader) (side lane pre main post : Byte) (s : State) : Result :=
  .next (s.handOverTask n .setTaps h [side, lane, pre, main, post])

/-- EYE_SCAN (R117) handed over. -/
def execEyeScan (n : SlotId) (h : TaskHeader) (side lane page dwell : Byte) (s : State) : Result :=
  .next (s.handOverTask n .eyeScan h [side, lane, page, dwell])

/-- SNAPSHOT (R126) handed over. -/
def execSnapshot (n : SlotId) (h : TaskHeader) (side clearAfter : Byte) (s : State) : Result :=
  .next (s.handOverTask n .snapshot h [side, clearAfter])

/-- REMAP (R21) handed over. -/
def execRemap (n : SlotId) (h : TaskHeader) (sources : Vector Byte 8) (switchInversion lineInversion : Byte)
    (s : State) : Result :=
  .next (s.handOverTask n .remap h (sources.toList ++ [switchInversion, lineInversion]))

/-- POWER (R160) handed over. -/
def execPower (n : SlotId) (h : TaskHeader) (requested : Byte) (s : State) : Result :=
  .next (s.handOverTask n .power h [requested])

end Sys2Proof.Machine
end

