-- ==== Sys2Proof/Machine/Dispatch.lean ====
section
/-! DEFINITION. The meaning of every command, one arm each, in the order of spec/opcode_table.json. -/

namespace Sys2Proof.Machine

def exec (i : Instr) (s : State) : Host.Outcome State Fault Refusal :=
  match i with
  | .powerOn pins lowpwr held lineDetect switchDetect => Sys2Proof.Machine.execPowerOn pins lowpwr held lineDetect switchDetect s
  | .resetLAssert => Sys2Proof.Machine.execResetLAssert s
  | .resetLRelease pins => Sys2Proof.Machine.execResetLRelease pins s
  | .initializationComplete => Sys2Proof.Machine.execInitializationComplete s
  | .lowpwrAssert => Sys2Proof.Machine.execLowpwrAssert s
  | .lowpwrRelease => Sys2Proof.Machine.execLowpwrRelease s
  | .riseCompletion => Sys2Proof.Machine.execRiseCompletion s
  | .rawDetectChange x signal => Sys2Proof.Machine.execRawDetectChange x signal s
  | .qualificationTimerExpiry x => Sys2Proof.Machine.execQualificationTimerExpiry x s
  | .maskTimerExpiry x => Sys2Proof.Machine.execMaskTimerExpiry x s
  | .receiverLock x => Sys2Proof.Machine.execReceiverLock x s
  | .receiverUnlock x => Sys2Proof.Machine.execReceiverUnlock x s
  | .lockTimerExpiry l => Sys2Proof.Machine.execLockTimerExpiry l s
  | .relayDelayExpiry l watched => Sys2Proof.Machine.execRelayDelayExpiry l watched s
  | .relayPulseEnd l watched => Sys2Proof.Machine.execRelayPulseEnd l watched s
  | .tuningFrameSent x => Sys2Proof.Machine.execTuningFrameSent x s
  | .requestWaitTimeout x => Sys2Proof.Machine.execRequestWaitTimeout x s
  | .tuningFrameReceived x frame => Sys2Proof.Machine.execTuningFrameReceived x frame s
  | .sessionTimerExpiry l side => Sys2Proof.Machine.execSessionTimerExpiry l side s
  | .marginReadingComplete x value => Sys2Proof.Machine.execMarginReadingComplete x value s
  | .scanCellComplete p errors => Sys2Proof.Machine.execScanCellComplete p errors s
  | .patienceExpiry l place => Sys2Proof.Machine.execPatienceExpiry l place s
  | .slotHandOver n => Sys2Proof.Machine.execSlotHandOver n s
  | .slotRetract n => Sys2Proof.Machine.execSlotRetract n s
  | .slotCancel n => Sys2Proof.Machine.execSlotCancel n s
  | .slotRelease n => Sys2Proof.Machine.execSlotRelease n s
  | .attentionSummaryClear value => Sys2Proof.Machine.execAttentionSummaryClear value s
  | .attentionSummaryRead ev => Sys2Proof.Machine.execAttentionSummaryRead ev s
  | .noticeEnablesWrite value => Sys2Proof.Machine.execNoticeEnablesWrite value s
  | .faultLogRelease value => Sys2Proof.Machine.execFaultLogRelease value s
  | .pageStateWrite p value => Sys2Proof.Machine.execPageStateWrite p value s
  | .exchangeControlWrite value => Sys2Proof.Machine.execExchangeControlWrite value s
  | .exchangeReset latched holdIntake => Sys2Proof.Machine.execExchangeReset latched holdIntake s
  | .exchangeResetComplete => Sys2Proof.Machine.execExchangeResetComplete s
  | .registerWrite ev => Sys2Proof.Machine.execRegisterWrite ev s
  | .legSetup n h values => Sys2Proof.Machine.execLegSetup n h values s
  | .legStart n h => Sys2Proof.Machine.execLegStart n h s
  | .legPark n h => Sys2Proof.Machine.execLegPark n h s
  | .legRetune n h sides => Sys2Proof.Machine.execLegRetune n h sides s
  | .laneFunction n h lane function => Sys2Proof.Machine.execLaneFunction n h lane function s
  | .setTaps n h side lane pre main post => Sys2Proof.Machine.execSetTaps n h side lane pre main post s
  | .eyeScan n h side lane page dwell => Sys2Proof.Machine.execEyeScan n h side lane page dwell s
  | .snapshot n h side clearAfter => Sys2Proof.Machine.execSnapshot n h side clearAfter s
  | .remap n h sources switchInversion lineInversion => Sys2Proof.Machine.execRemap n h sources switchInversion lineInversion s
  | .power n h requested => Sys2Proof.Machine.execPower n h requested s

end Sys2Proof.Machine
end

