-- ==== Sys2Proof/Machine/Time.lean ====
section
/-! DEFINITION. What a step does on an empty queue of commands: the checks that were put off are made, and with none put
off time passes: every running timer has one µs less remaining, and not below 0. The expiry of a timer is a command of
its own (notes/assumptions/2.md). -/

namespace Sys2Proof.Machine

/-- One µs of a timer. -/
def tickTimer (t : Option Nat) : Option Nat := t.map (fun n => n - 1)

/-- One µs of an eye monitor's reading. -/
def Monitor.tick : Monitor → Monitor
  | .reading left => .reading (left - 1)
  | m => m

/-- One µs of the timers of a lane side. -/
def LaneState.tick (v : LaneState) : LaneState :=
  { v with presence := { v.presence with timer := tickTimer v.presence.timer }
           mask := { v.mask with timer := tickTimer v.mask.timer }, monitor := v.monitor.tick }

/-- One µs of the timers of one side of a leg. -/
def LegSide.tick (d : LegSide) : LegSide :=
  { d with timer := tickTimer d.timer
           relay := { d.relay with delay := tickTimer d.relay.delay, pulse := tickTimer d.relay.pulse } }

/-- One µs of the timers of a leg. -/
def Leg.tick (g : Leg) : Leg :=
  { g with lockTimer := tickTimer g.lockTimer, line := g.line.tick, switch := g.switch.tick }

/-- One µs of the dwell of a scan page's cell. -/
def Page.tick (c : Page) : Page :=
  match c.state with
  | .busy slot left => { c with state := .busy slot (left - 1) }
  | _ => c

/-- One µs of the patience clocks of a leg queue. -/
def LegEngine.tick (e : LegEngine) : LegEngine :=
  { e with queue := e.queue.map (fun q => { q with clock := tickTimer q.clock }) }

/-- One µs passes; while RESET_L is held the part's timers do not run (R173). -/
def State.tick (s : State) : State :=
  if s.resetHeld then s
  else
    { s with
      riseTimer := tickTimer s.riseTimer, initTimer := tickTimer s.initTimer, resetTimer := tickTimer s.resetTimer
      lineSide := mapVector LaneState.tick s.lineSide, switchSide := mapVector LaneState.tick s.switchSide
      legs := mapVector Leg.tick s.legs, engines := mapVector LegEngine.tick s.engines
      pages := mapVector Page.tick s.pages }

/-- No command waits. Checks that were put off are made before any time passes, so that only events at the same time
come ahead of them (R89, R117; notes/assumptions/37.md); with none put off, time passes. -/
def State.idle (s : State) : State := if s.resetHeld || s.owed.isEmpty then s.tick else s.makeOwedChecks

end Sys2Proof.Machine
end

