-- ==== Sys2Proof/Machine/DataPath.lean ====
section
/-! DEFINITION. The data path (Sections 1.3 to 1.5): what each transmitter sends of what the receivers recover. Signals are
bytes and no part of State: what stands at the pins of the sixteen receivers is an argument of these functions
(notes/assumptions/24.md). -/

namespace Sys2Proof.Machine

/-- What stands at the pins of each receiver over the same stretch of time, as bytes. -/
abbrev Signals := LaneSide → List Byte

/-- R5: the lane side at the other end of the crossbar: the source switch lane of a line lane, and the line lane that a
switch lane feeds. -/
def State.pairedWith (s : State) (x : LaneSide) : LaneSide := s.sideOf (s.lineOf x) (otherSide x.side)

/-- R6: what a receiver recovers: the signal at its pins, through its polarity stage before any other use, whatever its
lock state (notes/assumptions/36.md). -/
def State.recovered (s : State) (pins : Signals) (x : LaneSide) : List Byte := s.throughPolarity x (pins x)

/-- What a transmitter takes to send, by its observed transmit state: nothing when SQUELCHED; the frames of its own lane
tuner in FRAMES; in DATA what the paired receiver recovers (R5); in LOOP what its own receiver recovers, and nothing
while that receiver is ABSENT (R10, R11); one that is PRESENT and UNLOCKED is taken to recover as a LOCKED one does
(notes/assumptions/36.md). -/
def State.sent (s : State) (pins : Signals) (x : LaneSide) : Option (List Byte) :=
  match s.transmit x with
  | .squelched => none
  | .frames => some (s.frameFields x).bytes
  | .data => some (s.recovered pins (s.pairedWith x))
  | .loop => if (s.lane x).presence.qualified then some (s.recovered pins x) else none

/-- R6: what stands at the pins of a transmitter: what it sends, through its polarity stage; none is no signal. -/
def State.output (s : State) (pins : Signals) (x : LaneSide) : Option (List Byte) :=
  (s.sent pins x).map (s.throughPolarity x)

end Sys2Proof.Machine
end

