-- ==== Sys2Proof/Safety.lean ====
section
/-! DEFINITION. What the spec says of the part in every state it reaches: the invariants that the claims name. -/

namespace Sys2Proof.Machine

/-- R4: the sources of the lane map form a permutation of the switch lanes. -/
def State.MapPermutes (s : State) : Prop := ∀ sw : LaneId, ∃ i : LaneId, (s.entry i).source = sw

/-- R78: the triple of every transmitter is valid for its rate class. -/
def State.TapsValid (s : State) : Prop := ∀ x : LaneSide, (s.lane x).taps.valid (s.rateOf x) = true

/-- No task waits anywhere: no slot in the hand-over order list, no entry in a queue. -/
def State.NoWork (s : State) : Prop :=
  s.handOver = [] ∧ (∀ l : LegId, (s.engine l).queue = []) ∧ s.deviceQueue = []

/-- R12: a leg that is not PARKED, or that holds intent 1, has every member lane in CARRY. With it stands what makes
AUTOSTART find CARRY (R172): while the device state is INITIALIZING every function is CARRY, and no task and no write
transaction exists that could change one. -/
def State.CarryOutsideParked (s : State) : Prop :=
  (∀ l : LegId, (s.leg l).state ≠ .parked ∨ (s.leg l).intent = true → s.allCarry l = true) ∧
  (s.device = .initializing → (∀ i : LaneId, (s.entry i).function = .carry) ∧ s.NoWork ∧ s.writeOpen = none)

/-- R29: while the effective power is LOW or RISING every leg is PARKED. -/
def State.ParkedWithoutPower (s : State) : Prop :=
  s.effective ≠ .active → ∀ l : LegId, (s.leg l).state = .parked

/-- R145: the bounds of the queues. -/
def State.QueuesBounded (s : State) : Prop :=
  (∀ l : LegId, (s.engine l).queue.length ≤ 8) ∧ s.deviceQueue.length ≤ 4

/-- R137: a slot is in the hand-over order list exactly when its hand-over byte reads FILLED, and no slot twice. -/
def State.ListIsFilled (s : State) : Prop :=
  s.handOver.Nodup ∧ ∀ n : SlotId, n ∈ s.handOver ↔ (s.slot n).state = .filled

/-- R163, R168: bit 24 is set exactly while the fault log holds a record, the count is at most 255, and 0 in an empty
log. -/
def State.FaultLogSound (s : State) : Prop :=
  (s.summary.getLsbD 24 = true ↔ s.faultRecord.isSome = true) ∧ s.laterFaults ≤ 255 ∧
  (s.faultRecord = none → s.laterFaults = 0)

/-- R163, R165: the unimplemented bits of the summary and of the enables read 0. -/
def State.WordsImplemented (s : State) : Prop :=
  s.summary &&& ~~~implementedBits = 0 ∧ s.enables &&& ~~~implementedBits = 0

/-- R3, R23: an unused leg stays PARKED with intent 0, and no task stands in its queue. -/
def State.UnusedParked (s : State) : Prop :=
  ∀ l : LegId, s.used l = false →
    (s.leg l).state = .parked ∧ (s.leg l).intent = false ∧ (s.engine l).queue = []

/-- The counters stop at their greatest values (R17, R47, R73, R74, R124). -/
def LaneCounters.bounded (c : LaneCounters) : Bool :=
  decide (c.presenceDrops ≤ 4294967295) && decide (c.lockLosses ≤ 4294967295) &&
  decide (c.badFrames ≤ 4294967295) && decide (c.requestsAnswered ≤ 4294967295)

/-- R125: every lane counter is at most 2^32 - 1. -/
def State.CountersBounded (s : State) : Prop := ∀ x : LaneSide, (s.lane x).counters.bounded = true

/-- R47: the three counters of every leg are at most 65,535. -/
def State.LegCountersBounded (s : State) : Prop :=
  ∀ l : LegId,
    (s.leg l).carryEntries ≤ 65535 ∧ (s.leg l).presenceLosses ≤ 65535 ∧ (s.leg l).failedSessions ≤ 65535

/-- R115: a page has at most 512 cells done, a BUSY one fewer, and every cell not below cells done reads 0. -/
def State.CellsSound (s : State) : Prop :=
  ∀ p : PageId,
    (s.page p).cellsDone ≤ 512 ∧ (∀ slot left, (s.page p).state = .busy slot left → (s.page p).cellsDone < 512) ∧
    ∀ k, (s.page p).cellsDone ≤ k → k < 512 → s.mem.read (pageBase p + 0x200 + k) = 0

/-- The slots of the awaited tasks that have been taken and not finished: in a leg queue, in flight, in the device queue,
waiting for the end of a rise, or scanning into a page (R145, R155, R160, R115). -/
def State.heldSlots (s : State) : List SlotId :=
  allLegs.flatMap (fun l =>
    ((s.engine l).queue.filter (fun e => e.awaited)).map (fun e => e.slot) ++ (s.engine l).inFlight.toList) ++
  (s.deviceQueue.filter (fun e => e.awaited)).map (fun e => e.slot) ++ s.powerWait ++
  allPages.flatMap (fun p =>
    match (s.page p).state with
    | .busy slot _ => [slot]
    | _ => [])

/-- R137, R139, R140: the hand-over order list holds exactly the FILLED slots; the slot of a task not finished is TAKEN,
and stands in one place. With it stand that no EYE_SCAN in a queue is posted (R138), and that an exchange reset in
progress finds no task anywhere (R142). -/
def State.SlotsAccounted (s : State) : Prop :=
  s.ListIsFilled ∧ s.heldSlots.Nodup ∧ (∀ n ∈ s.heldSlots, (s.slot n).state = .taken) ∧
  (∀ l : LegId, ∀ e ∈ (s.engine l).queue, e.kind = .eyeScan → e.awaited = true) ∧
  (s.device = .exchangeResetting → s.handOver = [] ∧ s.heldSlots = [])

/-! ### Where the claims look -/

/-- R129: the line interface answers, and no transaction is open. -/
def State.LineFree (s : State) : Prop :=
  s.resetHeld = false ∧ s.device ≠ .initializing ∧ s.writeOpen = none ∧ s.readOpen = none

/-! ### What a command leaves unchanged: one predicate for each kind of state -/

/-- The input pins and the straps as read. -/
def State.SamePins (s t : State) : Prop := t.resetHeld = s.resetHeld ∧ t.lowpwr = s.lowpwr ∧ t.straps = s.straps

/-- The power unit's registers. -/
def State.SamePower (s t : State) : Prop :=
  t.requested = s.requested ∧ t.effective = s.effective ∧ t.riseTimer = s.riseTimer

/-- The device state, what it counts, and the reset cause. -/
def State.SameDevice (s t : State) : Prop :=
  t.device = s.device ∧ t.initTimer = s.initTimer ∧ t.initByPowerOn = s.initByPowerOn ∧
  t.resetTimer = s.resetTimer ∧ t.lastCause = s.lastCause ∧ t.releaseCause = s.releaseCause

/-- The lane map. -/
def State.SameMap (s t : State) : Prop := ∀ i : LaneId, t.entry i = s.entry i

/-- Every lane side but those of a list. -/
def State.SameLanesBut (xs : List LaneSide) (s t : State) : Prop := ∀ y : LaneSide, y ∉ xs → t.lane y = s.lane y

/-- Every leg controller but those of a list. -/
def State.SameLegsBut (ls : List LegId) (s t : State) : Prop := ∀ l : LegId, l ∉ ls → t.leg l = s.leg l

/-- The queues, the in-flight sets, the power wait list, the hand-over order list, and the checks put off. -/
def State.SameTasks (s t : State) : Prop :=
  (∀ l : LegId, t.engine l = s.engine l) ∧ t.deviceQueue = s.deviceQueue ∧ t.powerWait = s.powerWait ∧
  t.handOver = s.handOver ∧ t.owed = s.owed

/-- Every slot but those of a list. -/
def State.SameSlotsBut (ns : List SlotId) (s t : State) : Prop := ∀ n : SlotId, n ∉ ns → t.slot n = s.slot n

/-- Every page but those of a list. -/
def State.SamePagesBut (ps : List PageId) (s t : State) : Prop := ∀ p : PageId, p ∉ ps → t.page p = s.page p

/-- Every stored byte. -/
def State.SameBytes (s t : State) : Prop := ∀ a : Nat, t.mem.read a = s.mem.read a

/-- The attention unit's registers. -/
def State.SameAttention (s t : State) : Prop :=
  t.summary = s.summary ∧ t.enables = s.enables ∧ t.latchedMode = s.latchedMode ∧ t.holdIntake = s.holdIntake ∧
  t.latchedLine = s.latchedLine

/-- The fault log. -/
def State.SameFaults (s t : State) : Prop := t.faultRecord = s.faultRecord ∧ t.laterFaults = s.laterFaults

/-- The line interface. -/
def State.SameLine (s t : State) : Prop :=
  t.offset = s.offset ∧ t.writeOpen = s.writeOpen ∧ t.readOpen = s.readOpen ∧ t.acknowledged = s.acknowledged ∧
  t.readData = s.readData

/-- Everything but the lane sides and the leg controllers. -/
def State.SameOutside (s t : State) : Prop :=
  s.SamePins t ∧ s.SamePower t ∧ s.SameDevice t ∧ s.SameMap t ∧ s.SameTasks t ∧ s.SameSlotsBut [] t ∧
  s.SamePagesBut [] t ∧ s.SameBytes t ∧ s.SameAttention t ∧ s.SameFaults t ∧ s.SameLine t

/-- What a host write of the management line leaves of the part beside the exchange memory: pins, power, device state,
map, lane sides, legs. -/
def State.SamePart (s t : State) : Prop :=
  s.SamePins t ∧ s.SamePower t ∧ s.SameDevice t ∧ s.SameMap t ∧ s.SameLanesBut [] t ∧ s.SameLegsBut [] t

/-! ### Host writes and tasks -/

/-- The line interface after one write transaction that ended at this offset. -/
def State.LineAfter (s t : State) (a : Nat) : Prop :=
  t.offset = BitVec.ofNat 16 a ∧ t.writeOpen = none ∧ t.readOpen = none ∧ t.acknowledged = true ∧
  t.readData = s.readData

/-- A task handed over in slot n is taken at once: the line answers, the device state is READY, the intake is not held,
the slot is EMPTY and nothing waits. -/
def State.AcceptsTask (s : State) (n : SlotId) : Prop :=
  s.LineFree ∧ s.device = .ready ∧ (s.holdIntake = false ∨ s.faultRecord = none) ∧ (s.slot n).state = .empty ∧
  s.NoWork ∧ s.mem.wf = true

/-- The header of an awaited leg task for a used leg, with a patience code of the list (R138, R147). -/
def State.AwaitedFor (s : State) (h : TaskHeader) (l : LegId) : Prop :=
  h.cls ≠ 1 ∧ h.leg.toNat = l.val ∧ s.used l = true ∧ h.patience.toNat ≤ 3

/-- The header of an awaited device task (R138, R147). -/
def AwaitedForDevice (h : TaskHeader) : Prop := h.cls ≠ 1 ∧ h.leg = 0xFF ∧ h.patience.toNat ≤ 3

/-- Slot n holds the header and the arguments of a task of this kind; its other bytes below the result area stand. -/
def State.TaskWritten (s t : State) (n : SlotId) (k : TaskKind) (h : TaskHeader) (args : List Byte) : Prop :=
  t.slotByte n 0 = k.code ∧ t.slotByte n 1 = h.cls ∧ t.slotByte n 2 = h.leg ∧ t.slotByte n 3 = h.patience ∧
  t.slotByte n 4 = h.label0 ∧ t.slotByte n 5 = h.label1 ∧
  ∀ i, 6 ≤ i → i < 0x80 → t.slotByte n i =
    if 0x10 ≤ i ∧ i < 0x10 + args.length then args.getD (i - 0x10) 0 else s.slotByte n i

/-- Every byte outside slot n as before. -/
def State.SameBytesOutside (s t : State) (n : SlotId) : Prop :=
  ∀ a, ¬(slotBase n ≤ a ∧ a < slotBase n + 0x100) → t.mem.read a = s.mem.read a

/-- What the hand-over of a task leaves behind whatever the task does: the slot written, the line interface after it,
and the pins, the device state, the fault log and the settings of the attention unit as before; no slot waits in the
list and no entry in the device queue. -/
def State.Carried (s t : State) (n : SlotId) (k : TaskKind) (h : TaskHeader) (args : List Byte) : Prop :=
  s.TaskWritten t n k h args ∧ s.LineAfter t (slotBase n + 0x10 + args.length) ∧ s.SamePins t ∧ s.SameDevice t ∧
  s.SameFaults t ∧ t.enables = s.enables ∧ t.latchedMode = s.latchedMode ∧ t.holdIntake = s.holdIntake ∧
  t.deviceQueue = [] ∧ t.handOver = []

/-- The power unit, the pages, the power wait list, the checks put off, and every leg and leg engine but those of a
list, as before. -/
def State.SameOutsideLegs (s t : State) (ls : List LegId) : Prop :=
  s.SamePower t ∧ s.SamePagesBut [] t ∧ t.powerWait = s.powerWait ∧ t.owed = s.owed ∧ s.SameLegsBut ls t ∧
  ∀ l, l ∉ ls → t.engine l = s.engine l

/-- The awaited task of slot n has finished, and nothing else set a summary bit: DONE with this status and these result
bytes, the rest of the result area 0; every other slot and every byte outside the slot as before, and no entry
waits. -/
def State.TaskDone (s t : State) (n : SlotId) (st : Status) (result : List Byte) : Prop :=
  t.slot n = ⟨.done, st, false⟩ ∧ t.summary = s.summary ||| (1#32 <<< n.val) ∧ s.SameSlotsBut [n] t ∧
  (∀ k, k < 0x80 → t.slotByte n (0x80 + k) = result.getD k 0) ∧ s.SameBytesOutside t n ∧
  ∀ l, (t.engine l).queue = []

/-- The task of slot n is refused with a status: DONE, no result bytes, and nothing else changes. -/
def State.TaskRefused (s t : State) (n : SlotId) (st : Status) : Prop :=
  s.TaskDone t n st [] ∧ s.SameOutsideLegs t [] ∧ s.SameMap t ∧ s.SameLanesBut [] t

/-- The awaited task of slot n has been taken and has not finished: TAKEN, in progress, its result area 0. -/
def State.TaskTaken (s t : State) (n : SlotId) : Prop :=
  t.slot n = ⟨.taken, .inProgress, false⟩ ∧ s.SameSlotsBut [n] t ∧
  (∀ k, k < 0x80 → t.slotByte n (0x80 + k) = 0) ∧ s.SameBytesOutside t n

/-- R148: the patience clock of an entry at its first deferral, in µs, by its patience code; none is unlimited. -/
def patienceClock (code : Byte) : Option Nat :=
  if code = 0 then some 1000000 else if code = 1 then some 5000000 else if code = 2 then some 30000000 else none

/-- The awaited task of slot n waits at the head of its leg's queue: deferred, its patience clock running; nothing else
changes. -/
def State.TaskWaits (s t : State) (n : SlotId) (k : TaskKind) (h : TaskHeader) (l : LegId) : Prop :=
  s.TaskTaken t n ∧
  (t.engine l).queue =
    [⟨k, true, n, k.code, h.leg, h.patience, h.label0, h.label1, [], true, patienceClock h.patience⟩] ∧
  (t.engine l).inFlight = (s.engine l).inFlight ∧ s.SameOutsideLegs t [l] ∧ t.leg l = s.leg l ∧ s.SameMap t ∧
  s.SameLanesBut [] t ∧ t.summary = s.summary

/-! ### A waiting EYE_SCAN (R117) -/

/-- The one entry of the queue of leg l is an awaited EYE_SCAN that waits, with arguments in their sets, for page p; its
scan, once started, makes that page c. -/
def State.ScanWaits (s : State) (l : LegId) (e : Entry) (p : PageId) (c : Page) : Prop :=
  (s.engine l).queue = [e] ∧ e.kind = .eyeScan ∧ e.awaited = true ∧ e.deferred = true ∧ e.patience.toNat ≤ 3 ∧
  c.lane ∈ s.members l ∧ (c.dwell = 1 ∨ c.dwell = 2 ∨ c.dwell = 4) ∧
  c = ⟨.busy e.slot (c.dwell * 1000), l, c.side, c.lane, c.dwell, 0, .none⟩ ∧
  s.slotByte e.slot 0x10 = (if c.side = .line then 0 else 1) ∧ (s.slotByte e.slot 0x11).toNat = c.lane.val ∧
  (s.slotByte e.slot 0x12).toNat = p.val ∧ (s.slotByte e.slot 0x13).toNat = c.dwell

/-- That scan has started: its entry has left the queue, the page is c with every cell 0, the monitor SCANNING, and the
slot stands as it was. -/
def State.ScanStarted (s t : State) (l : LegId) (e : Entry) (p : PageId) (c : Page) : Prop :=
  (t.engine l).queue = [] ∧ t.page p = c ∧ (∀ k, k < 0x200 → t.mem.read (pageBase p + 0x200 + k) = 0) ∧
  (t.lane (s.sideOf c.lane c.side)).monitor = .scanning ∧ t.slot e.slot = s.slot e.slot

/-- That task waits on: its entry in the queue, the page and the slot as they were, its monitor not SCANNING. -/
def State.ScanWaitsOn (s t : State) (l : LegId) (e : Entry) (p : PageId) (c : Page) : Prop :=
  (t.engine l).queue = [e] ∧ t.page p = s.page p ∧ (t.lane (s.sideOf c.lane c.side)).monitor ≠ .scanning ∧
  t.slot e.slot = s.slot e.slot

/-- R117: an event that lets the task start: the check is made in the event, or put off, and then it is owed. -/
def State.ScanStartsOrIsPutOff (s t : State) (l : LegId) (e : Entry) (p : PageId) (c : Page) : Prop :=
  (s.ScanStarted t l e p c ∧ t.owed = s.owed) ∨
  (s.ScanWaitsOn t l e p c ∧ t.owed = if l ∈ s.owed then s.owed else s.owed ++ [l])

/-- A fault is reported (R168): it fills an empty log and sets bit 24, or is counted, up to 255. -/
def State.FaultReported (s t : State) (r : FaultRecord) : Prop :=
  (s.faultRecord = none →
    t.faultRecord = some r ∧ t.laterFaults = s.laterFaults ∧ t.summary = s.summary ||| 0x01000000) ∧
  (s.faultRecord ≠ none → t.faultRecord = s.faultRecord ∧
    t.laterFaults = (if s.laterFaults < 255 then s.laterFaults + 1 else s.laterFaults) ∧ t.summary = s.summary)

/-- The settings of the attention unit. -/
def State.SameSettings (s t : State) : Prop :=
  t.enables = s.enables ∧ t.latchedMode = s.latchedMode ∧ t.holdIntake = s.holdIntake

/-- The items of a leg beside those it holds for each of its sides. -/
def State.SameLegItems (s t : State) (l : LegId) : Prop :=
  { t.leg l with line := (s.leg l).line, switch := (s.leg l).switch } = s.leg l

/-- One read transaction of the management line from offset a on returns these bytes, and changes nothing but the current
offset and the two outputs of the line (R131). -/
def State.Reads (s : State) (a : Nat) (bytes : List Byte) : Prop :=
  exec (.attentionSummaryRead (.whole 0x3A (BitVec.ofNat 16 a) bytes.length)) s =
    .next { s with offset := BitVec.ofNat 16 (a + bytes.length), acknowledged := true, readData := bytes }

/-! ### The climb (R103, R110) -/

/-- R110: the climb of a lane side that stands as v has ended: CONTENT set, phase HOLDING, and the
weak-lane flag of its lane pair set when the best margin is below the floor. -/
def State.ClimbEnds (s t : State) (x : LaneSide) (v : LaneState) : Prop :=
  t.lane x = { v with
    climb := { v.climb with stage := .ended }, tuner := { v.tuner with content := true, phase := .holding } } ∧
  s.SameLegsBut [s.legOf x] t ∧ s.SameLegItems t (s.legOf x) ∧
  (t.leg (s.legOf x)).side (otherSide x.side) = (s.leg (s.legOf x)).side (otherSide x.side) ∧
  (t.leg (s.legOf x)).side x.side = { (s.leg (s.legOf x)).side x.side with
    weak := if v.climb.best.any (fun b => b < v.climb.floor)
      then ((s.leg (s.legOf x)).side x.side).weak ||| (1#8 <<< (s.lineOf x).val)
      else ((s.leg (s.legOf x)).side x.side).weak }

/-- R61, R103: a lane side that stands as v has issued a NUDGE of the climb's tap by a step, and is in this stage. -/
def State.ClimbNudges (s t : State) (x : LaneSide) (v : LaneState) (step : Int) (stage : ClimbStage) : Prop :=
  t.lane x = { v with
    climb := { v.climb with stage := stage }
    tuner := { v.tuner with
      waitCount := 0
      outstanding := some ⟨v.tuner.nextTag, .nudge (match v.climb.tap with
        | .post => .post
        | .pre => .pre) step⟩ } } ∧
  s.SameLegsBut [] t

/-- R103: the trial check on a lane side that stands as v: with at least 2 of the 32 requests remaining a trial in the
climb's direction, else the end of the climb, its hold then as given. -/
def State.ClimbTries (s t : State) (x : LaneSide) (v : LaneState) (hold : Nat) : Prop :=
  (v.climb.answered ≤ 30 → s.ClimbNudges t x v (match v.climb.direction with
    | .up => 1
    | .down => -1) .trial) ∧
  (30 < v.climb.answered → s.ClimbEnds t x { v with tuner := { v.tuner with hold := hold } })

/-! ### The equalizer arithmetic (R84, R86) -/

/-- A candidate step k of tap X qualifies and forms the triple t': under FIXED, and under BALANCED for a positive step
and for MAIN, the tap moves alone (R84, R85); under BALANCED a negative step of PRE or POST also lowers MAIN by the
excess of the budget (R86). -/
def Taps.Qualifies (mode : BudgetMode) (rate : RateClass) (t : Taps) (tap : Tap) (k : Int) (t' : Taps) : Prop :=
  tapInRange rate tap (t.get tap + k) = true ∧
  (mode = .fixed ∨ tap = .main ∨ 0 < k →
    t' = t.put tap (t.get tap + k) ∧ t'.budget ≤ 60 ∧ 10 ≤ t'.floor) ∧
  (mode = .balanced ∧ tap ≠ .main ∧ k < 0 →
    t' = { t.put tap (t.get tap + k) with main := t.main - max 0 ((t.put tap (t.get tap + k)).budget - 60) } ∧
    20 ≤ t'.main ∧ 10 ≤ t'.floor)

/-! ### The outcome of a failed session (R39) -/

/-- Increase a leg counter by one, stopping at 65,535 (R47). -/
def nextCount (n : Nat) : Nat := if n < 65535 then n + 1 else n

/-- The awaited bring-up task in flight of a leg has finished with a status (R41, R155). -/
def State.TaskFinished (s t : State) (l : LegId) (st : Status) : Prop :=
  (t.engine l).inFlight = none ∧
  ∀ n : SlotId, (s.engine l).inFlight = some n → (t.slot n).state = .done ∧ (t.slot n).status = st ∧
    t.summary.getLsbD n.val = true

/-- What a leg is after a failed session of one side, by its fallback (R39): CARRY, RETRY below the attempt limit, RETRY
at it (the give-up), and PARK. -/
def State.FollowsFallback (s t : State) (l : LegId) (side : Side) (cause : FailureCause) : Prop :=
  (t.leg l).cause = cause ∧ (t.leg l).failedSessions = nextCount (s.leg l).failedSessions ∧
  (t.leg l).setup = (s.leg l).setup ∧
  match (s.leg l).setup.fallback with
  | .carry =>
    (t.leg l).state = .carrying ∧ (t.leg l).grade = .degraded ∧ (t.leg l).attempts = 0 ∧
    (t.leg l).intent = (s.leg l).intent ∧ (t.leg l).carryEntries = nextCount (s.leg l).carryEntries ∧
    ((t.leg l).side side).session = .failed ∧ (∀ d, ((t.leg l).side d).relay.armed = true) ∧
    t.summary.getLsbD (16 + l.val) = true ∧ s.TaskFinished t l .okDegraded
  | .retry =>
    (t.leg l).attempts = (s.leg l).attempts + 1 ∧
    ((s.leg l).attempts + 1 < (s.leg l).setup.attemptLimit →
      (t.leg l).state = (if s.allLocked l then .tune else .acquire) ∧ (t.leg l).intent = (s.leg l).intent ∧
      (s.allLocked l = true → ∀ d, ((t.leg l).side d).session = .running) ∧
      (t.engine l).inFlight = (s.engine l).inFlight) ∧
    ((s.leg l).setup.attemptLimit ≤ (s.leg l).attempts + 1 →
      (t.leg l).state = .parked ∧ (t.leg l).intent = false ∧ (t.leg l).givenUp = true ∧
      t.summary.getLsbD (16 + l.val) = true ∧ s.TaskFinished t l .bringUpFailed)
  | .park =>
    (t.leg l).state = .parked ∧ (t.leg l).intent = false ∧ (t.leg l).givenUp = (s.leg l).givenUp ∧
    (t.leg l).attempts = (s.leg l).attempts ∧ t.summary.getLsbD (16 + l.val) = true ∧
    s.TaskFinished t l .bringUpFailed

end Sys2Proof.Machine
end

