-- ==== Sys2Proof/WellFormed.lean ====
section
/-! DEFINITION. The commands whose operands are the ones the spec lists. `exec` gives a meaning to every command, well
formed or not: a host may write any value (R176), and the rule that reads it decides what it does. -/

namespace Sys2Proof

/-- Table 11-6: the class byte of a task that may be posted is 0x00 AWAITED or 0x01 POSTED. -/
def goodClass (postable : Bool) (cls : Byte) : Bool := cls == 0 || (postable && cls == 1)

/-- Table 11-6, R148: the header of a leg task: class, leg 0..3, patience code 0..3. -/
def goodLegHeader (postable : Bool) (h : TaskHeader) : Bool :=
  goodClass postable h.cls && decide (h.leg.toNat < 4) && decide (h.patience.toNat < 4)

/-- Table 11-6: the header of a device task, whose leg may be 0xFF. -/
def goodDeviceHeader (postable : Bool) (h : TaskHeader) : Bool :=
  goodClass postable h.cls && (decide (h.leg.toNat < 4) || h.leg == 0xFF) && decide (h.patience.toNat < 4)

/-- Table 11-4: the codes of the setup value block in their sets. -/
def goodSetupCodes (v : Vector Byte 16) : Bool :=
  decide (v[0].toNat < 3) && decide (v[1].toNat < 5) && decide (v[2].toNat < 5) && decide (v[3].toNat < 2) &&
  decide (v[4].toNat < 4) && decide (v[8].toNat < 3) && decide (v[9].toNat < 3) && decide (v[14].toNat < 2) &&
  decide (v[15].toNat < 2)

/-- Table 11-4: the numbers of the setup value block in their ranges. -/
def goodSetupNumbers (v : Vector Byte 16) : Bool :=
  decide (1 ≤ v[5].toNat ∧ v[5].toNat ≤ 20) && decide (10 ≤ v[6].toNat ∧ v[6].toNat ≤ 80) &&
  decide (1 ≤ v[7].toNat ∧ v[7].toNat ≤ 7) && decide (v[10].toNat ≤ 7) &&
  decide (2 ≤ v[11].toNat ∧ v[11].toNat ≤ 16) && decide (1 ≤ v[12].toNat ∧ v[12].toNat ≤ 4) &&
  decide (v[13].toNat ≤ 63)

/-- R21: eight sources that are a permutation of 0..7. -/
def goodSources (v : Vector Byte 8) : Bool := v.toList.all (fun b => decide (b.toNat < 8)) && decide v.toList.Nodup

/-- R131, R167: a whole read is one of the summary when it returns offset 0x0010. -/
def goodSummaryRead : ReadEvent → Bool
  | .whole target offset count =>
    target == 0x3A && decide (offset.toNat ≤ 0x10) && decide (0x10 < offset.toNat + count)
  | .start _ => true
  | .bytes _ => true
  | .stop => true

/-- The operands of a command are the ones the spec lists. -/
def Instr.wellFormed : Instr → Bool
  | .powerOn _ _ _ _ _ => true
  | .resetLAssert => true
  | .resetLRelease _ => true
  | .initializationComplete => true
  | .lowpwrAssert => true
  | .lowpwrRelease => true
  | .riseCompletion => true
  | .rawDetectChange _ _ => true
  | .qualificationTimerExpiry _ => true
  | .maskTimerExpiry _ => true
  | .receiverLock _ => true
  | .receiverUnlock _ => true
  | .lockTimerExpiry _ => true
  | .relayDelayExpiry _ _ => true
  | .relayPulseEnd _ _ => true
  | .tuningFrameSent _ => true
  | .requestWaitTimeout _ => true
  | .tuningFrameReceived _ _ => true
  | .sessionTimerExpiry _ _ => true
  | .marginReadingComplete _ _ => true
  | .scanCellComplete _ _ => true
  | .patienceExpiry _ _ => true
  | .slotHandOver _ => true
  | .slotRetract _ => true
  | .slotCancel _ => true
  | .slotRelease _ => true
  | .attentionSummaryClear value => value &&& ~~~0x020F0000 == 0
  | .attentionSummaryRead ev => goodSummaryRead ev
  | .noticeEnablesWrite value => value &&& ~~~0x030F0FFF == 0
  | .faultLogRelease value => value != 0
  | .pageStateWrite _ value => value == 0
  | .exchangeControlWrite value => value &&& ~~~0x83 == 0
  | .exchangeReset _ _ => true
  | .exchangeResetComplete => true
  | .registerWrite _ => true
  | .legSetup _ h values => goodLegHeader true h && goodSetupCodes values && goodSetupNumbers values
  | .legStart _ h => goodLegHeader true h
  | .legPark _ h => goodLegHeader true h
  | .legRetune _ h sides => goodLegHeader true h && decide (sides.toNat < 3)
  | .laneFunction _ h lane function =>
    goodLegHeader true h && decide (lane.toNat < 8) && decide (function.toNat < 4)
  | .setTaps _ h side lane _ _ _ => goodLegHeader true h && decide (side.toNat < 2) && decide (lane.toNat < 8)
  | .eyeScan _ h side lane page dwell =>
    goodLegHeader false h && decide (side.toNat < 2) && decide (lane.toNat < 8) && decide (page.toNat < 4) &&
    (dwell == 1 || dwell == 2 || dwell == 4)
  | .snapshot _ h side clearAfter =>
    goodLegHeader false h && decide (side.toNat < 2) && decide (clearAfter.toNat < 2)
  | .remap _ h sources _ _ => goodDeviceHeader false h && goodSources sources
  | .power _ h requested => goodDeviceHeader true h && decide (requested.toNat < 2)

end Sys2Proof
end

