-- ==== Sys2Proof/Certificates/Slice0/Obligations.lean ====
section
/-! DEFINITION. The statements for the provers. -/

section

open Sys2Proof Sys2Proof.Machine

/-! ### The queue of commands -/

/-- A step takes the command at the front of the queue and is `exec` of it on the state with the queue's rest (the
model's choice, log 23). -/
def Obligations.StepRunsTheFrontCommand : Prop :=
  ∀ (c : Instr) (rest : List Instr) (s : State),
    Sys2Proof.Machine.step { s with pending := c :: rest } = Sys2Proof.Machine.exec c { s with pending := rest }

/-- On an empty queue, with no check put off, a step lets 1 µs pass: every running timer, the patience clocks of the
queues, a margin reading and the cell of a scan among them, has one µs less, not below 0, and nothing else changes;
while RESET_L is held nothing changes at all (the model's choice, log 2). With checks put off no time passes, and they
are put off no longer; where no task waits they find nothing and nothing else changes (the model's choice, log 37). -/
def Obligations.EmptyQueueLetsTimePass : Prop :=
  ∀ s : State, s.pending = [] → ∃ t, Sys2Proof.Machine.step s = .next t ∧
    (s.resetHeld = true → t = s) ∧
    (s.resetHeld = false → s.owed ≠ [] → t.owed = [] ∧
      (s.NoWork → t = { s with owed := [], freeCount := s.freeCount + s.owed.length })) ∧
    (s.resetHeld = false → s.owed = [] →
      t.riseTimer = s.riseTimer.map (· - 1) ∧ t.initTimer = s.initTimer.map (· - 1) ∧
      t.resetTimer = s.resetTimer.map (· - 1) ∧
      (∀ x, t.lane x = { s.lane x with
        presence := { (s.lane x).presence with timer := (s.lane x).presence.timer.map (· - 1) }
        mask := { (s.lane x).mask with timer := (s.lane x).mask.timer.map (· - 1) }
        monitor := match (s.lane x).monitor with
          | .idle => .idle
          | .reading left => .reading (left - 1)
          | .scanning => .scanning }) ∧
      (∀ l, { t.leg l with
          lockTimer := (s.leg l).lockTimer, line := (s.leg l).line, switch := (s.leg l).switch } = s.leg l ∧
        (t.leg l).lockTimer = (s.leg l).lockTimer.map (· - 1) ∧
        ∀ d, (t.leg l).side d = { (s.leg l).side d with
          timer := ((s.leg l).side d).timer.map (· - 1)
          relay := { ((s.leg l).side d).relay with
            delay := ((s.leg l).side d).relay.delay.map (· - 1)
            pulse := ((s.leg l).side d).relay.pulse.map (· - 1) } }) ∧
      (∀ l, t.engine l = { s.engine l with
        queue := (s.engine l).queue.map (fun e => { e with clock := e.clock.map (· - 1) }) }) ∧
      (∀ p, t.page p = { s.page p with state :=
        match (s.page p).state with
        | .free => .free
        | .busy slot left => .busy slot (left - 1)
        | .held => .held }) ∧
      s.SamePins t ∧ t.requested = s.requested ∧ t.effective = s.effective ∧
      s.SameDevice { t with initTimer := s.initTimer, resetTimer := s.resetTimer } ∧ s.SameMap t ∧
      t.deviceQueue = s.deviceQueue ∧ t.powerWait = s.powerWait ∧ t.handOver = s.handOver ∧ t.owed = [] ∧
      s.SameSlotsBut [] t ∧ s.SameBytes t ∧ s.SameAttention t ∧ s.SameFaults t ∧ s.SameLine t ∧ t.pending = [] ∧
      t.freeCount = s.freeCount)

/-- The command of an event that cannot occur answers the state as it is (the model's choice, log 3): any event of the
part's own and a second assertion while RESET_L is held, a release while it is not, the expiry of a timer that is
stopped, a lock of a receiver that is ABSENT, LOCKED or without ACTIVE power, a frame, a reading, a cell, a patience
or a completion that nothing in progress awaits. -/
def Obligations.EventsThatCannotOccurChangeNothing : Prop :=
  ∀ s : State,
    (s.resetHeld = true → Sys2Proof.Machine.exec .resetLAssert s = .next s) ∧
    (s.resetHeld = false → ∀ pins, Sys2Proof.Machine.exec (.resetLRelease pins) s = .next s) ∧
    (s.resetHeld = true ∨ s.device ≠ .initializing → Sys2Proof.Machine.exec .initializationComplete s = .next s) ∧
    (s.resetHeld = true ∨ s.effective ≠ .rising → Sys2Proof.Machine.exec .riseCompletion s = .next s) ∧
    (s.resetHeld = true ∨ s.device ≠ .exchangeResetting →
      Sys2Proof.Machine.exec .exchangeResetComplete s = .next s) ∧
    (∀ x : LaneSide,
      Sys2Proof.Machine.exec (.rawDetectChange x (s.lane x).presence.raw) s = .next s ∧
      (s.resetHeld = true ∨ (s.lane x).presence.timer = none →
        Sys2Proof.Machine.exec (.qualificationTimerExpiry x) s = .next s) ∧
      (s.resetHeld = true ∨ (s.lane x).mask.timer = none →
        Sys2Proof.Machine.exec (.maskTimerExpiry x) s = .next s) ∧
      (s.resetHeld = true ∨ (s.lane x).presence.qualified = false ∨ (s.lane x).locked = true ∨ s.effective ≠ .active →
        Sys2Proof.Machine.exec (.receiverLock x) s = .next s) ∧
      (s.resetHeld = true ∨ (s.lane x).locked = false → Sys2Proof.Machine.exec (.receiverUnlock x) s = .next s) ∧
      (s.resetHeld = true ∨ (s.leg (s.legOf x)).state = .parked ∨ (s.leg (s.legOf x)).state = .carrying →
        Sys2Proof.Machine.exec (.tuningFrameSent x) s = .next s) ∧
      (s.resetHeld = true ∨ (s.leg (s.legOf x)).state ≠ .tune ∨ (s.lane x).tuner.outstanding = none ∨
          s.transmit x ≠ .frames ∨
          (∀ m, (s.leg (s.legOf x)).setup.requestWait.limit = some m → (s.lane x).tuner.waitCount + 1 < m) →
        Sys2Proof.Machine.exec (.requestWaitTimeout x) s = .next s) ∧
      (s.resetHeld = true ∨ (s.leg (s.legOf x)).state ≠ .tune ∨ (s.lane x).locked = false →
        ∀ frame, Sys2Proof.Machine.exec (.tuningFrameReceived x frame) s = .next s) ∧
      (s.resetHeld = true ∨ (∀ left, (s.lane x).monitor ≠ .reading left) →
        ∀ value, Sys2Proof.Machine.exec (.marginReadingComplete x value) s = .next s)) ∧
    (∀ l : LegId,
      (s.resetHeld = true ∨ (s.leg l).lockTimer = none ∨ (s.leg l).state ≠ .acquire →
        Sys2Proof.Machine.exec (.lockTimerExpiry l) s = .next s) ∧
      (∀ d : Side,
        (s.resetHeld = true ∨ ((s.leg l).side d).relay.delay = none →
          Sys2Proof.Machine.exec (.relayDelayExpiry l d) s = .next s) ∧
        (s.resetHeld = true ∨ ((s.leg l).side d).relay.pulse = none →
          Sys2Proof.Machine.exec (.relayPulseEnd l d) s = .next s) ∧
        (s.resetHeld = true ∨ ((s.leg l).side d).timer = none ∨ ((s.leg l).side d).session ≠ .running ∨
            (s.leg l).state ≠ .tune →
          Sys2Proof.Machine.exec (.sessionTimerExpiry l d) s = .next s)) ∧
      (∀ place : Fin 2, s.resetHeld = true ∨
          (∀ e, (s.engine l).queue[place.val]? = some e → e.deferred = false ∨ e.clock = none) →
        Sys2Proof.Machine.exec (.patienceExpiry l place) s = .next s)) ∧
    (∀ p : PageId, s.resetHeld = true ∨ (∀ slot left, (s.page p).state ≠ .busy slot left) →
      ∀ errors, Sys2Proof.Machine.exec (.scanCellComplete p errors) s = .next s)

/-! ### Start-up, RESET_L and power (Section 10) -/

/-- POWER_ON: every piece of state takes its power-on value, the straps are read, the device state is INITIALIZING,
the effective power follows LOWPWR, and, unless RESET_L is held, initialization takes 2 ms and qualification starts.
The mask's start value is log 4, the empty record of the last frame log 15, and the raw detects as operands log 16.
The cause that a release would record is POWER_ON, and the initialization is that of a power-on (log 8). -/
def Obligations.PowerOnStartsTheInitialization : Prop :=
  ∀ (pins : StrapPins) (lowpwr held : Bool) (lineDetect switchDetect : BitVec 8) (s : State),
    ∃ t, Sys2Proof.Machine.exec (.powerOn pins lowpwr held lineDetect switchDetect) s = .next t ∧
      t.resetHeld = held ∧ t.lowpwr = lowpwr ∧ t.straps = pins ∧ t.requested = .active ∧
      t.effective = (if lowpwr then .low else .active) ∧ t.riseTimer = none ∧ t.device = .initializing ∧
      t.initTimer = (if held then none else some 2000) ∧ t.resetTimer = none ∧ t.lastCause = .powerOn ∧
      t.releaseCause = .powerOn ∧ t.initByPowerOn = true ∧
      (∀ i, t.entry i = ⟨i, .normal, .normal, .carry⟩) ∧
      (∀ x, t.lane x = { LaneState.reset with presence :=
        { raw := (match x.side with
            | .line => lineDetect
            | .switch => switchDetect).getLsbD x.lane.val
          qualified := false
          timer := if !held && (match x.side with
            | .line => lineDetect
            | .switch => switchDetect).getLsbD x.lane.val then some 1000 else none } }) ∧
      (∀ l, t.leg l = Leg.reset (strapRate pins.rate)) ∧ (∀ l, t.engine l = ⟨[], none⟩) ∧ t.deviceQueue = [] ∧
      t.powerWait = [] ∧ t.handOver = [] ∧ t.owed = [] ∧ (∀ n, t.slot n = ⟨.empty, .inProgress, false⟩) ∧
      (∀ p, t.page p = Page.reset) ∧ (∀ a, t.mem.read a = 0) ∧ t.summary = 0 ∧ t.enables = 0x030F0FFF ∧
      t.latchedMode = false ∧ t.holdIntake = false ∧ t.faultRecord = none ∧ t.laterFaults = 0 ∧ t.offset = 0 ∧
      t.writeOpen = none ∧ t.readOpen = none

/-- RESET_L_ASSERT: the part is stopped: every transmitter SQUELCHED, every receiver UNLOCKED, ATTN_L released, no
acknowledgement, open transactions abandoned, the power rise, initialization and exchange reset ended, running scans
stopped with their pages at the reset values and their cells 0, the fault log kept, and the cause that the release
will record fixed (log 8, log 9). -/
def Obligations.ResetAssertionStopsThePart : Prop :=
  ∀ s : State, s.resetHeld = false → ∃ t, Sys2Proof.Machine.exec .resetLAssert s = .next t ∧
    t.resetHeld = true ∧ (∀ x, t.transmit x = .squelched) ∧ (∀ x, (t.lane x).locked = false) ∧
    (∀ x, (t.lane x).monitor = .idle) ∧ t.attentionAsserted = false ∧ t.listens = false ∧ t.writeOpen = none ∧
    t.readOpen = none ∧ t.initTimer = none ∧ t.resetTimer = none ∧ t.riseTimer = none ∧ s.SameFaults t ∧
    t.releaseCause = (if s.device = .initializing ∧ s.initByPowerOn = true then .powerOn else .resetPin) ∧
    t.lowpwr = s.lowpwr ∧ t.straps = s.straps ∧ t.effective = s.effective ∧ s.SameMap t ∧ s.SameLegsBut [] t ∧
    (∀ x, (t.lane x).presence = (s.lane x).presence ∧ (t.lane x).taps = (s.lane x).taps ∧
      (t.lane x).counters = (s.lane x).counters) ∧
    s.SameTasks t ∧ s.SameSlotsBut [] t ∧ (∀ a, a < 0x1000 → t.mem.read a = s.mem.read a) ∧
    (∀ p,
      (∀ slot left, (s.page p).state = .busy slot left →
        t.page p = ⟨.free, 0, .line, 0, 0, 0, .none⟩ ∧
        ∀ k, k < 0x200 → t.mem.read (pageBase p + 0x200 + k) = 0) ∧
      ((∀ slot left, (s.page p).state ≠ .busy slot left) →
        t.page p = s.page p ∧
        ∀ k, k < 0x200 → t.mem.read (pageBase p + 0x200 + k) = s.mem.read (pageBase p + 0x200 + k))) ∧
    t.summary = s.summary ∧ s.SameSettings t

/-- RESET_L_RELEASE: an initialization begins with the straps as they stand; the fault log is kept and bit 24 tells of
it, and every other piece of state takes its reset value: the recorded cause by log 8, the mask's start value by log 4,
the empty record of the last frame by log 15. -/
def Obligations.ResetReleaseStartsTheInitialization : Prop :=
  ∀ (pins : StrapPins) (s : State), s.resetHeld = true →
    ∃ t, Sys2Proof.Machine.exec (.resetLRelease pins) s = .next t ∧
      t.resetHeld = false ∧ t.straps = pins ∧ t.requested = .active ∧
      t.effective = (if s.lowpwr then .low else .active) ∧ t.riseTimer = none ∧ t.device = .initializing ∧
      t.initTimer = some 2000 ∧ t.resetTimer = none ∧ t.lastCause = s.releaseCause ∧
      (∀ i, t.entry i = ⟨i, .normal, .normal, .carry⟩) ∧
      (∀ x, t.lane x = { LaneState.reset with presence :=
        { raw := (s.lane x).presence.raw, qualified := false,
          timer := if (s.lane x).presence.raw then some 1000 else none } }) ∧
      (∀ l, t.leg l = Leg.reset (strapRate pins.rate)) ∧ (∀ l, t.engine l = ⟨[], none⟩) ∧ t.deviceQueue = [] ∧
      t.powerWait = [] ∧ t.handOver = [] ∧ t.owed = [] ∧ (∀ n, t.slot n = ⟨.empty, .inProgress, false⟩) ∧
      (∀ p, t.page p = Page.reset) ∧ (∀ a, t.mem.read a = 0) ∧
      t.summary = (if s.faultRecord.isSome then 0x01000000 else 0) ∧ t.enables = 0x030F0FFF ∧
      t.latchedMode = false ∧ t.holdIntake = false ∧ s.SameFaults t ∧ t.offset = 0 ∧ t.writeOpen = none ∧
      t.readOpen = none

/-- INITIALIZATION_COMPLETE with no task waiting: READY, and every leg as AUTOSTART gives: not strapped, unchanged;
strapped, a used leg takes intent 1, attempt count 0 and given-up 0, and enters DARK exactly when the effective power
is ACTIVE, going on at once as far as presence and lock let it. -/
def Obligations.InitializationCompletes : Prop :=
  ∀ s : State, s.resetHeld = false → s.device = .initializing → s.NoWork → (∀ l, (s.leg l).state = .parked) →
    ∃ t, Sys2Proof.Machine.exec .initializationComplete s = .next t ∧ t.device = .ready ∧ t.initTimer = none ∧
      (∀ l, (s.straps.autostart = false ∨ s.used l = false → t.leg l = s.leg l) ∧
        (s.straps.autostart = true → s.used l = true →
          (t.leg l).intent = true ∧ (t.leg l).attempts = 0 ∧ (t.leg l).givenUp = false ∧
          (t.leg l).setup = (s.leg l).setup ∧
          (t.leg l).state = (if s.effective ≠ .active then .parked else if s.allPresent l = false then .dark
            else if s.allLocked l = false then .acquire else .tune))) ∧
      (s.straps.autostart = false ∨ s.effective ≠ .active ∨
          (∀ l, s.used l = true → s.allPresent l = false ∨ s.allLocked l = false) → s.SameLanesBut [] t) ∧
      s.SamePins t ∧ s.SamePower t ∧ s.SameMap t ∧ s.SameTasks t ∧ s.SameSlotsBut [] t ∧
      s.SamePagesBut [] t ∧ s.SameBytes t ∧ t.summary = s.summary ∧ t.enables = s.enables ∧ s.SameFaults t ∧
      s.SameLine t

/-- LOWPWR_ASSERT that finds the effective power ACTIVE or RISING: LOW in the same action, the rise timer stopped,
every receiver UNLOCKED, every leg PARKED, every transmitter SQUELCHED, bit 25 set, whatever tasks wait. With no task
waiting every leg keeps its intent, the power wait list empties, its awaited POWER tasks DONE with HELD_LOW, and a
bring-up task in flight of a leg that parks is DONE with SUPERSEDED. -/
def Obligations.LowpwrAssertionTakesThePartLow : Prop :=
  ∀ s : State, s.resetHeld = false → s.lowpwr = false → s.effective ≠ .low →
    ∃ t, Sys2Proof.Machine.exec .lowpwrAssert s = .next t ∧ t.lowpwr = true ∧ t.effective = .low ∧
      t.riseTimer = none ∧ (∀ x, (t.lane x).locked = false) ∧ (∀ l, (t.leg l).state = .parked) ∧
      (∀ x, t.transmit x = .squelched) ∧ t.summary.getLsbD 25 = true ∧ t.straps = s.straps ∧ s.SameDevice t ∧
      s.SameLine t ∧ t.enables = s.enables ∧
      (s.NoWork → t.requested = s.requested ∧ t.powerWait = [] ∧ s.SameMap t ∧ s.SameFaults t ∧
        (∀ n ∈ s.powerWait, (t.slot n).state = .done ∧ (t.slot n).status = .heldLow ∧
          t.summary.getLsbD n.val = true) ∧
        (∀ x, (t.lane x).presence = (s.lane x).presence ∧ (t.lane x).taps = (s.lane x).taps ∧
          (t.lane x).counters = (s.lane x).counters) ∧
        ∀ l, (t.leg l).intent = (s.leg l).intent ∧ (t.leg l).setup = (s.leg l).setup ∧
          ((s.leg l).state ≠ .parked → (t.engine l).inFlight = none ∧
            ∀ n, (s.engine l).inFlight = some n → (t.slot n).state = .done ∧ t.summary.getLsbD n.val = true ∧
              (n ∉ s.powerWait → (∀ p left, (s.page p).state ≠ .busy n left) →
                (t.slot n).status = .superseded)))

/-- LOWPWR_RELEASE and RISE_COMPLETION, with no task waiting. At the release a part that is LOW with ACTIVE requested
begins its 10 ms rise, with LOW requested it stays LOW, and in either case no leg, lane or notice changes. At the
completion: ACTIVE, bit 25 set, every used PARKED leg with intent 1 in DARK or, with every lane PRESENT, beyond, every
other leg as it was, and every awaited POWER of the power wait list DONE with OK. -/
def Obligations.PowerRisesToActive : Prop :=
  ∀ s : State, s.resetHeld = false → s.NoWork →
    (s.lowpwr = true →
      ∃ t, Sys2Proof.Machine.exec .lowpwrRelease s = .next t ∧ t.lowpwr = false ∧ t.requested = s.requested ∧
        (s.effective = .low ∧ s.requested = .active → t.effective = .rising ∧ t.riseTimer = some 10000) ∧
        (s.effective ≠ .low ∨ s.requested = .low → t.effective = s.effective ∧ t.riseTimer = s.riseTimer) ∧
        s.SameDevice t ∧ s.SameMap t ∧ s.SameLanesBut [] t ∧ s.SameLegsBut [] t ∧ s.SameTasks t ∧
        s.SameSlotsBut [] t ∧ s.SamePagesBut [] t ∧ s.SameBytes t ∧ s.SameAttention t ∧ s.SameFaults t ∧
        s.SameLine t) ∧
    (s.effective = .rising → (∀ x, (s.lane x).locked = false) →
      ∃ t, Sys2Proof.Machine.exec .riseCompletion s = .next t ∧ t.effective = .active ∧ t.riseTimer = none ∧
        t.summary.getLsbD 25 = true ∧ t.powerWait = [] ∧
        (∀ n ∈ s.powerWait, (t.slot n).state = .done ∧ (t.slot n).status = .ok) ∧
        (∀ l, s.used l = true ∧ (s.leg l).state = .parked ∧ (s.leg l).intent = true →
          (t.leg l).state = (if s.allPresent l then .acquire else .dark) ∧ (t.leg l).attempts = 0 ∧
          (t.leg l).intent = true) ∧
        (∀ l, ¬(s.used l = true ∧ (s.leg l).state = .parked ∧ (s.leg l).intent = true) → t.leg l = s.leg l) ∧
        s.SamePins t ∧ t.requested = s.requested ∧ s.SameDevice t ∧ s.SameMap t ∧ s.SameLanesBut [] t ∧
        (∀ l, t.engine l = s.engine l) ∧ t.deviceQueue = s.deviceQueue ∧
        s.SameSlotsBut s.powerWait t ∧ s.SamePagesBut [] t ∧ t.enables = s.enables ∧ s.SameFaults t ∧ s.SameLine t)

/-! ### Presence, lock and the leg controllers (Sections 1 and 2) -/

/-- RAW_DETECT_CHANGE outside RESET_L: a disagreement starts the qualification timer, 1 ms toward PRESENT and 50 µs
toward ABSENT, a return to agreement stops it. MASK_TIMER_EXPIRY: the mask ends, and a net change over the window
raises one notice for a PARKED leg with wake watch on. Nothing else changes but the latched line state, which in LATCHED
mode becomes asserted when the notice was clear and is enabled. -/
def Obligations.DetectAndMaskTimersAct : Prop :=
  ∀ (x : LaneSide) (s : State), s.resetHeld = false →
    (∀ signal : Bool, (s.lane x).presence.raw ≠ signal →
      ∃ t, Sys2Proof.Machine.exec (.rawDetectChange x signal) s = .next t ∧
        t.lane x = { s.lane x with presence :=
          { raw := signal, qualified := (s.lane x).presence.qualified,
            timer := if signal = (s.lane x).presence.qualified then none
              else if signal then some 1000 else some 50 } } ∧
        s.SameLanesBut [x] t ∧ s.SameLegsBut [] t ∧ s.SameOutside t) ∧
    ((s.lane x).mask.timer.isSome = true →
      ∃ t, Sys2Proof.Machine.exec (.maskTimerExpiry x) s = .next t ∧
        t.lane x = { s.lane x with mask := ⟨none, (s.lane x).mask.start⟩ } ∧
        t.summary = (if (s.lane x).presence.qualified ≠ (s.lane x).mask.start ∧
            (s.leg (s.legOf x)).state = .parked ∧ (s.leg (s.legOf x)).setup.wakeWatch = true
          then s.summary ||| (1#32 <<< (16 + (s.legOf x).val)) else s.summary) ∧
        t.latchedLine = (s.latchedLine ||
          (s.latchedMode && decide (t.summary &&& ~~~s.summary &&& s.enables ≠ 0))) ∧ s.SameSettings t ∧
        s.SameLanesBut [x] t ∧ s.SameLegsBut [] t ∧ s.SamePins t ∧ s.SamePower t ∧ s.SameDevice t ∧ s.SameMap t ∧
        s.SameTasks t ∧
        s.SameSlotsBut [] t ∧ s.SamePagesBut [] t ∧ s.SameBytes t ∧ s.SameFaults t ∧ s.SameLine t)

/-- QUALIFICATION_TIMER_EXPIRY of a lane side whose leg is PARKED: the qualified presence takes the raw detect's
value; a change to ABSENT unlocks the receiver and counts a presence drop; a change raises the leg notice exactly when
wake watch is on and the lane side is not masked; the leg stays PARKED with its intent. -/
def Obligations.QualificationOnAParkedLeg : Prop :=
  ∀ (x : LaneSide) (s : State), s.resetHeld = false → (s.lane x).presence.timer.isSome = true →
    (s.lane x).presence.raw ≠ (s.lane x).presence.qualified → (s.leg (s.legOf x)).state = .parked →
    ∃ t, Sys2Proof.Machine.exec (.qualificationTimerExpiry x) s = .next t ∧
      (t.lane x).presence = ⟨(s.lane x).presence.raw, (s.lane x).presence.raw, none⟩ ∧
      (t.lane x).locked = ((s.lane x).locked && (s.lane x).presence.raw) ∧
      (t.lane x).counters.presenceDrops =
        (if (s.lane x).presence.raw then (s.lane x).counters.presenceDrops
         else if (s.lane x).counters.presenceDrops < 4294967295 then (s.lane x).counters.presenceDrops + 1
         else (s.lane x).counters.presenceDrops) ∧
      { t.lane x with
        presence := (s.lane x).presence, locked := (s.lane x).locked
        counters := { (t.lane x).counters with presenceDrops := (s.lane x).counters.presenceDrops } } = s.lane x ∧
      t.summary = (if (s.leg (s.legOf x)).setup.wakeWatch = true ∧ (s.lane x).mask.timer = none
        then s.summary ||| (1#32 <<< (16 + (s.legOf x).val)) else s.summary) ∧
      (t.leg (s.legOf x)).state = .parked ∧ (t.leg (s.legOf x)).intent = (s.leg (s.legOf x)).intent ∧
      (t.leg (s.legOf x)).presenceLosses = (s.leg (s.legOf x)).presenceLosses ∧
      (t.leg (s.legOf x)).setup = (s.leg (s.legOf x)).setup ∧
      (t.leg (s.legOf x)).attempts = (s.leg (s.legOf x)).attempts ∧
      s.SameLanesBut [x] t ∧ s.SameLegsBut [s.legOf x] t ∧ s.SamePins t ∧ s.SamePower t ∧ s.SameDevice t ∧
      s.SameMap t ∧ s.SameTasks t ∧ s.SameSlotsBut [] t ∧ s.SamePagesBut [] t ∧ s.SameBytes t ∧ s.SameFaults t ∧
      s.SameLine t

/-- QUALIFICATION_TIMER_EXPIRY of a lane side whose leg is not PARKED, with no task waiting. A change to ABSENT
unlocks the receiver without a lock loss and counts a presence drop; it sends a leg in ACQUIRE, TUNE or CARRYING to
DARK with its attempt count kept, its lock timer stopped, the loss counted and a notice from CARRYING, and leaves a
leg in DARK where it is. A change to PRESENT sends a leg in DARK whose every other member lane is PRESENT to ACQUIRE,
and leaves any other where it is. -/
def Obligations.PresenceEventsMoveTheLeg : Prop :=
  ∀ (x : LaneSide) (s : State), s.resetHeld = false → s.MapPermutes → s.NoWork →
    (s.lane x).presence.timer.isSome = true → (s.lane x).presence.raw ≠ (s.lane x).presence.qualified →
    ((s.lane x).presence.qualified = false → (s.lane x).locked = false) → (s.leg (s.legOf x)).state ≠ .parked →
    ∃ t, Sys2Proof.Machine.exec (.qualificationTimerExpiry x) s = .next t ∧
      (t.lane x).presence = ⟨(s.lane x).presence.raw, (s.lane x).presence.raw, none⟩ ∧ (t.lane x).locked =
        ((s.lane x).locked && (s.lane x).presence.raw) ∧
      (t.lane x).counters = { (s.lane x).counters with presenceDrops :=
        if (s.lane x).presence.raw then (s.lane x).counters.presenceDrops
        else if (s.lane x).counters.presenceDrops < 4294967295 then (s.lane x).counters.presenceDrops + 1
        else (s.lane x).counters.presenceDrops } ∧
      (t.leg (s.legOf x)).attempts = (s.leg (s.legOf x)).attempts ∧
      (t.leg (s.legOf x)).intent = (s.leg (s.legOf x)).intent ∧
      (t.leg (s.legOf x)).setup = (s.leg (s.legOf x)).setup ∧
      (t.engine (s.legOf x)).inFlight = (s.engine (s.legOf x)).inFlight ∧
      (∀ y, (t.lane y).taps = (s.lane y).taps) ∧
      (∀ y, y ≠ x → (t.lane y).counters = (s.lane y).counters ∧ (t.lane y).presence = (s.lane y).presence ∧
        (t.lane y).locked = (s.lane y).locked) ∧
      s.SameLegsBut [s.legOf x] t ∧ s.SamePins t ∧ s.SamePower t ∧ s.SameDevice t ∧ s.SameMap t ∧ s.SameFaults t ∧
      s.SameSettings t ∧ s.SameLine t ∧
      ((s.lane x).presence.raw = false → (s.leg (s.legOf x)).state ≠ .dark →
        (t.leg (s.legOf x)).state = .dark ∧ (t.leg (s.legOf x)).lockTimer = none ∧
        (t.leg (s.legOf x)).presenceLosses = nextCount (s.leg (s.legOf x)).presenceLosses ∧
        ((s.leg (s.legOf x)).state = .carrying → t.summary.getLsbD (16 + (s.legOf x).val) = true) ∧
        (∀ d, ((s.leg (s.legOf x)).side d).session ≠ .running →
          ((t.leg (s.legOf x)).side d).session = ((s.leg (s.legOf x)).side d).session) ∧
        ((s.leg (s.legOf x)).state = .tune →
          ∀ d, ((s.leg (s.legOf x)).side d).session = .running →
            ((t.leg (s.legOf x)).side d).session = .idle ∧ ((t.leg (s.legOf x)).side d).weak = 0 ∧
            ((t.leg (s.legOf x)).side d).timer = none)) ∧
      ((s.lane x).presence.raw = true → (s.leg (s.legOf x)).state = .dark →
        (∀ y ∈ s.allMemberSides (s.legOf x), y ≠ x → (s.lane y).presence.qualified = true) →
        (t.leg (s.legOf x)).state = .acquire ∧
        (t.leg (s.legOf x)).lockTimer = some ((s.leg (s.legOf x)).setup.lockTimeout * 1000)) ∧
      (((s.lane x).presence.raw = false ∧ (s.leg (s.legOf x)).state = .dark) ∨
          ((s.lane x).presence.raw = true ∧ ((s.leg (s.legOf x)).state ≠ .dark ∨
            ∃ y ∈ s.allMemberSides (s.legOf x), y ≠ x ∧ (s.lane y).presence.qualified = false)) →
        s.SameLegItems t (s.legOf x)) ∧
      ((s.lane x).presence.raw = true ∨ (s.leg (s.legOf x)).state = .dark →
        { t.lane x with
          presence := (s.lane x).presence, locked := (s.lane x).locked, counters := (s.lane x).counters } =
          s.lane x ∧
        (∀ d, { (t.leg (s.legOf x)).side d with relay := ((s.leg (s.legOf x)).side d).relay } =
          (s.leg (s.legOf x)).side d) ∧
        s.SameLanesBut [x] t ∧ s.SameTasks t ∧ s.SameSlotsBut [] t ∧ s.SamePagesBut [] t ∧ s.SameBytes t ∧
        s.SameAttention t)

/-- RECEIVER_LOCK while the leg is in ACQUIRE and every other member lane is LOCKED: the leg enters TUNE, the lock
timer stops, and a BRING_UP session starts on both sides: on every member lane side the next session mark, the own
start preset, the request of the partner start preset with tag 0, and phase CLIMBING. With another member lane still
UNLOCKED, and in any other state of the leg, the receiver is LOCKED and nothing else changes. -/
def Obligations.LastLockStartsTheSessions : Prop :=
  ∀ (x : LaneSide) (s : State), s.resetHeld = false → s.MapPermutes → s.NoWork → s.effective = .active →
    (s.lane x).presence.qualified = true → (s.lane x).locked = false →
    ((s.leg (s.legOf x)).state ≠ .acquire ∨
        (∃ y ∈ s.allMemberSides (s.legOf x), y ≠ x ∧ (s.lane y).locked = false) →
      ∃ t, Sys2Proof.Machine.exec (.receiverLock x) s = .next t ∧ t.lane x = { s.lane x with locked := true } ∧
        s.SameLanesBut [x] t ∧ s.SameLegsBut [] t ∧ s.SameOutside t) ∧
    ((s.leg (s.legOf x)).state = .acquire →
    (∀ y ∈ s.allMemberSides (s.legOf x), y ≠ x → (s.lane y).locked = true) →
    ∃ t, Sys2Proof.Machine.exec (.receiverLock x) s = .next t ∧
      (t.leg (s.legOf x)).state = .tune ∧ (t.leg (s.legOf x)).kind = .bringUp ∧
      (t.leg (s.legOf x)).lockTimer = none ∧ (t.leg (s.legOf x)).attempts = (s.leg (s.legOf x)).attempts ∧
      (∀ d, ((t.leg (s.legOf x)).side d).session = .running ∧ ((t.leg (s.legOf x)).side d).weak = 0 ∧
        ((t.leg (s.legOf x)).side d).timer = some ((s.leg (s.legOf x)).setup.sessionTimer * 100000)) ∧
      (∀ y ∈ s.allMemberSides (s.legOf x),
        (t.lane y).locked = true ∧
        (t.lane y).taps = loadPreset (s.leg (s.legOf x)).setup.rate (s.leg (s.legOf x)).setup.ownPreset ∧
        (t.lane y).tuner =
          { phase := .climbing, ownMark := (s.lane y).tuner.ownMark + 1, partnerMark := none, lastAnswered := none,
            reply := ⟨0, .none⟩, nextTag := 0,
            outstanding := some ⟨0, .preset (s.leg (s.legOf x)).setup.partnerPreset⟩, waitCount := 0,
            content := false, hold := 0 } ∧
        (t.lane y).climb.stage = .presetting ∧ (t.lane y).climb.best = none ∧ (t.lane y).climb.answered = 0 ∧
        (t.lane y).climb.threshold = (s.leg (s.legOf x)).setup.threshold ∧
        (t.lane y).climb.floor = (s.leg (s.legOf x)).setup.floor ∧
        (t.lane y).counters = (s.lane y).counters) ∧
      s.SameLanesBut (s.allMemberSides (s.legOf x)) t ∧ s.SameLegsBut [s.legOf x] t ∧ s.SameOutside t)

/-- RECEIVER_UNLOCK: in PARKED, DARK and ACQUIRE only the lock state changes; in TUNE and CARRYING the leg enters
ACQUIRE with its lock timer started and its attempt count kept, and the lane side's LOCK_LOSSES is counted. -/
def Obligations.LockLossSendsTheLegToAcquire : Prop :=
  ∀ (x : LaneSide) (s : State), s.resetHeld = false → s.MapPermutes → s.NoWork → (s.lane x).locked = true →
    ∃ t, Sys2Proof.Machine.exec (.receiverUnlock x) s = .next t ∧ (t.lane x).locked = false ∧
      ((s.leg (s.legOf x)).state = .parked ∨ (s.leg (s.legOf x)).state = .dark ∨
          (s.leg (s.legOf x)).state = .acquire →
        t.lane x = { s.lane x with locked := false } ∧ s.SameLanesBut [x] t ∧ s.SameLegsBut [] t ∧
        s.SameOutside t) ∧
      ((s.leg (s.legOf x)).state = .tune ∨ (s.leg (s.legOf x)).state = .carrying →
        (t.leg (s.legOf x)).state = .acquire ∧
        (t.leg (s.legOf x)).lockTimer = some ((s.leg (s.legOf x)).setup.lockTimeout * 1000) ∧
        (t.leg (s.legOf x)).attempts = (s.leg (s.legOf x)).attempts ∧
        (t.lane x).counters.lockLosses = (if (s.lane x).counters.lockLosses < 4294967295
          then (s.lane x).counters.lockLosses + 1 else (s.lane x).counters.lockLosses) ∧
        (t.lane x).counters.presenceDrops = (s.lane x).counters.presenceDrops ∧
        (∀ y, y ≠ x → (t.lane y).counters = (s.lane y).counters) ∧ (∀ y, (t.lane y).taps = (s.lane y).taps) ∧
        ((s.leg (s.legOf x)).state = .carrying → t.summary.getLsbD (16 + (s.legOf x).val) = true) ∧
        ((s.leg (s.legOf x)).state = .tune →
          ∀ d, ((s.leg (s.legOf x)).side d).session = .running →
            ((t.leg (s.legOf x)).side d).session = .idle ∧ ((t.leg (s.legOf x)).side d).weak = 0 ∧
            ((t.leg (s.legOf x)).side d).timer = none) ∧
        (t.engine (s.legOf x)).inFlight = (s.engine (s.legOf x)).inFlight ∧
        (t.leg (s.legOf x)).setup = (s.leg (s.legOf x)).setup ∧
        (t.leg (s.legOf x)).intent = (s.leg (s.legOf x)).intent ∧
        (∀ y, (t.lane y).presence = (s.lane y).presence ∧ (y ≠ x → (t.lane y).locked = (s.lane y).locked)) ∧
        s.SameLegsBut [s.legOf x] t ∧ s.SamePins t ∧ s.SamePower t ∧ s.SameDevice t ∧ s.SameMap t ∧
        s.SameFaults t ∧ s.SameLine t)

/-- LOCK_TIMER_EXPIRY: the attempt is counted and the cause LOCK_TIMEOUT recorded; below the limit the timer restarts
and the leg stays in ACQUIRE; at the limit the leg gives up: intent 0, given-up 1, PARKED, notice, and the awaited
task in flight DONE with BRING_UP_FAILED. -/
def Obligations.LockTimerExpiryCountsAnAttempt : Prop :=
  ∀ (l : LegId) (s : State), s.resetHeld = false → s.NoWork → (s.leg l).lockTimer.isSome = true →
    (s.leg l).state = .acquire →
    ∃ t, Sys2Proof.Machine.exec (.lockTimerExpiry l) s = .next t ∧
      (t.leg l).attempts = (s.leg l).attempts + 1 ∧ (t.leg l).cause = .lockTimeout ∧
      ((s.leg l).attempts + 1 < (s.leg l).setup.attemptLimit →
        (t.leg l).state = .acquire ∧ (t.leg l).lockTimer = some ((s.leg l).setup.lockTimeout * 1000) ∧
        (t.leg l).intent = (s.leg l).intent ∧ s.SameLanesBut [] t ∧ s.SameLegsBut [l] t ∧ s.SameOutside t) ∧
      ((s.leg l).setup.attemptLimit ≤ (s.leg l).attempts + 1 →
        (t.leg l).state = .parked ∧ (t.leg l).lockTimer = none ∧ (t.leg l).intent = false ∧
        (t.leg l).givenUp = true ∧ t.summary.getLsbD (16 + l.val) = true ∧
        (∀ d, ((t.leg l).side d).relay.squelching = false ∧ ((t.leg l).side d).relay.delay = none ∧
          ((t.leg l).side d).relay.pulse = none ∧
          ((t.leg l).side d).relay.armed = ((s.leg l).side d).relay.armed) ∧
        (t.engine l).inFlight = none ∧
        (∀ n, (s.engine l).inFlight = some n → (t.slot n).state = .done ∧ (t.slot n).status = .bringUpFailed) ∧
        s.SameLanesBut [] t ∧ s.SameLegsBut [l] t ∧ s.SamePins t ∧ s.SamePower t ∧ s.SameDevice t ∧ s.SameMap t ∧
        s.SameSlotsBut (s.engine l).inFlight.toList t ∧ s.SamePagesBut [] t ∧ s.SameFaults t ∧ s.SameLine t)

/-- The loss relay at a presence event, with no task waiting. A change to ABSENT on a leg that is not PARKED triggers
the direction that watches its side. FOLLOW: with the delay timer stopped and nothing squelched, the delay timer
starts, or with a delay of 0 the squelch begins. PULSE: an armed direction with both timers stopped is disarmed and
its delay timer starts, or with a delay of 0 (log 11) the pulse begins. A change to PRESENT that leaves the whole side
PRESENT releases it: FOLLOW stops the delay timer and lifts the squelch, PULSE only stops the delay timer. In OFF, and
in every other case, and in the other direction, nothing changes. -/
def Obligations.RelayTriggersAndReleases : Prop :=
  ∀ (x : LaneSide) (s : State), s.resetHeld = false → s.MapPermutes → s.NoWork →
    (s.lane x).presence.timer.isSome = true → (s.lane x).presence.raw ≠ (s.lane x).presence.qualified →
    ((s.lane x).presence.qualified = false → (s.lane x).locked = false) →
    ∃ t, Sys2Proof.Machine.exec (.qualificationTimerExpiry x) s = .next t ∧
      ((t.leg (s.legOf x)).side (otherSide x.side)).relay = ((s.leg (s.legOf x)).side (otherSide x.side)).relay ∧
      ((s.lane x).presence.raw = false → (s.leg (s.legOf x)).state ≠ .parked →
        ((t.leg (s.legOf x)).side x.side).relay =
          (let r := ((s.leg (s.legOf x)).side x.side).relay
           let delay := (s.leg (s.legOf x)).setup.relayDelay
           match (s.leg (s.legOf x)).setup.relayMode with
           | .off => r
           | .follow =>
             if r.delay = none ∧ r.squelching = false then
               (if delay = 0 then { r with squelching := true } else { r with delay := some (delay * 1000) })
             else r
           | .pulse =>
             if r.armed = true ∧ r.delay = none ∧ r.pulse = none then
               (if delay = 0 then ⟨false, none, some ((s.leg (s.legOf x)).setup.pulseWidth * 1000), true⟩
                else { r with armed := false, delay := some (delay * 1000) })
             else r)) ∧
      ((s.lane x).presence.raw = true →
        (∀ y ∈ s.memberSides (s.legOf x) x.side, y ≠ x → (s.lane y).presence.qualified = true) →
        ((t.leg (s.legOf x)).side x.side).relay =
          (let r := ((s.leg (s.legOf x)).side x.side).relay
           match (s.leg (s.legOf x)).setup.relayMode with
           | .off => r
           | .follow => { r with delay := none, squelching := false }
           | .pulse => { r with delay := none })) ∧
      (((s.lane x).presence.raw = false ∧ (s.leg (s.legOf x)).state = .parked) ∨
          ((s.lane x).presence.raw = true ∧
            ∃ y ∈ s.memberSides (s.legOf x) x.side, y ≠ x ∧ (s.lane y).presence.qualified = false) →
        ((t.leg (s.legOf x)).side x.side).relay = ((s.leg (s.legOf x)).side x.side).relay)

/-- RELAY_DELAY_EXPIRY: in FOLLOW the other side is squelched if the watched side is incomplete, in PULSE it is
squelched and the pulse timer starts at the pulse width, in OFF nothing is squelched; the timer stops. RELAY_PULSE_END:
the squelch of the direction ends. In either, nothing but the relay of that direction changes. -/
def Obligations.RelayTimersSquelchAndRelease : Prop :=
  ∀ (l : LegId) (watched : Side) (s : State), s.resetHeld = false →
    (((s.leg l).side watched).relay.pulse.isSome = true →
      ∃ t, Sys2Proof.Machine.exec (.relayPulseEnd l watched) s = .next t ∧
        (t.leg l).side watched = { (s.leg l).side watched with relay :=
          { ((s.leg l).side watched).relay with pulse := none, squelching := false } } ∧
        (t.leg l).side (otherSide watched) = (s.leg l).side (otherSide watched) ∧
        s.SameLegItems t l ∧ s.SameLanesBut [] t ∧ s.SameLegsBut [l] t ∧ s.SameOutside t) ∧
    (((s.leg l).side watched).relay.delay.isSome = true →
      ∃ t, Sys2Proof.Machine.exec (.relayDelayExpiry l watched) s = .next t ∧
        (t.leg l).side watched = { (s.leg l).side watched with relay :=
          match (s.leg l).setup.relayMode with
          | .off => { ((s.leg l).side watched).relay with delay := none }
          | .follow => { ((s.leg l).side watched).relay with
              delay := none
              squelching := ((s.leg l).side watched).relay.squelching ||
                decide (∃ x ∈ s.memberSides l watched, (s.lane x).presence.qualified = false) }
          | .pulse => { ((s.leg l).side watched).relay with
              delay := none, squelching := true, pulse := some ((s.leg l).setup.pulseWidth * 1000) } } ∧
        (t.leg l).side (otherSide watched) = (s.leg l).side (otherSide watched) ∧
        ((s.leg l).setup.relayMode = .pulse → (s.leg l).state ≠ .parked → s.used l = true →
          ∀ i ∈ s.members l, s.MapPermutes → t.transmit (s.sideOf i (otherSide watched)) = .squelched) ∧
        s.SameLegItems t l ∧ s.SameLanesBut [] t ∧ s.SameLegsBut [l] t ∧ s.SameOutside t)

/-- R13: the observed transmit state: SQUELCHED while RESET_L is held or the power is not ACTIVE; SQUELCHED on a side
that the relay of a leg that is not PARKED holds squelched; else by the leg state and the lane function. -/
def Obligations.TransmitStateFollowsTheTable : Prop :=
  ∀ (x : LaneSide) (s : State),
    (s.resetHeld = true ∨ s.effective ≠ .active → s.transmit x = .squelched) ∧
    (s.resetHeld = false → s.effective = .active →
      ((s.leg (s.legOf x)).state ≠ .parked →
        ((s.leg (s.legOf x)).side (otherSide x.side)).relay.squelching = true → s.transmit x = .squelched) ∧
      ((s.leg (s.legOf x)).state ≠ .parked →
        ((s.leg (s.legOf x)).side (otherSide x.side)).relay.squelching = false →
        s.transmit x = (if (s.leg (s.legOf x)).state = .carrying then .data else .frames)) ∧
      ((s.leg (s.legOf x)).state = .parked →
        s.transmit x =
          (match x.side, (s.entry (s.lineOf x)).function with
           | .line, .loopFar => .loop
           | .switch, .loopNear => .loop
           | _, _ => .squelched)))

/-- What stands at the pins of a transmitter, for any signals at the receivers' pins (log 24), whatever the lock of the
receivers (log 36). A line lane in DATA sends
what its source switch lane receives, and that switch lane in DATA what the line lane receives, each byte inverted when
exactly one of the two polarities is INVERTED (log 10); a transmitter in LOOP sends what its own receiver receives, in
its own polarity, and nothing while that receiver is ABSENT; one in FRAMES a frame of its own lane tuner, whatever is
received; a SQUELCHED one nothing. -/
def Obligations.DataPathFollowsTheMap : Prop :=
  ∀ (s : State) (pins : Signals), s.MapPermutes →
    (∀ i : LaneId,
      (s.transmit ⟨.line, i⟩ = .data →
        s.output pins ⟨.line, i⟩ = some ((pins ⟨.switch, (s.entry i).source⟩).map (fun b =>
          if (s.entry i).switchPolarity = (s.entry i).linePolarity then b else ~~~b))) ∧
      (s.transmit ⟨.switch, (s.entry i).source⟩ = .data →
        s.output pins ⟨.switch, (s.entry i).source⟩ = some ((pins ⟨.line, i⟩).map (fun b =>
          if (s.entry i).switchPolarity = (s.entry i).linePolarity then b else ~~~b)))) ∧
    (∀ x : LaneSide,
      (s.transmit x = .loop → (s.lane x).presence.qualified = true → s.output pins x = some (pins x)) ∧
      (s.transmit x = .loop → (s.lane x).presence.qualified = false → s.output pins x = none) ∧
      (s.transmit x = .frames → ∃ f : FrameFields, f.taps = (s.lane x).taps ∧ f.mark = (s.lane x).tuner.ownMark ∧
        s.output pins x = some (f.bytes.map (fun b => if s.polarity x = .inverted then ~~~b else b)) ∧
        ∀ other : Signals, s.output other x = s.output pins x) ∧
      (s.transmit x = .squelched → s.output pins x = none))

/-! ### The tuning exchange (Sections 3 and 11.7) -/

/-- Encoding and decoding of a tuning frame agree: the eight bytes that a tuner sends for any fields are a good frame,
and decode to the same request, reply, CONTENT and session mark. -/
def Obligations.FrameDecodesToItsFields : Prop :=
  ∀ (f : FrameFields) (bytes : Vector Byte 8), bytes.toList = f.bytes →
    frameGood bytes = true ∧
    decodeFrame bytes = { reqTag := f.reqTag, reqKind := f.reqKind, reqTap := f.reqTap, reqArg := f.reqArg,
                          repTag := f.reply.tag, outcome := some f.reply.outcome, content := f.content, mark := f.mark }

/-- TUNING_FRAME_SENT, at the lane side's polarity (the complement of log 10), recorded as sent when the transmit
state is FRAMES (logs 14 and 15). In DARK and ACQUIRE the frame carries no request, reply tag 0 with NONE, CONTENT
clear, the present taps and the own session mark, and only the record of it changes. In TUNE, short of the
request-wait limit, it carries the outstanding request or none, the current reply, CONTENT, the taps and the own mark;
the wait count of a request that it carries out of the transmitter rises by one when the limit is finite, and not
while the side is squelched; only that count and the record of the frame change. -/
def Obligations.FrameCarriesTheRecord : Prop :=
  ∀ (x : LaneSide) (s : State), s.resetHeld = false →
    ((s.leg (s.legOf x)).state = .dark ∨ (s.leg (s.legOf x)).state = .acquire →
      ∃ t, Sys2Proof.Machine.exec (.tuningFrameSent x) s = .next t ∧
        (t.lane x).frame = some
          ⟨(FrameFields.bytes ⟨0, 0, 0, 0, ⟨0, .none⟩, false, (s.lane x).taps, (s.lane x).tuner.ownMark⟩).map
              (fun b => if s.polarity x = .inverted then ~~~b else b),
            decide (s.transmit x = .frames)⟩ ∧
        { t.lane x with frame := (s.lane x).frame } = s.lane x ∧
        s.SameLanesBut [x] t ∧ s.SameLegsBut [] t ∧ s.SameOutside t) ∧
    ((s.leg (s.legOf x)).state = .tune →
      (∀ m, (s.leg (s.legOf x)).setup.requestWait.limit = some m → (s.lane x).tuner.waitCount + 1 < m) →
      ∃ t, Sys2Proof.Machine.exec (.tuningFrameSent x) s = .next t ∧
        (∃ f : FrameFields, (t.lane x).frame = some
            ⟨f.bytes.map (fun b => if s.polarity x = .inverted then ~~~b else b),
              decide (s.transmit x = .frames)⟩ ∧
          f.reply = (s.lane x).tuner.reply ∧ f.content = (s.lane x).tuner.content ∧ f.taps = (s.lane x).taps ∧
          f.mark = (s.lane x).tuner.ownMark ∧
          (match (s.lane x).tuner.outstanding with
           | none => f.reqTag = 0 ∧ f.reqKind = 0 ∧ f.reqTap = 0 ∧ f.reqArg = 0
           | some ⟨tag, .nudge tap step⟩ =>
             f.reqTag = tag ∧ f.reqKind = 1 ∧ f.reqTap = tap.code ∧ f.reqArg = BitVec.ofInt 8 step
           | some ⟨tag, .preset n⟩ => f.reqTag = tag ∧ f.reqKind = 2 ∧ f.reqArg = BitVec.ofNat 8 n.val)) ∧
        t.lane x = { s.lane x with
          frame := (t.lane x).frame
          tuner := { (s.lane x).tuner with waitCount :=
            if (s.lane x).tuner.outstanding.isSome = true ∧ s.transmit x = .frames ∧
                (s.leg (s.legOf x)).setup.requestWait ≠ .unlimited
              then (s.lane x).tuner.waitCount + 1 else (s.lane x).tuner.waitCount } } ∧
        s.SameLanesBut [x] t ∧ s.SameLegsBut [] t ∧ s.SameOutside t)

/-- SESSION_TIMER_EXPIRY of a running session: it fails with TUNE_TIMEOUT; and REQUEST_WAIT_TIMEOUT, the sending of
the frame that brings the wait count of an outstanding request to the limit (log 12): the session of the side fails
with NO_REPLY. The leg follows its fallback. -/
def Obligations.TimeoutsFailTheSession : Prop :=
  ∀ (l : LegId) (side : Side) (s : State), s.resetHeld = false → s.NoWork → (s.leg l).state = .tune →
    ((s.leg l).side side).session = .running →
    (((s.leg l).side side).timer.isSome = true →
      ∃ t, Sys2Proof.Machine.exec (.sessionTimerExpiry l side) s = .next t ∧ s.FollowsFallback t l side .tuneTimeout ∧
        s.SameLanesBut (s.allMemberSides l) t ∧
        s.SameLegsBut [l] t ∧ s.SamePins t ∧ s.SamePower t ∧ s.SameDevice t ∧ s.SameMap t ∧ s.SameFaults t ∧
        s.SameLine t) ∧
    (∀ (x : LaneSide) (m : Nat), s.legOf x = l → x.side = side → (s.lane x).tuner.outstanding.isSome = true →
      (s.leg l).setup.requestWait.limit = some m → m ≤ (s.lane x).tuner.waitCount + 1 → s.transmit x = .frames →
      ∃ t, Sys2Proof.Machine.exec (.requestWaitTimeout x) s = .next t ∧ s.FollowsFallback t l side .noReply ∧
        s.SameLanesBut (x :: s.allMemberSides l) t ∧
        s.SameLegsBut [l] t ∧ s.SamePins t ∧ s.SamePower t ∧ s.SameDevice t ∧ s.SameMap t ∧ s.SameFaults t ∧
        s.SameLine t)

/-- TUNING_FRAME_RECEIVED. A frame whose bytes after the polarity stage (the complement of log 10) do not sum to 255:
BAD_FRAMES is counted and nothing else changes. A good frame without a request that shows another session mark than
the partner's recorded one: the mark is recorded and the last answered tag, the reply and the hold are cleared; the
phase, the own request and the taps stand, and nothing else changes. Such a frame with no mark recorded yet, the first
of a session: the mark is recorded, a HOLDING lane side's hold is 0, and nothing else changes. -/
def Obligations.BadFramesAndRestarts : Prop :=
  ∀ (x : LaneSide) (frame : Vector Byte 8) (s : State), s.resetHeld = false →
    (s.leg (s.legOf x)).state = .tune → (s.lane x).locked = true →
    ((frame.map (fun b => if s.polarity x = .inverted then ~~~b else b)).toList.sum ≠ 255 →
      ∃ t, Sys2Proof.Machine.exec (.tuningFrameReceived x frame) s = .next t ∧
        t.lane x = { s.lane x with counters := { (s.lane x).counters with badFrames :=
          if (s.lane x).counters.badFrames < 4294967295 then (s.lane x).counters.badFrames + 1
          else (s.lane x).counters.badFrames } } ∧
        s.SameLanesBut [x] t ∧ s.SameLegsBut [] t ∧ s.SameOutside t) ∧
    (∀ (f : RxFrame) (m : Byte), s.MapPermutes →
      frameGood (s.afterPolarity x frame) = true → f = decodeFrame (s.afterPolarity x frame) →
      (s.lane x).tuner.partnerMark = some m → m ≠ f.mark → f.reqKind = 0 →
      (s.lane x).tuner.replyIn f = none → f.content = false → (s.lane x).tuner.phase ≠ .agreed →
      ∃ t, Sys2Proof.Machine.exec (.tuningFrameReceived x frame) s = .next t ∧
        t.lane x = { s.lane x with tuner := { (s.lane x).tuner with
          partnerMark := some f.mark, lastAnswered := none, reply := ⟨0, .none⟩, hold := 0 } } ∧
        s.SameLanesBut [x] t ∧ s.SameLegsBut [] t ∧ s.SameOutside t) ∧
    (∀ f : RxFrame, s.MapPermutes →
      frameGood (s.afterPolarity x frame) = true → f = decodeFrame (s.afterPolarity x frame) →
      (s.lane x).tuner.partnerMark = none → f.reqKind = 0 →
      (s.lane x).tuner.replyIn f = none → f.content = false → (s.lane x).tuner.phase ≠ .agreed →
      ∃ t, Sys2Proof.Machine.exec (.tuningFrameReceived x frame) s = .next t ∧
        t.lane x = { s.lane x with tuner := { (s.lane x).tuner with
          partnerMark := some f.mark
          hold := if (s.lane x).tuner.phase = .holding then 0 else (s.lane x).tuner.hold } } ∧
        s.SameLanesBut [x] t ∧ s.SameLegsBut [] t ∧ s.SameOutside t)

/-- TUNING_FRAME_RECEIVED, a good frame of the known session mark with a new request, on a lane side that is CLIMBING
or FAILED with no request of its own outstanding: the fourth kind, a NUDGE of the fourth tap or of a step outside −3 to
+3 or of 0 is answered BAD_REQUEST, a PRESET above 4 BAD_PRESET, and the taps stand; a PRESET of 0 to 4 loads its triple
(PRE 0 in RC-A) with APPLIED; any other NUDGE is handled by the arithmetic. The reply takes the request's tag and the
request is counted; nothing else changes. -/
def Obligations.NewRequestIsAnswered : Prop :=
  ∀ (x : LaneSide) (frame : Vector Byte 8) (f : RxFrame) (s : State), s.resetHeld = false → s.MapPermutes →
    (s.leg (s.legOf x)).state = .tune → (s.lane x).locked = true →
    frameGood (s.afterPolarity x frame) = true → f = decodeFrame (s.afterPolarity x frame) →
    (s.lane x).tuner.partnerMark = some f.mark → f.reqKind ≠ 0 →
    (s.lane x).tuner.lastAnswered ≠ some f.reqTag → (s.lane x).tuner.outstanding = none →
    (s.lane x).tuner.phase = .climbing ∨ (s.lane x).tuner.phase = .failed →
    ∃ (t : State) (o : ReplyOutcome) (taps : Taps),
      Sys2Proof.Machine.exec (.tuningFrameReceived x frame) s = .next t ∧
      t.lane x = { s.lane x with
        taps := taps
        tuner := { (s.lane x).tuner with lastAnswered := some f.reqTag, reply := ⟨f.reqTag, o⟩ }
        counters := { (s.lane x).counters with requestsAnswered :=
          if (s.lane x).counters.requestsAnswered < 4294967295 then (s.lane x).counters.requestsAnswered + 1
          else (s.lane x).counters.requestsAnswered } } ∧
      (f.reqKind = 3 ∨
          (f.reqKind = 1 ∧ (f.reqTap = 3 ∨ f.reqArg.toInt = 0 ∨ 3 < f.reqArg.toInt ∨ f.reqArg.toInt < -3)) →
        o = .badRequest ∧ taps = (s.lane x).taps) ∧
      (f.reqKind = 2 → 4 < f.reqArg.toNat → o = .badPreset ∧ taps = (s.lane x).taps) ∧
      (f.reqKind = 2 → f.reqArg.toNat ≤ 4 → o = .applied ∧
        taps = ⟨if (s.leg (s.legOf x)).setup.rate = .rcA then 0
            else if f.reqArg = 2 then -6 else if f.reqArg = 3 then -8 else 0,
          if f.reqArg = 0 then 60 else if f.reqArg = 1 then 48 else if f.reqArg = 2 then 42
            else if f.reqArg = 3 then 36 else 40,
          if f.reqArg = 1 ∨ f.reqArg = 2 then -12 else if f.reqArg = 3 then -16 else 0⟩) ∧
      (∀ tap : Tap, f.reqKind = 1 → f.reqTap = (match tap with
          | .pre => 0
          | .main => 1
          | .post => 2) → f.reqArg.toInt ≠ 0 → -3 ≤ f.reqArg.toInt → f.reqArg.toInt ≤ 3 →
        (o, taps) = nudge (s.leg (s.legOf x)).setup.budget (s.leg (s.legOf x)).setup.rate (s.lane x).taps tap
          f.reqArg.toInt) ∧
      s.SameLanesBut [x] t ∧ s.SameLegsBut [] t ∧ s.SameOutside t

/-- TUNING_FRAME_RECEIVED, a good frame on an AGREED lane side of a side that is DONE, or whose session still waits for
another lane side: whatever it asks, the taps stand, the lane side stays AGREED, a new request is answered FROZEN and
counted, and a repeated one changes nothing. -/
def Obligations.AgreedLaneIsFrozen : Prop :=
  ∀ (x : LaneSide) (frame : Vector Byte 8) (f : RxFrame) (s : State), s.resetHeld = false →
    (s.leg (s.legOf x)).state = .tune → (s.lane x).locked = true →
    frameGood (s.afterPolarity x frame) = true → f = decodeFrame (s.afterPolarity x frame) →
    ((s.leg (s.legOf x)).side x.side).session ≠ .running ∨
      (∃ y ∈ s.memberSides (s.legOf x) x.side, (s.lane y).tuner.phase ≠ .agreed) →
    (s.lane x).tuner.phase = .agreed → (s.lane x).tuner.outstanding = none →
    ∃ t, Sys2Proof.Machine.exec (.tuningFrameReceived x frame) s = .next t ∧
      { t.lane x with tuner := (s.lane x).tuner, counters := (s.lane x).counters } = s.lane x ∧
      (t.lane x).tuner.phase = .agreed ∧
      (t.lane x).tuner.content = (s.lane x).tuner.content ∧
      ((s.lane x).tuner.partnerMark = some f.mark →
        (f.reqKind ≠ 0 → (s.lane x).tuner.lastAnswered ≠ some f.reqTag →
          t.lane x = { s.lane x with
            tuner := { (s.lane x).tuner with reply := ⟨f.reqTag, .frozen⟩, lastAnswered := some f.reqTag }
            counters := { (s.lane x).counters with requestsAnswered :=
              if (s.lane x).counters.requestsAnswered < 4294967295 then (s.lane x).counters.requestsAnswered + 1
              else (s.lane x).counters.requestsAnswered } }) ∧
        (f.reqKind = 0 ∨ (s.lane x).tuner.lastAnswered = some f.reqTag → t.lane x = s.lane x)) ∧
      s.SameLanesBut [x] t ∧ s.SameLegsBut [] t ∧ s.SameOutside t

/-- TUNING_FRAME_RECEIVED, a good frame of the known session mark without a request, on a lane side that is HOLDING.
Without CONTENT it sets the hold to 0, with CONTENT it raises the hold by one, and at 16 the lane side is AGREED; short
of the last agreement nothing else changes. The frame that brings the hold of the last lane side of a running session
to 16 while the other side is not DONE: the session is DONE with its session timer stopped, the leg stays in TUNE, and
nothing else changes. The frame that brings the hold of the last lane side to 16 while the other
side is DONE: the session is DONE and the leg enters CARRYING: attempt count 0, the grade by the weak-lane masks, relay
re-armed, entry counted, notice, every tuner of the leg IDLE with its taps kept, and the task in flight finished. Where
an EYE_SCAN waits in the leg's queue for a FREE page, that entry starts its scan or puts its check off (log 37). -/
def Obligations.LastAgreementEntersCarrying : Prop :=
  ∀ (x : LaneSide) (frame : Vector Byte 8) (f : RxFrame) (s : State), s.resetHeld = false → s.MapPermutes →
    (s.leg (s.legOf x)).state = .tune → (s.lane x).locked = true →
    frameGood (s.afterPolarity x frame) = true → f = decodeFrame (s.afterPolarity x frame) →
    (s.lane x).tuner.partnerMark = some f.mark → f.reqKind = 0 →
    (s.lane x).tuner.outstanding = none → (s.lane x).tuner.phase = .holding →
    (f.content = false ∨ (s.lane x).tuner.hold + 1 < 16 →
      ∃ t, Sys2Proof.Machine.exec (.tuningFrameReceived x frame) s = .next t ∧
        t.lane x = { s.lane x with tuner := { (s.lane x).tuner with
          hold := if f.content then (s.lane x).tuner.hold + 1 else 0 } } ∧
        s.SameLanesBut [x] t ∧ s.SameLegsBut [] t ∧ s.SameOutside t) ∧
    (f.content = true → (s.lane x).tuner.hold = 15 →
      (∃ y ∈ s.memberSides (s.legOf x) x.side, y ≠ x ∧ (s.lane y).tuner.phase ≠ .agreed) →
      ∃ t, Sys2Proof.Machine.exec (.tuningFrameReceived x frame) s = .next t ∧
        t.lane x = { s.lane x with tuner := { (s.lane x).tuner with hold := 16, phase := .agreed } } ∧
        s.SameLanesBut [x] t ∧ s.SameLegsBut [] t ∧ s.SameOutside t) ∧
    (f.content = true → (s.lane x).tuner.hold = 15 →
      (∀ y ∈ s.memberSides (s.legOf x) x.side, y ≠ x → (s.lane y).tuner.phase = .agreed) →
      ((s.leg (s.legOf x)).side x.side).session = .running →
      ((s.leg (s.legOf x)).side (otherSide x.side)).session ≠ .done →
      ∃ t, Sys2Proof.Machine.exec (.tuningFrameReceived x frame) s = .next t ∧
        t.lane x = { s.lane x with tuner := { (s.lane x).tuner with hold := 16, phase := .agreed } } ∧
        (t.leg (s.legOf x)).state = .tune ∧
        (t.leg (s.legOf x)).side x.side =
          { (s.leg (s.legOf x)).side x.side with session := .done, timer := none } ∧
        (t.leg (s.legOf x)).side (otherSide x.side) = (s.leg (s.legOf x)).side (otherSide x.side) ∧
        s.SameLegItems t (s.legOf x) ∧ s.SameLanesBut [x] t ∧ s.SameLegsBut [s.legOf x] t ∧ s.SameOutside t) ∧
    (s.NoWork → f.content = true → (s.lane x).tuner.hold = 15 →
      (∀ y ∈ s.memberSides (s.legOf x) x.side, y ≠ x → (s.lane y).tuner.phase = .agreed) →
      ((s.leg (s.legOf x)).side x.side).session = .running →
      ((s.leg (s.legOf x)).side (otherSide x.side)).session = .done →
      ∃ t, Sys2Proof.Machine.exec (.tuningFrameReceived x frame) s = .next t ∧
        (t.leg (s.legOf x)).state = .carrying ∧ (t.leg (s.legOf x)).attempts = 0 ∧
        (t.leg (s.legOf x)).grade =
          (if (s.leg (s.legOf x)).line.weak = 0 ∧ (s.leg (s.legOf x)).switch.weak = 0 then .full else .degraded) ∧
        (∀ d, ((t.leg (s.legOf x)).side d).session = .done ∧ ((t.leg (s.legOf x)).side d).relay.armed = true ∧
          ((t.leg (s.legOf x)).side d).weak = ((s.leg (s.legOf x)).side d).weak) ∧
        ((t.leg (s.legOf x)).side x.side).timer = none ∧
        (t.leg (s.legOf x)).carryEntries = nextCount (s.leg (s.legOf x)).carryEntries ∧
        (t.leg (s.legOf x)).intent = (s.leg (s.legOf x)).intent ∧
        t.summary.getLsbD (16 + (s.legOf x).val) = true ∧
        s.TaskFinished t (s.legOf x) (if (s.leg (s.legOf x)).line.weak = 0 ∧ (s.leg (s.legOf x)).switch.weak = 0
          then .ok else .okDegraded) ∧
        (∀ y ∈ s.allMemberSides (s.legOf x), (t.lane y).tuner.phase = .idle ∧
          (t.lane y).tuner.ownMark = (s.lane y).tuner.ownMark) ∧
        (∀ y, (t.lane y).taps = (s.lane y).taps) ∧ s.SameLanesBut (s.allMemberSides (s.legOf x)) t ∧
        s.SameLegsBut [s.legOf x] t ∧ s.SamePins t ∧ s.SamePower t ∧ s.SameDevice t ∧ s.SameMap t ∧ s.SameFaults t ∧
        s.SameLine t ∧ t.owed = s.owed) ∧
    (∀ (e : Entry) (p : PageId) (c : Page), s.ScanWaits (s.legOf x) e p c → s.handOver = [] →
      (s.page p).state = .free → (s.lane (s.sideOf c.lane c.side)).monitor ≠ .scanning →
      (s.engine (s.legOf x)).inFlight ≠ some e.slot → f.content = true → (s.lane x).tuner.hold = 15 →
      (∀ y ∈ s.memberSides (s.legOf x) x.side, y ≠ x → (s.lane y).tuner.phase = .agreed) →
      ((s.leg (s.legOf x)).side x.side).session = .running →
      ((s.leg (s.legOf x)).side (otherSide x.side)).session = .done →
      ∃ t, Sys2Proof.Machine.exec (.tuningFrameReceived x frame) s = .next t ∧
        (t.leg (s.legOf x)).state = .carrying ∧ s.ScanStartsOrIsPutOff t (s.legOf x) e p c)

/-! ### The climb and the eye scans (Sections 5 and 6) -/

/-- MARGIN_READING_COMPLETE. Of the start reading: the value is the best margin; with frozen seen the climb ends, else
the POST pass begins with its trial check. After a trial: a value of at least the best margin plus the threshold is
kept as the best margin and followed by the trial check in the same direction; any other is undone by the opposite
NUDGE, the best margin kept. A reading that no climb waits for changes only the monitor. -/
def Obligations.MarginReadingMovesTheClimb : Prop :=
  ∀ (x : LaneSide) (value : Fin 64) (left : Nat) (s : State), s.resetHeld = false →
    (s.lane x).monitor = .reading left →
    ∃ t, Sys2Proof.Machine.exec (.marginReadingComplete x value) s = .next t ∧ s.SameLanesBut [x] t ∧
      s.SameOutside t ∧
      ((s.lane x).climb.stage = .baseline →
        ((s.lane x).climb.frozenSeen = true → s.ClimbEnds t x { s.lane x with
          monitor := .idle, climb := { (s.lane x).climb with best := some value.val } }) ∧
        ((s.lane x).climb.frozenSeen = false → s.ClimbTries t x { s.lane x with
          monitor := .idle
          climb := { (s.lane x).climb with best := some value.val, tap := .post, direction := .up, improved := false,
                                           triedOpposite := false } } (s.lane x).tuner.hold)) ∧
      (∀ b, (s.lane x).climb.stage = .measuring → (s.lane x).climb.best = some b →
        (b + (s.lane x).climb.threshold ≤ value.val → s.ClimbTries t x { s.lane x with
          monitor := .idle
          climb := { (s.lane x).climb with best := some value.val, improved := true } } (s.lane x).tuner.hold) ∧
        (value.val < b + (s.lane x).climb.threshold → s.ClimbNudges t x { s.lane x with monitor := .idle }
          (match (s.lane x).climb.direction with
           | .up => -1
           | .down => 1) .reverting)) ∧
      ((s.lane x).climb.stage ≠ .baseline → (s.lane x).climb.stage ≠ .measuring →
        t.lane x = { s.lane x with monitor := .idle } ∧ s.SameLegsBut [] t)

/-- TUNING_FRAME_RECEIVED, a good frame of the known mark without a request, on a CLIMBING lane side. With the reply
to the outstanding request the request ends, the next tag rises and the climb counts the answer: in PRESETTING the
start reading begins; a trial APPLIED or CLIPPED is measured; one answered otherwise, and a revert, lead to the pass
decision (the opposite direction, the PRE pass, or the end), and FROZEN to the end. The frame that ends a climb counts
toward the agreement if it carries CONTENT. Without such a reply nothing changes. -/
def Obligations.RepliesMoveTheClimb : Prop :=
  ∀ (x : LaneSide) (frame : Vector Byte 8) (f : RxFrame) (s : State), s.resetHeld = false → s.MapPermutes →
    (s.leg (s.legOf x)).state = .tune → (s.lane x).locked = true →
    frameGood (s.afterPolarity x frame) = true → f = decodeFrame (s.afterPolarity x frame) →
    (s.lane x).tuner.partnerMark = some f.mark → f.reqKind = 0 → (s.lane x).tuner.phase = .climbing →
    (s.lane x).tuner.hold = 0 →
    ∃ t, Sys2Proof.Machine.exec (.tuningFrameReceived x frame) s = .next t ∧ s.SameLanesBut [x] t ∧
      s.SameOutside t ∧
      ((∀ r, (s.lane x).tuner.outstanding = some r →
          f.repTag ≠ r.tag ∨ f.outcome = none ∨ f.outcome = some .none) →
        t.lane x = s.lane x ∧ s.SameLegsBut [] t) ∧
      (∀ (r : Request) (o : ReplyOutcome) (c : Climb) (v : LaneState) (hold : Nat),
        (s.lane x).tuner.outstanding = some r → f.repTag = r.tag → f.outcome = some o → o ≠ .none →
        c = { (s.lane x).climb with
          answered := (s.lane x).climb.answered + 1
          frozenSeen := (s.lane x).climb.frozenSeen || decide (o = .frozen) } →
        v = { s.lane x with
          climb := c
          tuner := { (s.lane x).tuner with outstanding := none, nextTag := (s.lane x).tuner.nextTag + 1 } } →
        hold = (if f.content then 1 else 0) →
        (c.stage = .presetting →
          t.lane x = { v with climb := { c with stage := .baseline }, monitor := .reading 200 } ∧
          s.SameLegsBut [] t) ∧
        (c.stage = .trial → o = .applied ∨ o = .clipped →
          t.lane x = { v with climb := { c with stage := .measuring }, monitor := .reading 200 } ∧
          s.SameLegsBut [] t) ∧
        (c.stage = .trial ∨ c.stage = .reverting → o = .frozen →
          s.ClimbEnds t x { v with tuner := { v.tuner with hold := hold } }) ∧
        ((c.stage = .trial ∧ (o = .pinned ∨ o = .badPreset ∨ o = .badRequest)) ∨
            (c.stage = .reverting ∧ o ≠ .frozen) →
          (c.improved = false → c.triedOpposite = false → s.ClimbTries t x { v with climb := { c with
            triedOpposite := true
            direction := match c.direction with
              | .up => .down
              | .down => .up } } hold) ∧
          (c.improved = true ∨ c.triedOpposite = true → c.tap = .post → s.ClimbTries t x { v with climb := { c with
            tap := .pre, direction := .up, improved := false, triedOpposite := false } } hold) ∧
          (c.improved = true ∨ c.triedOpposite = true → c.tap = .pre →
            s.ClimbEnds t x { v with tuner := { v.tuner with hold := hold } })) ∧
        (c.stage ≠ .presetting → c.stage ≠ .trial → c.stage ≠ .reverting →
          t.lane x = { v with climb := (s.lane x).climb } ∧ s.SameLegsBut [] t))

/-- SCAN_CELL_COMPLETE of a running scan, with no task waiting: the count, at most 255, stands in the cell of the scan's
number of cells done, and that number rises by one. Short of the last cell and with no cancel asked the next cell
begins and nothing else changes; at the last cell, or with a cancel asked, the page is HELD with outcome COMPLETE or
CANCELLED, the monitor IDLE, and the slot DONE with OK or CANCELLED, its result the page, the outcome and the cells
done. Where an EYE_SCAN of the same lane side waits in the queue of the CARRYING leg for a FREE page, the last cell
starts its scan or puts its check off (log 37). -/
def Obligations.ScanCellsFillThePage : Prop :=
  ∀ (p : PageId) (errors : Nat) (slot : SlotId) (left : Nat) (s : State), s.resetHeld = false →
    s.mem.wf = true → (s.page p).state = .busy slot left → (s.page p).cellsDone < 512 →
    (s.NoWork → ∃ t, Sys2Proof.Machine.exec (.scanCellComplete p errors) s = .next t ∧
      (t.page p).cellsDone = (s.page p).cellsDone + 1 ∧
      t.mem.read (pageBase p + 0x200 + (s.page p).cellsDone) = BitVec.ofNat 8 (min errors 255) ∧
      s.SamePagesBut [p] t ∧ s.SameLegsBut [] t ∧ s.SamePins t ∧ s.SamePower t ∧ s.SameDevice t ∧ s.SameMap t ∧
      s.SameTasks t ∧ s.SameFaults t ∧ s.SameLine t ∧ s.SameSettings t ∧
      ((s.slot slot).cancelAsked = false → (s.page p).cellsDone < 511 →
        t.page p = { s.page p with
          cellsDone := (s.page p).cellsDone + 1, state := .busy slot ((s.page p).dwell * 1000) } ∧
        (∀ a, a ≠ pageBase p + 0x200 + (s.page p).cellsDone → t.mem.read a = s.mem.read a) ∧
        s.SameLanesBut [] t ∧ s.SameSlotsBut [] t ∧ s.SameAttention t) ∧
      ((s.slot slot).cancelAsked = true ∨ (s.page p).cellsDone = 511 →
        t.page p = { s.page p with
          cellsDone := (s.page p).cellsDone + 1, state := .held
          outcome := if (s.slot slot).cancelAsked then .cancelled else .complete } ∧
        t.lane (s.sideOf (s.page p).lane (s.page p).side) =
          { s.lane (s.sideOf (s.page p).lane (s.page p).side) with monitor := .idle } ∧
        t.slot slot = ⟨.done, if (s.slot slot).cancelAsked then .cancelled else .ok, (s.slot slot).cancelAsked⟩ ∧
        t.summary = s.summary ||| (1#32 <<< slot.val) ∧
        t.slotByte slot 0x80 = BitVec.ofNat 8 p.val ∧
        t.slotByte slot 0x81 = (if (s.slot slot).cancelAsked then 3 else 1) ∧
        t.slotByte slot 0x82 = BitVec.ofNat 8 ((s.page p).cellsDone + 1) ∧
        t.slotByte slot 0x83 = BitVec.ofNat 8 (((s.page p).cellsDone + 1) / 256) ∧
        (∀ a, a ≠ pageBase p + 0x200 + (s.page p).cellsDone →
          ¬(slotBase slot + 0x80 ≤ a ∧ a < slotBase slot + 0x84) → t.mem.read a = s.mem.read a) ∧
        s.SameLanesBut [s.sideOf (s.page p).lane (s.page p).side] t ∧ s.SameSlotsBut [slot] t)) ∧
    (∀ (l : LegId) (e : Entry) (q : PageId) (c : Page), s.ScanWaits l e q c → s.handOver = [] →
      (s.page p).leg = l → s.sideOf (s.page p).lane (s.page p).side = s.sideOf c.lane c.side →
      (s.leg l).state = .carrying → (s.page q).state = .free → (s.page p).cellsDone = 511 →
      (s.slot slot).cancelAsked = false → e.slot ≠ slot →
      ∃ t, Sys2Proof.Machine.exec (.scanCellComplete p errors) s = .next t ∧ (t.page p).state = .held ∧
        (t.slot slot).state = .done ∧ t.leg l = s.leg l ∧ s.ScanStartsOrIsPutOff t l e q c)

/-- A running scan whose leg leaves CARRYING, by a lock loss, a presence loss, LOWPWR_ASSERT, LEG_PARK or LEG_RETUNE,
with no other task waiting: the page is HELD with outcome INTERRUPTED and its cells as they were, the monitor is no
longer SCANNING, and the slot is DONE with INTERRUPTED, its result the page, the outcome and the cells done; the leg's
notice is raised. -/
def Obligations.LeavingCarryingInterruptsTheScans : Prop :=
  ∀ (c : Instr) (p : PageId) (slot : SlotId) (left : Nat) (l : LegId) (s : State), s.resetHeld = false →
    s.MapPermutes → s.NoWork → s.mem.wf = true → (s.page p).state = .busy slot left → (s.page p).leg = l →
    (s.leg l).state = .carrying → (∀ q m k, q ≠ p → (s.page q).state = .busy m k → m ≠ slot) →
    (∀ m, (s.engine m).inFlight ≠ some slot) → slot ∉ s.powerWait →
    (c = .lowpwrAssert ∧ s.lowpwr = false ∧ s.effective ≠ .low) ∨
      (∃ x, s.legOf x = l ∧ ((c = .receiverUnlock x ∧ (s.lane x).locked = true) ∨
        (c = .qualificationTimerExpiry x ∧ (s.lane x).presence.timer.isSome = true ∧
          (s.lane x).presence.qualified = true ∧ (s.lane x).presence.raw = false))) ∨
      (∃ n h, s.AcceptsTask n ∧ s.AwaitedFor h l ∧ n ≠ slot ∧
        (c = .legPark n h ∨ ∃ sides : Byte, sides.toNat ≤ 2 ∧ c = .legRetune n h sides)) →
    ∃ t, Sys2Proof.Machine.exec c s = .next t ∧ (t.leg l).state ≠ .carrying ∧
      t.page p = { s.page p with state := .held, outcome := .interrupted } ∧
      (∀ k, k < 0x200 → t.mem.read (pageBase p + 0x200 + k) = s.mem.read (pageBase p + 0x200 + k)) ∧
      (t.lane (s.sideOf (s.page p).lane (s.page p).side)).monitor ≠ .scanning ∧
      t.slot slot = { s.slot slot with state := .done, status := .interrupted } ∧
      t.slotByte slot 0x80 = BitVec.ofNat 8 p.val ∧ t.slotByte slot 0x81 = 2 ∧
      t.slotByte slot 0x82 = BitVec.ofNat 8 (s.page p).cellsDone ∧
      t.slotByte slot 0x83 = BitVec.ofNat 8 ((s.page p).cellsDone / 256) ∧
      t.summary.getLsbD slot.val = true ∧ t.summary.getLsbD (16 + l.val) = true ∧ s.SameMap t ∧ s.SameFaults t ∧
      (c ≠ .lowpwrAssert → ∀ q, (s.page q).leg ≠ l → t.page q = s.page q)

/-! ### Patience (Section 8.3) -/

/-- PATIENCE_EXPIRY of a deferred head with nothing behind it and no slot waiting: the entry leaves with GAVE_UP, an
awaited one in its slot, with its result bytes as they stood (log 32), a posted one as a fault; and of a deferred posted
entry behind a deferred awaited LEG_RETUNE whose leg is not CARRYING: it leaves and the head waits on. -/
def Obligations.PatienceExpiryGivesUp : Prop :=
  ∀ (l : LegId) (e : Entry) (s : State), s.resetHeld = false → s.handOver = [] → e.deferred = true →
    e.clock.isSome = true →
    ((s.engine l).queue = [e] →
      ∃ t, Sys2Proof.Machine.exec (.patienceExpiry l 0) s = .next t ∧ (t.engine l).queue = [] ∧
        (e.awaited = true → (t.slot e.slot).state = .done ∧ (t.slot e.slot).status = .gaveUp ∧
          t.summary.getLsbD e.slot.val = true ∧ s.SameFaults t ∧ s.SameSlotsBut [e.slot] t) ∧
        (e.awaited = false → s.SameSlotsBut [] t ∧
          (s.faultRecord = none → t.summary.getLsbD 24 = true ∧
            t.faultRecord = some ⟨.posted, .gaveUp, e.slot.val, e.kindByte, e.leg, e.label0, e.label1, 0, 0⟩) ∧
          (s.faultRecord ≠ none → t.faultRecord = s.faultRecord ∧
            t.laterFaults = (if s.laterFaults < 255 then s.laterFaults + 1 else s.laterFaults))) ∧
        s.SamePart t ∧ s.SamePagesBut [] t ∧ s.SameBytes t ∧ s.SameLine t) ∧
    (∀ h : Entry, (s.engine l).queue = [h, e] → e.awaited = false → h.awaited = true → h.deferred = true →
      h.kind = .legRetune → h.patience.toNat ≤ 3 → (s.slotByte h.slot 0x10).toNat ≤ 2 →
      (s.leg l).state ≠ .carrying →
      ∃ t, Sys2Proof.Machine.exec (.patienceExpiry l 1) s = .next t ∧ (t.engine l).queue = [h] ∧
        s.SamePart t ∧ s.SameSlotsBut [] t ∧ s.SamePagesBut [] t ∧ s.SameBytes t ∧ s.SameLine t)

/-! ### The equalizer arithmetic (Section 4) -/

/-- R84, R85, R86: a NUDGE of a tap by a step takes the first candidate that qualifies, from the step itself toward 0:
APPLIED for the step itself, CLIPPED for a smaller one, PINNED with the triple unchanged when none qualifies. -/
def Obligations.NudgeTakesTheFirstQualifyingCandidate : Prop :=
  ∀ (mode : BudgetMode) (rate : RateClass) (t : Taps) (tap : Tap) (step : Int), step ≠ 0 →
    (∃ (k : Int) (t' : Taps), ((0 < k ∧ k ≤ step) ∨ (step ≤ k ∧ k < 0)) ∧ t.Qualifies mode rate tap k t' ∧
      (∀ (j : Int) (u : Taps), (k < j ∧ j ≤ step) ∨ (step ≤ j ∧ j < k) → ¬(0 < k ∧ j < 0) → ¬(k < 0 ∧ 0 < j) →
        ¬t.Qualifies mode rate tap j u) ∧
      nudge mode rate t tap step = (if k = step then .applied else .clipped, t')) ∨
    ((∀ (j : Int) (u : Taps), (0 < j ∧ j ≤ step) ∨ (step ≤ j ∧ j < 0) → ¬t.Qualifies mode rate tap j u) ∧
      nudge mode rate t tap step = (.pinned, t))

/-- R90, R91, R92: the saturation of SET_TAPS: every tap clamped into its range, then MAIN lowered by the excess of
the budget but not below 20 and POST and PRE raised toward 0 by what remains, then POST and PRE raised toward 0 by
what the floor lacks; the saturated triple is valid. -/
def Obligations.SaturationTakesItsThreeSteps : Prop :=
  ∀ (rate : RateClass) (t : Taps), ∃ c b : Taps,
    c.pre = (match rate with
      | .rcA => 0
      | .rcB => max (-16) (min 0 t.pre)
      | .rcC => max (-16) (min 0 t.pre)) ∧
    c.main = max 20 (min 60 t.main) ∧ c.post = max (-24) (min 0 t.post) ∧
    (c.budget ≤ 60 → b = c) ∧
    (60 < c.budget → b.main = max 20 (c.main - (c.budget - 60)) ∧
      b.post = min 0 (c.post + ((c.budget - 60) - (c.main - b.main))) ∧
      b.pre = min 0 (c.pre + ((c.budget - 60) - (c.main - b.main) - (b.post - c.post)))) ∧
    (10 ≤ b.floor → saturate rate t = b) ∧
    (b.floor < 10 → (saturate rate t).main = b.main ∧ (saturate rate t).post = min 0 (b.post + (10 - b.floor)) ∧
      (saturate rate t).pre = min 0 (b.pre + ((10 - b.floor) - ((saturate rate t).post - b.post)))) ∧
    (saturate rate t).valid rate = true

/-! ### Host writes and reads (Sections 6, 7 and 9). Each is a transaction of the management line (log 17). -/

/-- SLOT_HAND_OVER: on an EMPTY slot while the intake is held, the slot is FILLED and last in the list; on an EMPTY
slot that the intake takes at once, an awaited task of an unknown kind is DONE with UNKNOWN_KIND; on any other slot
the write is a misuse, reported with what was written and found. -/
def Obligations.HandOverFillsTheSlot : Prop :=
  ∀ (n : SlotId) (s : State), s.LineFree → s.device = .ready →
    ∃ t, Sys2Proof.Machine.exec (.slotHandOver n) s = .next t ∧ s.LineAfter t (slotBase n + 0x10) ∧ s.SameSettings t ∧
      ((s.slot n).state ≠ .empty ∨ (s.holdIntake = true ∧ s.faultRecord ≠ none) ∨
          (s.handOver = [] ∧ s.slotByte n 1 ≠ 1 ∧ s.slotByte n 0 ∉ [1, 2, 3, 4, 5, 6, 7, 8, 0x10, 0x11]) →
        s.SamePart t ∧ s.SamePagesBut [] t ∧ s.SameSlotsBut [n] t) ∧
      ((s.slot n).state = .empty → s.holdIntake = true ∧ s.faultRecord ≠ none →
        t.slot n = { s.slot n with state := .filled } ∧ t.handOver = s.handOver ++ [n] ∧ s.SameBytes t ∧
        s.SameAttention t ∧ s.SameFaults t ∧ (∀ l, t.engine l = s.engine l) ∧ t.deviceQueue = s.deviceQueue ∧
        t.powerWait = s.powerWait) ∧
      ((s.slot n).state = .empty → s.holdIntake = false ∨ s.faultRecord = none → s.handOver = [] →
        s.slotByte n 1 ≠ 1 → s.slotByte n 0 ∉ [1, 2, 3, 4, 5, 6, 7, 8, 0x10, 0x11] →
        t.slot n = ⟨.done, .unknownKind, false⟩ ∧ t.summary = s.summary ||| (1#32 <<< n.val) ∧
        (∀ a, t.mem.read a = if slotBase n + 0x80 ≤ a ∧ a < slotBase n + 0x100 then 0 else s.mem.read a) ∧
        s.SameTasks t ∧ s.SameFaults t) ∧
      ((s.slot n).state ≠ .empty →
        t.slot n = s.slot n ∧ s.FaultReported t ⟨.misuse, .inProgress, n.val, s.slotByte n 0, s.slotByte n 2,
          s.slotByte n 4, s.slotByte n 5, 0x01, (s.slot n).state.code⟩ ∧ s.SameTasks t ∧ s.SameBytes t)

/-- SLOT_RETRACT and SLOT_RELEASE, the writing of EMPTY: a FILLED slot leaves the list, a DONE slot's bit is cleared,
either becomes EMPTY; an EMPTY or TAKEN slot ignores it. -/
def Obligations.EmptyWriteRetractsAndReleases : Prop :=
  ∀ (n : SlotId) (c : Instr) (s : State), s.LineFree → s.device = .ready → c = .slotRetract n ∨ c = .slotRelease n →
    ∃ t, Sys2Proof.Machine.exec c s = .next t ∧ s.LineAfter t (slotBase n + 0x10) ∧ s.SamePart t ∧
      s.SamePagesBut [] t ∧ s.SameSettings t ∧ t.latchedLine = s.latchedLine ∧ s.SameFaults t ∧ s.SameBytes t ∧
      s.SameSlotsBut [n] t ∧ (∀ l, t.engine l = s.engine l) ∧ t.deviceQueue = s.deviceQueue ∧
      t.powerWait = s.powerWait ∧
      t.slot n = (if (s.slot n).state = .filled ∨ (s.slot n).state = .done
        then { s.slot n with state := .empty } else s.slot n) ∧
      t.handOver = (if (s.slot n).state = .filled then s.handOver.filter (fun m => m ≠ n) else s.handOver) ∧
      t.summary = (if (s.slot n).state = .done then s.summary &&& ~~~(1#32 <<< n.val) else s.summary)

/-- SLOT_CANCEL with no queue longer than one entry and no slot waiting in the list: an in-flight, a queued and a
waiting task become DONE with CANCELLED, a running scan only has cancel-asked set, a DONE slot and a second cancel are
ignored, and on an EMPTY or FILLED slot the write is a misuse. -/
def Obligations.CancelEndsTheTask : Prop :=
  ∀ (n : SlotId) (s : State), s.LineFree → s.device = .ready → s.handOver = [] →
    (∀ l, (s.engine l).queue.length ≤ 1) →
    ∃ t, Sys2Proof.Machine.exec (.slotCancel n) s = .next t ∧ s.LineAfter t (slotBase n + 0x10) ∧ s.SamePart t ∧
      s.SamePagesBut [] t ∧ s.SameSettings t ∧ s.SameBytesOutside t n ∧ s.SameSlotsBut [n] t ∧
      t.deviceQueue = s.deviceQueue ∧ t.handOver = [] ∧
      ((s.slot n).state = .done ∨ ((s.slot n).state = .taken ∧ (s.slot n).cancelAsked = true) →
        t.slot n = s.slot n ∧ s.SameTasks t ∧ s.SameBytes t ∧ s.SameAttention t ∧ s.SameFaults t) ∧
      ((s.slot n).state = .empty ∨ (s.slot n).state = .filled →
        t.slot n = s.slot n ∧ s.SameTasks t ∧ s.SameBytes t ∧ s.FaultReported t ⟨.misuse, .inProgress, n.val,
          s.slotByte n 0, s.slotByte n 2, s.slotByte n 4, s.slotByte n 5, 0x0C, (s.slot n).state.code⟩) ∧
      ((s.slot n).state = .taken → (s.slot n).cancelAsked = false →
        ((∀ l, (s.engine l).inFlight ≠ some n ∧ ∀ e ∈ (s.engine l).queue, ¬(e.awaited = true ∧ e.slot = n)) →
          (n ∉ s.powerWait → t.slot n = { s.slot n with cancelAsked := true } ∧ s.SameTasks t ∧ s.SameBytes t ∧
            s.SameAttention t ∧ s.SameFaults t) ∧
          (n ∈ s.powerWait → t.slot n = ⟨.done, .cancelled, true⟩ ∧ t.summary = s.summary ||| (1#32 <<< n.val) ∧
            t.powerWait = s.powerWait.filter (fun m => m ≠ n) ∧ (∀ l, t.engine l = s.engine l) ∧ s.SameFaults t)) ∧
        (∀ l : LegId, (∀ m, m ≠ l → (s.engine m).inFlight ≠ some n ∧
            ∀ e ∈ (s.engine m).queue, ¬(e.awaited = true ∧ e.slot = n)) →
          ((s.engine l).inFlight = some n → (∀ e ∈ (s.engine l).queue, ¬(e.awaited = true ∧ e.slot = n)) →
            t.slot n = ⟨.done, .cancelled, true⟩ ∧ t.summary = s.summary ||| (1#32 <<< n.val) ∧
            t.engine l = { s.engine l with inFlight := none } ∧ (∀ m, m ≠ l → t.engine m = s.engine m) ∧
            t.powerWait = s.powerWait ∧ s.SameFaults t) ∧
          (∀ e, (s.engine l).queue = [e] → e.awaited = true → e.slot = n →
            t.slot n = ⟨.done, .cancelled, true⟩ ∧ t.summary = s.summary ||| (1#32 <<< n.val) ∧
            t.engine l = { s.engine l with queue := [] } ∧ (∀ m, m ≠ l → t.engine m = s.engine m) ∧
            t.powerWait = s.powerWait ∧ s.SameFaults t)))

/-- ATTN_L is released while RESET_L is held and in INITIALIZING; in every other condition it is asserted, in LEVEL
mode, exactly when some summary bit and its enable are both set, and in LATCHED mode it follows the latched line state.
ATTENTION_SUMMARY_CLEAR clears the leg and power notices written as 1; NOTICE_ENABLES_WRITE writes the implemented
enables, and in LATCHED mode an enable turned on for a set bit asserts the line; EXCHANGE_CONTROL_WRITE without the
trigger, with no slot waiting, sets the mode and hold-intake-on-fault. Nothing else changes but the line interface after
its write transaction (log 17). -/
def Obligations.HeadWritesSetTheAttentionUnit : Prop :=
  ∀ s : State,
    (s.resetHeld = true ∨ s.device = .initializing → s.attentionAsserted = false) ∧
    (s.resetHeld = false → s.device ≠ .initializing →
      (s.latchedMode = false →
        (s.attentionAsserted = true ↔ ∃ k, s.summary.getLsbD k = true ∧ s.enables.getLsbD k = true)) ∧
      (s.latchedMode = true → s.attentionAsserted = s.latchedLine)) ∧
    (s.LineFree →
      (∀ value : BitVec 32, ∃ t, Sys2Proof.Machine.exec (.attentionSummaryClear value) s = .next t ∧
        t.summary = s.summary &&& ~~~(value &&& 0x020F0000) ∧ s.SameSettings t ∧ t.latchedLine = s.latchedLine ∧
        s.LineAfter t 0x14 ∧ s.SamePart t ∧ s.SameTasks t ∧ s.SameSlotsBut [] t ∧ s.SamePagesBut [] t ∧
        s.SameBytes t ∧ s.SameFaults t) ∧
      (∀ value : BitVec 32, ∃ t, Sys2Proof.Machine.exec (.noticeEnablesWrite value) s = .next t ∧
        t.enables = value &&& 0x030F0FFF ∧ t.summary = s.summary ∧ t.latchedMode = s.latchedMode ∧
        t.holdIntake = s.holdIntake ∧
        t.latchedLine = (s.latchedLine || (s.latchedMode &&
          decide (value &&& 0x030F0FFF &&& ~~~s.enables &&& s.summary ≠ 0))) ∧
        s.LineAfter t 0x18 ∧ s.SamePart t ∧ s.SameTasks t ∧ s.SameSlotsBut [] t ∧ s.SamePagesBut [] t ∧
        s.SameBytes t ∧ s.SameFaults t) ∧
      (∀ value : Byte, s.handOver = [] → value.getLsbD 7 = false →
        ∃ t, Sys2Proof.Machine.exec (.exchangeControlWrite value) s = .next t ∧
          t.latchedMode = value.getLsbD 0 ∧ t.holdIntake = value.getLsbD 1 ∧
          t.latchedLine = (if value.getLsbD 0 = s.latchedMode then s.latchedLine
            else value.getLsbD 0 && decide (s.summary &&& s.enables ≠ 0)) ∧
          t.summary = s.summary ∧ t.enables = s.enables ∧ s.LineAfter t 0x19 ∧ s.SamePart t ∧ s.SameTasks t ∧
          s.SameSlotsBut [] t ∧ s.SamePagesBut [] t ∧ s.SameBytes t ∧ s.SameFaults t))

/-- ATTENTION_SUMMARY_READ: the whole read of the four bytes returns the summary and releases the latched line; the
stop of a read in progress releases it only when every enabled bit set then was set in the copy that was returned; an
address other than 0x3A is not acknowledged and does nothing. -/
def Obligations.SummaryReadReleasesTheLine : Prop :=
  ∀ s : State, s.resetHeld = false → s.device ≠ .initializing → s.writeOpen = none →
    (∀ r, s.readOpen = some r → ∃ t, Sys2Proof.Machine.exec (.attentionSummaryRead .stop) s = .next t ∧
      t = { s with
        readOpen := none
        latchedLine := s.latchedLine && !(r.returnedSummary &&
          decide (s.summary &&& s.enables &&&
            ~~~(r.byteAt 0x13 ++ r.byteAt 0x12 ++ r.byteAt 0x11 ++ r.byteAt 0x10) = 0)) }) ∧
    (s.readOpen = none → ∃ t, Sys2Proof.Machine.exec (.attentionSummaryRead (.whole 0x3A 0x10 4)) s = .next t ∧
      t.readData = [s.summary.extractLsb' 0 8, s.summary.extractLsb' 8 8, s.summary.extractLsb' 16 8,
        s.summary.extractLsb' 24 8] ∧
      t.latchedLine = false ∧ t.offset = 0x14 ∧ t.acknowledged = true ∧ t.writeOpen = none ∧ t.readOpen = none ∧
      t.summary = s.summary ∧ s.SameSettings t ∧ s.SamePart t ∧ s.SameTasks t ∧ s.SameSlotsBut [] t ∧
      s.SamePagesBut [] t ∧ s.SameBytes t ∧ s.SameFaults t) ∧
    (s.readOpen = none → ∀ (target : BitVec 7) (offset : BitVec 16) (count : Nat), target ≠ 0x3A →
      Sys2Proof.Machine.exec (.attentionSummaryRead (.whole target offset count)) s =
        .next { s with acknowledged := false })

/-- FAULT_LOG_RELEASE, no slot waiting: a value other than 0 empties a log that holds a record and clears bit 24; else
nothing. PAGE_STATE_WRITE at READY: 0 frees a HELD page, all its bytes 0, and is ignored by a FREE one; any other
write is a misuse; an exchange reset in progress ignores it. -/
def Obligations.ReleasesEmptyTheLogAndThePage : Prop :=
  ∀ s : State, s.LineFree →
    (∀ value : Byte, s.handOver = [] → ∃ t, Sys2Proof.Machine.exec (.faultLogRelease value) s = .next t ∧
      t.faultRecord = (if value = 0 then s.faultRecord else none) ∧
      t.laterFaults = (if value = 0 ∨ s.faultRecord = none then s.laterFaults else 0) ∧
      t.summary = (if value = 0 ∨ s.faultRecord = none then s.summary else s.summary &&& ~~~0x01000000#32) ∧
      s.SameSettings t ∧ t.latchedLine = s.latchedLine ∧ s.LineAfter t 0x60 ∧ s.SamePart t ∧ s.SameTasks t ∧
      s.SameSlotsBut [] t ∧ s.SamePagesBut [] t ∧ s.SameBytes t) ∧
    (∀ (p : PageId) (value : Byte), ∃ t, Sys2Proof.Machine.exec (.pageStateWrite p value) s = .next t ∧
      s.LineAfter t (pageBase p + 1) ∧ s.SamePart t ∧ s.SameTasks t ∧ s.SameSlotsBut [] t ∧ s.SameSettings t ∧
      (s.device = .ready → value = 0 → (s.page p).state = .held →
        t.page p = Page.reset ∧
        (∀ a, t.mem.read a = if pageBase p + 0x200 ≤ a ∧ a < pageBase p + 0x400 then 0 else s.mem.read a) ∧
        s.SamePagesBut [p] t ∧ s.SameAttention t ∧ s.SameFaults t) ∧
      (s.device ≠ .ready ∨ (value = 0 ∧ (s.page p).state = .free) →
        s.SamePagesBut [] t ∧ s.SameBytes t ∧ s.SameAttention t ∧ s.SameFaults t) ∧
      (s.device = .ready → value ≠ 0 ∨ (∃ slot left, (s.page p).state = .busy slot left) →
        s.SamePagesBut [] t ∧ s.SameBytes t ∧ s.FaultReported t ⟨.misuse, .inProgress, 16 + p.val, 0, 0, 0, 0, value,
          (s.page p).state.code⟩))

/-- EXCHANGE_RESET at READY: the exchange is empty at once: queues, in-flight sets, power wait list and list of slots
empty, slots EMPTY, pages FREE, running scans stopped, summary and fault log cleared, the settings as written, and the
lanes, legs, map and power untouched, also when the same write turns hold-intake-on-fault off (log 13). During an
exchange reset the trigger is ignored. EXCHANGE_RESET_COMPLETE: READY, and every slot and page byte 0. -/
def Obligations.ExchangeResetEmptiesTheExchange : Prop :=
  ∀ s : State,
    (∀ latched hold : Bool, s.LineFree → s.device = .ready →
      ∃ t, Sys2Proof.Machine.exec (.exchangeReset latched hold) s = .next t ∧ t.device = .exchangeResetting ∧
        t.resetTimer = some 100 ∧ (∀ l, t.engine l = ⟨[], none⟩) ∧ t.deviceQueue = [] ∧ t.powerWait = [] ∧
        t.handOver = [] ∧ t.owed = [] ∧ (∀ n, t.slot n = { s.slot n with state := .empty }) ∧
        (∀ p, t.page p = { s.page p with state := .free }) ∧ t.summary = 0 ∧ t.latchedLine = false ∧
        t.faultRecord = none ∧ t.laterFaults = 0 ∧ t.latchedMode = latched ∧ t.holdIntake = hold ∧
        t.enables = s.enables ∧ s.LineAfter t 0x19 ∧
        (∀ x, t.lane x = { s.lane x with
          monitor := if (s.lane x).monitor = .scanning then .idle else (s.lane x).monitor }) ∧
        s.SameLegsBut [] t ∧ s.SameMap t ∧ s.SamePower t ∧ s.SamePins t ∧ s.SameBytes t) ∧
    (∀ latched hold : Bool, s.LineFree → s.device = .exchangeResetting → s.handOver = [] →
      ∃ t, Sys2Proof.Machine.exec (.exchangeReset latched hold) s = .next t ∧ t.latchedMode = latched ∧
        t.holdIntake = hold ∧ t.summary = s.summary ∧ t.enables = s.enables ∧ s.LineAfter t 0x19 ∧ s.SamePart t ∧
        s.SameTasks t ∧ s.SameSlotsBut [] t ∧ s.SamePagesBut [] t ∧ s.SameBytes t ∧ s.SameFaults t) ∧
    (s.resetHeld = false → s.device = .exchangeResetting →
      ∃ t, Sys2Proof.Machine.exec .exchangeResetComplete s = .next t ∧ t.device = .ready ∧ t.resetTimer = none ∧
        (∀ n, t.slot n = ⟨.empty, .inProgress, false⟩) ∧ (∀ p, t.page p = Page.reset) ∧ (∀ a, t.mem.read a = 0) ∧
        t.latchedLine = (s.latchedLine || (s.latchedMode && decide (s.summary &&& s.enables ≠ 0))) ∧
        t.summary = s.summary ∧ s.SameSettings t ∧ s.SameFaults t ∧ s.SameTasks t ∧ s.SameMap t ∧
        s.SameLanesBut [] t ∧ s.SameLegsBut [] t ∧ s.SamePower t ∧ s.SamePins t ∧ s.SameLine t)

/-- REGISTER_WRITE at READY: the two offset bytes alone set the offset; bytes for the sixteen listed arguments of an
EMPTY slot are stored, whatever the slot's kind (log 38), and nothing else changes; those of any other slot, and bytes
that no table lists (log 33), are ignored; and an address other than 0x3A is not acknowledged and does nothing. -/
def Obligations.RegisterWriteStoresInAnEmptySlot : Prop :=
  ∀ s : State, s.LineFree → s.device = .ready →
    (∀ high low : Byte, Sys2Proof.Machine.exec (.registerWrite (.whole 0x3A [high, low])) s =
      .next { s with offset := high ++ low, acknowledged := true }) ∧
    (∀ (target : BitVec 7) (data : List Byte), target ≠ 0x3A →
      Sys2Proof.Machine.exec (.registerWrite (.whole target data)) s = .next { s with acknowledged := false }) ∧
    (∀ (n : SlotId) (k : Nat) (data : List Byte),
      (0x10 ≤ k ∧ k + data.length ≤ 0x20) ∨ (0x20 ≤ k ∧ k + data.length ≤ 0x80) → s.mem.wf = true →
      ∃ t, Sys2Proof.Machine.exec (.registerWrite (.whole 0x3A
          ([BitVec.ofNat 8 ((slotBase n + k) / 256), BitVec.ofNat 8 (slotBase n + k)] ++ data))) s = .next t ∧
        s.LineAfter t (slotBase n + k + data.length) ∧
        (∀ a, t.mem.read a = if k < 0x20 ∧ (s.slot n).state = .empty ∧ slotBase n + k ≤ a ∧
            a < slotBase n + k + data.length
          then data.getD (a - (slotBase n + k)) 0 else s.mem.read a) ∧
        s.SamePart t ∧ s.SameTasks t ∧ s.SameSlotsBut [] t ∧ s.SamePagesBut [] t ∧ s.SameAttention t ∧ s.SameFaults t)

/-- What a read transaction of the management line returns at READY (log 17; the items are computed as they are read,
log 22): the first head words, the fault log, the leg records, the lane map image, the slots and the pages, byte by byte
as Section 11 lists them, an argument byte whatever the slot's kind (log 38), a slot byte that no table lists 0 (log
33), and 0 from 0x2000 on. And a byte that a read in progress returns comes from its copy of the block; a block without
a copy is copied whole, every byte as a read from there would return it. -/
def Obligations.ReadsShowTheState : Prop :=
  ∀ s : State, s.resetHeld = false → s.device = .ready →
    (s.LineFree →
      s.Reads 0x00 [0x54, 0x56, 0x02, 0x84, 0x01, 0, 0, 0, 1, s.effective.code,
        0#3 ++ BitVec.ofBool s.straps.autostart ++ s.straps.rate ++ s.straps.profile, s.lastCause.code] ∧
      (s.faultRecord = none → s.Reads 0x40 (List.replicate 32 0)) ∧
      (∀ r, s.faultRecord = some r → s.Reads 0x40 [r.cause.code, r.status.code, BitVec.ofNat 8 r.slot, r.kind, r.leg,
        r.label0, r.label1, r.written, r.found, BitVec.ofNat 8 s.laterFaults]) ∧
      (∀ l : LegId, s.used l = false → s.Reads (0x100 + l.val * 0x40) (List.replicate 64 0)) ∧
      (∀ (l : LegId) (g : Leg), s.used l = true → g = s.leg l → s.Reads (0x100 + l.val * 0x40)
        [g.state.code, if g.intent then 1 else 0, BitVec.ofNat 8 g.attempts, g.grade.code, g.line.session.code,
         g.switch.session.code, g.kind.code, g.cause.code, if g.givenUp then 1 else 0, g.line.weak, g.switch.weak,
         0#4 ++ BitVec.ofBool g.switch.relay.squelching ++ BitVec.ofBool g.switch.relay.armed ++
           BitVec.ofBool g.line.relay.squelching ++ BitVec.ofBool g.line.relay.armed,
         BitVec.ofNat 8 (s.members l).length, 0, 0, 0, g.setup.rate.code, BitVec.ofNat 8 g.setup.ownPreset.val,
         BitVec.ofNat 8 g.setup.partnerPreset.val, g.setup.budget.code, g.setup.requestWait.code,
         BitVec.ofNat 8 g.setup.sessionTimer, BitVec.ofNat 8 g.setup.lockTimeout,
         BitVec.ofNat 8 g.setup.attemptLimit, g.setup.fallback.code, g.setup.relayMode.code,
         BitVec.ofNat 8 g.setup.relayDelay, BitVec.ofNat 8 g.setup.pulseWidth, BitVec.ofNat 8 g.setup.threshold,
         BitVec.ofNat 8 g.setup.floor, if g.setup.passing then 1 else 0, if g.setup.wakeWatch then 1 else 0,
         BitVec.ofNat 8 g.carryEntries, BitVec.ofNat 8 (g.carryEntries / 256), BitVec.ofNat 8 g.presenceLosses,
         BitVec.ofNat 8 (g.presenceLosses / 256), BitVec.ofNat 8 g.failedSessions,
         BitVec.ofNat 8 (g.failedSessions / 256)]) ∧
      (∀ (i : LaneId) (m : MapEntry), m = s.entry i → s.Reads (0x200 + i.val * 0x10)
        [BitVec.ofNat 8 m.source.val, m.switchPolarity.code, m.linePolarity.code, m.function.code,
         BitVec.ofNat 8 (legOfLine s.straps.profile i).val,
         if (s.lane ⟨.line, i⟩).presence.qualified then 1 else 0, if (s.lane ⟨.line, i⟩).locked then 1 else 0,
         (s.transmit ⟨.line, i⟩).code, if (s.lane ⟨.switch, m.source⟩).presence.qualified then 1 else 0,
         if (s.lane ⟨.switch, m.source⟩).locked then 1 else 0, (s.transmit ⟨.switch, m.source⟩).code, 0, 0, 0, 0,
         0]) ∧
      (∀ n : SlotId, s.Reads (slotBase n)
        [s.slotByte n 0, s.slotByte n 1, s.slotByte n 2, s.slotByte n 3, s.slotByte n 4, s.slotByte n 5, 0, 0, 0, 0, 0,
         0, (s.slot n).status.code, if (s.slot n).cancelAsked then 1 else 0, 0, (s.slot n).state.code] ∧
        ∀ k, 0x10 ≤ k → k < 0x100 →
          s.Reads (slotBase n + k) [if k < 0x20 ∨ 0x80 ≤ k then s.slotByte n k else 0]) ∧
      (∀ (p : PageId) (c : Page), c = s.page p → s.Reads (pageBase p)
        [match c.state with
          | .free => 0
          | .busy _ _ => 1
          | .held => 2,
         BitVec.ofNat 8 c.leg.val, match c.side with
          | .line => 0
          | .switch => 1,
         BitVec.ofNat 8 c.lane.val, BitVec.ofNat 8 c.dwell, c.outcome.code, BitVec.ofNat 8 c.cellsDone,
         BitVec.ofNat 8 (c.cellsDone / 256)] ∧
        ∀ k, k < 0x200 → s.Reads (pageBase p + 0x200 + k) [s.mem.read (pageBase p + 0x200 + k)]) ∧
      (∀ a, 0x2000 ≤ a → a < 0x10000 → s.Reads a [0])) ∧
    (∀ r : ReadTransaction, s.readOpen = some r →
      (∀ copy, r.copies.find? (fun c => c.1 = s.offset.toNat / 64) = some copy →
        Sys2Proof.Machine.exec (.attentionSummaryRead (.bytes 1)) s = .next { s with
          offset := s.offset + 1, readData := s.readData ++ [copy.2.getD (s.offset.toNat % 64) 0]
          readOpen := some { r with returnedSummary := r.returnedSummary || s.offset == 0x10 } }) ∧
      (r.copies.find? (fun c => c.1 = s.offset.toNat / 64) = none →
        ∃ block : List Byte, block.length = 64 ∧
          (∀ k, k < 64 → ∃ u, Sys2Proof.Machine.exec
              (.attentionSummaryRead (.whole 0x3A (BitVec.ofNat 16 (s.offset.toNat / 64 * 64 + k)) 1))
              { s with readOpen := none, writeOpen := none } = .next u ∧ u.readData = [block.getD k 0]) ∧
          Sys2Proof.Machine.exec (.attentionSummaryRead (.bytes 1)) s = .next { s with
            offset := s.offset + 1, readData := s.readData ++ [block.getD (s.offset.toNat % 64) 0]
            readOpen := some { r with
              copies := r.copies ++ [(s.offset.toNat / 64, block)]
              returnedSummary := r.returnedSummary || s.offset == 0x10 } }))

/-! ### Tasks (Sections 1.8, 2, 4.7, 6 and 8.7). A task command is the hand-over of the task in one write transaction
(log 1). -/

/-- LEG_SETUP handed over with nothing waiting: a code outside its set is refused with BAD_ARGUMENT, a leg that is not
PARKED with WRONG_STATE; else all the values are loaded, the numbers clamped, the result is the loaded block and the
adjusted flag, and with a new rate class of RC-A the PRE of the member transmitters becomes 0. -/
def Obligations.SetupLoadsTheValues : Prop :=
  ∀ (n : SlotId) (h : TaskHeader) (values : Vector Byte 16) (l : LegId) (s : State), s.AcceptsTask n →
    s.AwaitedFor h l → ∃ t, Sys2Proof.Machine.exec (.legSetup n h values) s = .next t ∧
      s.Carried t n .legSetup h values.toList ∧
      (goodSetupCodes values = false → s.TaskRefused t n .badArgument) ∧
      (goodSetupCodes values = true → (s.leg l).state ≠ .parked → s.TaskRefused t n .wrongState) ∧
      (goodSetupCodes values = true → (s.leg l).state = .parked → ∃ v : Setup,
        v.rate.code = values[0] ∧ v.ownPreset.val = values[1].toNat ∧ v.partnerPreset.val = values[2].toNat ∧
        v.budget.code = values[3] ∧ v.requestWait.code = values[4] ∧
        v.sessionTimer = max 1 (min 20 values[5].toNat) ∧ v.lockTimeout = max 10 (min 80 values[6].toNat) ∧
        v.attemptLimit = max 1 (min 7 values[7].toNat) ∧ v.fallback.code = values[8] ∧ v.relayMode.code = values[9] ∧
        v.relayDelay = min 7 values[10].toNat ∧ v.pulseWidth = max 2 (min 16 values[11].toNat) ∧
        v.threshold = max 1 (min 4 values[12].toNat) ∧ v.floor = min 63 values[13].toNat ∧
        v.passing = decide (values[14] = 1) ∧ v.wakeWatch = decide (values[15] = 1) ∧
        t.leg l = { s.leg l with setup := v } ∧
        s.TaskDone t n .ok (v.bytes ++ [if goodSetupNumbers values then 0 else 1]) ∧ s.SameOutsideLegs t [l] ∧
        t.engine l = s.engine l ∧ s.SameMap t ∧ s.SameLanesBut (s.allMemberSides l) t ∧
        ∀ x ∈ s.allMemberSides l, t.lane x = { s.lane x with taps :=
          if v.rate ≠ (s.leg l).setup.rate ∧ v.rate = .rcA then { (s.lane x).taps with pre := 0 }
          else (s.lane x).taps })

/-- LEG_START handed over with nothing waiting (its results without a launch by log 21): ALREADY on a leg that is not
PARKED, WRONG_STATE with a lane not in CARRY, HELD_LOW without ACTIVE power, the intent taken; else the leg takes
intent 1, attempt count 0 and given-up 0, leaves PARKED, and the task is in flight. -/
def Obligations.StartSendsTheLegOut : Prop :=
  ∀ (n : SlotId) (h : TaskHeader) (l : LegId) (s : State), s.AcceptsTask n → s.AwaitedFor h l →
    ∃ t, Sys2Proof.Machine.exec (.legStart n h) s = .next t ∧ s.Carried t n .legStart h [] ∧
      ((s.leg l).state ≠ .parked →
        s.TaskDone t n .already [(s.leg l).state.code, (s.leg l).grade.code, BitVec.ofNat 8 (s.leg l).attempts,
          (s.leg l).cause.code, if (s.leg l).givenUp then 1 else 0] ∧
        s.SameOutsideLegs t [] ∧ s.SameMap t ∧ s.SameLanesBut [] t) ∧
      ((s.leg l).state = .parked → (∃ i ∈ s.members l, (s.entry i).function ≠ .carry) →
        s.TaskRefused t n .wrongState) ∧
      ((s.leg l).state = .parked → (∀ i ∈ s.members l, (s.entry i).function = .carry) → s.effective ≠ .active →
        s.TaskDone t n .heldLow [0, (s.leg l).grade.code, 0, (s.leg l).cause.code, 0] ∧
        t.leg l = { s.leg l with intent := true, attempts := 0, givenUp := false } ∧ s.SameOutsideLegs t [l] ∧
        t.engine l = s.engine l ∧ s.SameMap t ∧ s.SameLanesBut [] t) ∧
      ((s.leg l).state = .parked → (∀ i ∈ s.members l, (s.entry i).function = .carry) → s.effective = .active →
        s.TaskTaken t n ∧ t.engine l = { s.engine l with inFlight := some n } ∧ (t.leg l).intent = true ∧
        (t.leg l).attempts = 0 ∧ (t.leg l).givenUp = false ∧ (t.leg l).setup = (s.leg l).setup ∧
        (t.leg l).state = (if s.allPresent l = false then .dark else if s.allLocked l = false then .acquire
          else .tune) ∧
        ((t.leg l).state = .acquire → (t.leg l).lockTimer = some ((s.leg l).setup.lockTimeout * 1000)) ∧
        ((t.leg l).state = .tune → ∀ d, ((t.leg l).side d).session = .running) ∧
        ((t.leg l).state ≠ .tune → s.SameLanesBut [] t) ∧ s.SameOutsideLegs t [l] ∧ s.SameMap t ∧
        t.summary = s.summary)

/-- LEG_PARK handed over with nothing waiting: the leg is PARKED with intent 0 and the task DONE with OK, its result
the leg state before; a leg that was PARKED changes nothing else; one that was not has its lock timer stopped and its
relay ended, raises its notice if it was CARRYING, and the awaited task in flight is DONE with SUPERSEDED. -/
def Obligations.ParkTaskParksTheLeg : Prop :=
  ∀ (n : SlotId) (h : TaskHeader) (l : LegId) (s : State), s.AcceptsTask n → s.AwaitedFor h l →
    ∃ t, Sys2Proof.Machine.exec (.legPark n h) s = .next t ∧ s.Carried t n .legPark h [] ∧
      (t.leg l).state = .parked ∧ (t.leg l).intent = false ∧ t.slot n = ⟨.done, .ok, false⟩ ∧
      t.slotByte n 0x80 = (s.leg l).state.code ∧ t.summary.getLsbD n.val = true ∧ (t.leg l).setup = (s.leg l).setup ∧
      (t.leg l).attempts = (s.leg l).attempts ∧
      (∀ x, (t.lane x).taps = (s.lane x).taps ∧ (t.lane x).counters = (s.lane x).counters ∧
        (t.lane x).presence = (s.lane x).presence ∧ (t.lane x).locked = (s.lane x).locked) ∧
      s.SamePower t ∧ s.SameMap t ∧ s.SameLegsBut [l] t ∧
      ((s.leg l).state = .parked → t.leg l = { s.leg l with intent := false } ∧ s.TaskDone t n .ok [0] ∧
        s.SameOutsideLegs t [l] ∧ t.engine l = s.engine l ∧ s.SameLanesBut [] t) ∧
      ((s.leg l).state ≠ .parked → (t.leg l).lockTimer = none ∧
        (∀ d, ((t.leg l).side d).relay =
          ⟨((s.leg l).side d).relay.armed, none, none, false⟩ ∧
          (((s.leg l).side d).session = .running → (s.leg l).state = .tune → ((t.leg l).side d).session = .idle)) ∧
        ((s.leg l).state = .carrying → t.summary.getLsbD (16 + l.val) = true) ∧ (t.engine l).inFlight = none ∧
        ∀ m, (s.engine l).inFlight = some m → m ≠ n → (t.slot m).state = .done ∧ (t.slot m).status = .superseded)

/-- LEG_RETUNE handed over with nothing waiting: a sides code outside its set is refused; on a leg that is not
CARRYING the task waits; on a CARRYING leg with no scan running, the leg enters TUNE with a notice, the named sides
start a RETUNE session with a reading of the margin, a side not named is DONE and AGREED, no taps change, and the task
is in flight. -/
def Obligations.RetuneStartsTheNamedSides : Prop :=
  ∀ (n : SlotId) (h : TaskHeader) (sides : Byte) (l : LegId) (s : State), s.AcceptsTask n → s.AwaitedFor h l →
    ∃ t, Sys2Proof.Machine.exec (.legRetune n h sides) s = .next t ∧ s.Carried t n .legRetune h [sides] ∧
      (2 < sides.toNat → s.TaskRefused t n .badArgument) ∧
      (sides.toNat ≤ 2 → (s.leg l).state ≠ .carrying → s.TaskWaits t n .legRetune h l) ∧
      (sides.toNat ≤ 2 → (s.leg l).state = .carrying → s.MapPermutes →
        (∀ p slot left, (s.page p).state = .busy slot left → (s.page p).leg ≠ l) →
        s.TaskTaken t n ∧ t.engine l = { s.engine l with inFlight := some n } ∧ s.SameOutsideLegs t [l] ∧ s.SameMap t ∧
        t.summary = s.summary ||| (1#32 <<< (16 + l.val)) ∧ (t.leg l).state = .tune ∧ (t.leg l).kind = .retune ∧
        (t.leg l).intent = (s.leg l).intent ∧ (t.leg l).attempts = (s.leg l).attempts ∧
        (t.leg l).setup = (s.leg l).setup ∧
        (∀ d : Side, sides = 2 ∨ (sides = 0 ∧ d = .line) ∨ (sides = 1 ∧ d = .switch) →
          (t.leg l).side d = { (s.leg l).side d with
            session := .running, weak := 0, timer := some ((s.leg l).setup.sessionTimer * 100000) } ∧
          ∀ x ∈ s.memberSides l d, (t.lane x).tuner.phase = .climbing ∧ (t.lane x).tuner.outstanding = none ∧
            (t.lane x).tuner.ownMark = (s.lane x).tuner.ownMark + 1 ∧ (t.lane x).climb.stage = .baseline ∧
            (t.lane x).climb.answered = 0 ∧ (t.lane x).monitor = .reading 200) ∧
        (∀ d : Side, (sides = 0 ∧ d = .switch) ∨ (sides = 1 ∧ d = .line) →
          (t.leg l).side d = { (s.leg l).side d with session := .done } ∧
          ∀ x ∈ s.memberSides l d, (t.lane x).tuner.phase = .agreed ∧ (t.lane x).tuner.content = true ∧
            (t.lane x).tuner.ownMark = (s.lane x).tuner.ownMark ∧ (t.lane x).monitor = (s.lane x).monitor) ∧
        (∀ y, (t.lane y).taps = (s.lane y).taps ∧ (t.lane y).counters = (s.lane y).counters) ∧
        s.SameLanesBut (s.allMemberSides l) t)

/-- LANE_FUNCTION handed over with nothing waiting: a line lane that is no member or a function code outside its set
is refused with BAD_ARGUMENT; a leg that is not PARKED, or a function other than CARRY on a leg with intent 1, with
WRONG_STATE; else the function is set, the result is the old and the new one, and a change masks both lane sides. -/
def Obligations.LaneFunctionIsSet : Prop :=
  ∀ (n : SlotId) (h : TaskHeader) (lane function : Byte) (l : LegId) (s : State), s.AcceptsTask n →
    s.AwaitedFor h l → ∃ t, Sys2Proof.Machine.exec (.laneFunction n h lane function) s = .next t ∧
      s.Carried t n .laneFunction h [lane, function] ∧
      ((∀ i ∈ s.members l, i.val ≠ lane.toNat) ∨ 3 < function.toNat → s.TaskRefused t n .badArgument) ∧
      (∀ (i : LaneId) (f : LaneFunction), i ∈ s.members l → i.val = lane.toNat → f.code = function →
        ((s.leg l).state ≠ .parked ∨ (f ≠ .carry ∧ (s.leg l).intent = true) → s.TaskRefused t n .wrongState) ∧
        ((s.leg l).state = .parked → f = .carry ∨ (s.leg l).intent = false →
          s.TaskDone t n .ok [(s.entry i).function.code, f.code] ∧ s.SameOutsideLegs t [] ∧
          t.entry i = { s.entry i with function := f } ∧ (∀ j, j ≠ i → t.entry j = s.entry j) ∧
          ((s.entry i).function = f → s.SameLanesBut [] t) ∧
          ((s.entry i).function ≠ f → s.SameLanesBut [⟨.line, i⟩, ⟨.switch, (s.entry i).source⟩] t ∧
            ∀ x : LaneSide, x = ⟨.line, i⟩ ∨ x = ⟨.switch, (s.entry i).source⟩ →
              t.lane x = { s.lane x with mask := ⟨some 2000, if (s.lane x).mask.timer = none
                then (s.lane x).presence.qualified else (s.lane x).mask.start⟩ })))

/-- SET_TAPS handed over with nothing waiting: a side code outside its set or a line lane that is no member is
refused; in DARK, ACQUIRE and TUNE the task waits; in PARKED and CARRYING the saturated triple is loaded into the
named transmitter, and the result is the old triple, the loaded one and the saturated flag. -/
def Obligations.SetTapsLoadsTheSaturatedTriple : Prop :=
  ∀ (n : SlotId) (h : TaskHeader) (side lane pre main post : Byte) (l : LegId) (s : State), s.AcceptsTask n →
    s.AwaitedFor h l → ∃ t, Sys2Proof.Machine.exec (.setTaps n h side lane pre main post) s = .next t ∧
      s.Carried t n .setTaps h [side, lane, pre, main, post] ∧
      (1 < side.toNat ∨ (∀ i ∈ s.members l, i.val ≠ lane.toNat) → s.TaskRefused t n .badArgument) ∧
      (∀ (i : LaneId) (x : LaneSide), i ∈ s.members l → i.val = lane.toNat →
        (side = 0 ∧ x = ⟨.line, i⟩) ∨ (side = 1 ∧ x = ⟨.switch, (s.entry i).source⟩) →
        ((s.leg l).state = .dark ∨ (s.leg l).state = .acquire ∨ (s.leg l).state = .tune →
          s.TaskWaits t n .setTaps h l) ∧
        ((s.leg l).state = .parked ∨ (s.leg l).state = .carrying →
          t.lane x = { s.lane x with
            taps := saturate (s.leg l).setup.rate ⟨pre.toInt, main.toInt, post.toInt⟩ } ∧
          s.TaskDone t n .ok ((s.lane x).taps.bytes ++ (t.lane x).taps.bytes ++
            [if (t.lane x).taps = ⟨pre.toInt, main.toInt, post.toInt⟩ then 0 else 1]) ∧
          s.SameOutsideLegs t [] ∧ s.SameMap t ∧ s.SameLanesBut [x] t))

/-- EYE_SCAN handed over with nothing waiting: arguments outside their sets are refused; on a leg that is not CARRYING,
or while the eye monitor is SCANNING, the task waits; on a page that is not FREE it is refused with PAGE_BUSY, its
result bytes 0 (log 35); else the page is BUSY with the scan, its cells are 0, the eye monitor is SCANNING and the slot
stays TAKEN. While the check of a waiting EYE_SCAN is put off (log 37), a lock loss or a presence loss of its CARRYING
leg takes the leg to ACQUIRE or DARK and the task waits on; with no command waiting the check is made: the scan starts,
or completes PAGE_BUSY, or the task waits on. -/
def Obligations.EyeScanStarts : Prop :=
  ∀ (l : LegId) (s : State),
    (∀ (n : SlotId) (h : TaskHeader) (side lane page dwell : Byte), s.AcceptsTask n → s.AwaitedFor h l →
      ∃ t, Sys2Proof.Machine.exec (.eyeScan n h side lane page dwell) s = .next t ∧
      s.Carried t n .eyeScan h [side, lane, page, dwell] ∧
      (1 < side.toNat ∨ (∀ i ∈ s.members l, i.val ≠ lane.toNat) ∨ 3 < page.toNat ∨
          (dwell ≠ 1 ∧ dwell ≠ 2 ∧ dwell ≠ 4) → s.TaskRefused t n .badArgument) ∧
      (∀ (i : LaneId) (d : Side) (x : LaneSide) (p : PageId), i ∈ s.members l → i.val = lane.toNat →
        (side = 0 ∧ d = .line ∧ x = ⟨.line, i⟩) ∨ (side = 1 ∧ d = .switch ∧ x = ⟨.switch, (s.entry i).source⟩) →
        p.val = page.toNat → dwell = 1 ∨ dwell = 2 ∨ dwell = 4 →
        ((s.leg l).state ≠ .carrying ∨ (s.lane x).monitor = .scanning → s.TaskWaits t n .eyeScan h l) ∧
        ((s.leg l).state = .carrying → (s.lane x).monitor ≠ .scanning → (s.page p).state ≠ .free →
          s.TaskRefused t n .pageBusy) ∧
        ((s.leg l).state = .carrying → (s.lane x).monitor ≠ .scanning → (s.page p).state = .free →
          t.page p = ⟨.busy n (dwell.toNat * 1000), l, d, i, dwell.toNat, 0, .none⟩ ∧
          t.lane x = { s.lane x with monitor := .scanning } ∧ t.slot n = ⟨.taken, .inProgress, false⟩ ∧
          (∀ k, k < 0x80 → t.slotByte n (0x80 + k) = 0) ∧
          (∀ k, k < 0x200 → t.mem.read (pageBase p + 0x200 + k) = 0) ∧
          (∀ a, ¬(slotBase n ≤ a ∧ a < slotBase n + 0x100) →
            ¬(pageBase p + 0x200 ≤ a ∧ a < pageBase p + 0x400) → t.mem.read a = s.mem.read a) ∧
          (∀ m, t.engine m = s.engine m) ∧ t.summary = s.summary ∧ s.SameSlotsBut [n] t ∧ s.SamePagesBut [p] t ∧
          s.SameLanesBut [x] t ∧ s.SameLegsBut [] t ∧ s.SamePower t ∧ s.SameMap t ∧ t.powerWait = s.powerWait ∧
          t.owed = s.owed))) ∧
    (∀ (e : Entry) (p : PageId) (c : Page), s.ScanWaits l e p c → s.handOver = [] → s.owed = [l] →
      s.resetHeld = false →
      (∀ x, s.legOf x = l → s.MapPermutes → (s.leg l).state = .carrying → (s.page p).state = .free →
        (s.lane (s.sideOf c.lane c.side)).monitor ≠ .scanning → (∀ q left, (s.page q).state ≠ .busy e.slot left) →
        ((s.lane x).locked = true →
          ∃ t, Sys2Proof.Machine.exec (.receiverUnlock x) s = .next t ∧ (t.leg l).state = .acquire ∧
            s.ScanWaitsOn t l e p c) ∧
        ((s.lane x).presence.timer.isSome = true → (s.lane x).presence.qualified = true →
          (s.lane x).presence.raw = false →
          ∃ t, Sys2Proof.Machine.exec (.qualificationTimerExpiry x) s = .next t ∧ (t.leg l).state = .dark ∧
            s.ScanWaitsOn t l e p c)) ∧
      (s.pending = [] → ∃ t, Sys2Proof.Machine.step s = .next t ∧ t.owed = [] ∧ s.SameLegsBut [] t ∧
        ((s.leg l).state = .carrying → (s.lane (s.sideOf c.lane c.side)).monitor ≠ .scanning →
          ((s.page p).state = .free → s.ScanStarted t l e p c) ∧
          ((s.page p).state ≠ .free → (t.engine l).queue = [] ∧ s.SamePagesBut [] t ∧ s.SameLanesBut [] t ∧
            t.slot e.slot = { s.slot e.slot with state := .done, status := .pageBusy })) ∧
        ((s.leg l).state ≠ .carrying ∨ (s.lane (s.sideOf c.lane c.side)).monitor = .scanning →
          (∀ m, t.engine m = s.engine m) ∧ s.SamePart t ∧ s.SamePagesBut [] t ∧ s.SameSlotsBut [] t ∧
          s.SameBytes t)))

/-- SNAPSHOT handed over with nothing waiting: a code outside its set is refused; else the result holds the four
counters of each member lane of the side, in the order of the line lanes, least significant byte first, and with
clear-after the counters are 0. -/
def Obligations.SnapshotCopiesTheCounters : Prop :=
  ∀ (n : SlotId) (h : TaskHeader) (side clearAfter : Byte) (l : LegId) (s : State), s.AcceptsTask n →
    s.AwaitedFor h l → ∃ t, Sys2Proof.Machine.exec (.snapshot n h side clearAfter) s = .next t ∧
      s.Carried t n .snapshot h [side, clearAfter] ∧
      (1 < side.toNat ∨ 1 < clearAfter.toNat → s.TaskRefused t n .badArgument) ∧
      (∀ d : Side, clearAfter.toNat ≤ 1 → (side = 0 ∧ d = .line) ∨ (side = 1 ∧ d = .switch) →
        s.TaskDone t n .ok ((s.memberSides l d).flatMap (fun x =>
          bytes32 (s.lane x).counters.presenceDrops ++ bytes32 (s.lane x).counters.lockLosses ++
          bytes32 (s.lane x).counters.badFrames ++ bytes32 (s.lane x).counters.requestsAnswered)) ∧
        s.SameOutsideLegs t [] ∧ s.SameMap t ∧ s.SameLanesBut (s.memberSides l d) t ∧
        ∀ x ∈ s.memberSides l d, t.lane x = { s.lane x with counters :=
          if clearAfter = 1 then ⟨0, 0, 0, 0⟩ else (s.lane x).counters })

/-- REMAP handed over with nothing waiting: sources that are no permutation are refused with BAD_ARGUMENT, a change of
a line lane whose leg is not PARKED with WRONG_STATE; else every entry takes its source and polarities and keeps its
function, the changed lane pairs are masked, a switch lane that comes to an RC-A leg has its PRE set to 0, and the
result names and counts the changed lanes. -/
def Obligations.RemapAppliesTheWholeMap : Prop :=
  ∀ (n : SlotId) (h : TaskHeader) (sources : Vector Byte 8) (switchMask lineMask : Byte) (entries : LaneId → MapEntry)
    (s : State), s.AcceptsTask n → AwaitedForDevice h →
    (∀ i : LaneId, (entries i).source.val = sources[i].toNat % 8 ∧ (entries i).function = (s.entry i).function ∧
      (entries i).switchPolarity = (if switchMask.getLsbD i.val then .inverted else .normal) ∧
      (entries i).linePolarity = (if lineMask.getLsbD i.val then .inverted else .normal)) →
    ∃ t, Sys2Proof.Machine.exec (.remap n h sources switchMask lineMask) s = .next t ∧
      s.Carried t n .remap h (sources.toList ++ [switchMask, lineMask]) ∧
      ((∃ sw : LaneId, ∀ i : LaneId, sources[i].toNat ≠ sw.val) → s.TaskRefused t n .badArgument) ∧
      ((∀ sw : LaneId, ∃ i : LaneId, sources[i].toNat = sw.val) →
        (∃ i, entries i ≠ s.entry i ∧ (s.leg (legOfLine s.straps.profile i)).state ≠ .parked) →
        s.TaskRefused t n .wrongState) ∧
      ((∀ sw : LaneId, ∃ i : LaneId, sources[i].toNat = sw.val) →
        (∀ i, entries i ≠ s.entry i → (s.leg (legOfLine s.straps.profile i)).state = .parked) →
        (∀ i, t.entry i = entries i) ∧
        (∃ mask : Byte, (∀ i : LaneId, mask.getLsbD i.val = decide (entries i ≠ s.entry i)) ∧
          s.TaskDone t n .ok [mask, BitVec.ofNat 8 (allLanes.filter (fun i => entries i ≠ s.entry i)).length]) ∧
        (∀ x : LaneSide, t.lane x = { s.lane x with
          taps := if x.side = .switch ∧ t.legOf x ≠ s.legOf x ∧ t.rateOf x = .rcA
            then { (s.lane x).taps with pre := 0 } else (s.lane x).taps
          mask := if entries (t.lineOf x) ≠ s.entry (t.lineOf x)
            then ⟨some 2000, if (s.lane x).mask.timer = none then (s.lane x).presence.qualified
              else (s.lane x).mask.start⟩
            else (s.lane x).mask }) ∧
        s.SameOutsideLegs t [])

/-- POWER handed over with nothing waiting: a code outside its set is refused. LOW: LOW is requested and effective,
every leg PARKED, OK. ACTIVE: already ACTIVE, OK; with LOWPWR asserted, HELD_LOW; else the part rises and the task
waits for the rise. -/
def Obligations.PowerTaskMovesThePower : Prop :=
  ∀ (n : SlotId) (h : TaskHeader) (requested : Byte) (s : State), s.AcceptsTask n → AwaitedForDevice h →
    ∃ t, Sys2Proof.Machine.exec (.power n h requested) s = .next t ∧ s.TaskWritten t n .power h [requested] ∧
      s.LineAfter t (slotBase n + 0x11) ∧ s.SamePins t ∧ s.SameDevice t ∧ s.SameFaults t ∧ s.SameMap t ∧
      (1 < requested.toNat → s.TaskRefused t n .badArgument) ∧
      (requested = 0 → t.requested = .low ∧ t.effective = .low ∧ t.slot n = ⟨.done, .ok, false⟩ ∧
        t.slotByte n 0x80 = 0 ∧ t.slotByte n 0x81 = 0 ∧ t.summary.getLsbD n.val = true ∧
        (s.effective = .low → s.TaskDone t n .ok [0, 0] ∧ t.riseTimer = s.riseTimer ∧ t.powerWait = s.powerWait ∧
          s.SameLanesBut [] t ∧ s.SameLegsBut [] t ∧ s.SamePagesBut [] t ∧ ∀ l, t.engine l = s.engine l) ∧
        (s.effective ≠ .low → t.riseTimer = none ∧ t.summary.getLsbD 25 = true ∧ t.powerWait = [] ∧
          (∀ m ∈ s.powerWait, m ≠ n → (t.slot m).state = .done ∧ (t.slot m).status = .superseded) ∧
          (∀ l, (t.leg l).state = .parked ∧ (t.leg l).intent = (s.leg l).intent) ∧
          ∀ x, (t.lane x).locked = false ∧ (t.lane x).taps = (s.lane x).taps ∧
            (t.lane x).counters = (s.lane x).counters ∧ (t.lane x).presence = (s.lane x).presence)) ∧
      (requested = 1 → t.requested = .active ∧ s.SameLanesBut [] t ∧ s.SameLegsBut [] t ∧ s.SamePagesBut [] t ∧
        (∀ l, t.engine l = s.engine l) ∧
        (s.effective = .active → s.TaskDone t n .ok [1, 2] ∧ t.effective = .active ∧ t.riseTimer = s.riseTimer ∧
          t.powerWait = s.powerWait) ∧
        (s.effective ≠ .active → s.lowpwr = true →
          s.TaskDone t n .heldLow [1, if s.effective = .low then 0 else 1] ∧ t.effective = s.effective ∧
          t.riseTimer = s.riseTimer ∧ t.powerWait = s.powerWait) ∧
        (s.effective ≠ .active → s.lowpwr = false →
          s.TaskTaken t n ∧ t.effective = .rising ∧ t.powerWait = s.powerWait ++ [n] ∧ t.summary = s.summary ∧
          t.riseTimer = (if s.effective = .low then some 10000 else s.riseTimer)))

/-- A refusal at intake: an awaited LEG_START for an unused leg or a leg code outside 0 to 3 is DONE with BAD_ARGUMENT;
a posted SNAPSHOT leaves the slot EMPTY and is reported with NOT_POSTABLE. And a posted LEG_PARK of a PARKED leg runs,
leaves the slot EMPTY and reports nothing. -/
def Obligations.IntakeChecksTheHeader : Prop :=
  ∀ (n : SlotId) (h : TaskHeader) (s : State), s.AcceptsTask n →
    (h.cls ≠ 1 → (∀ l : LegId, l.val = h.leg.toNat → s.used l = false) →
      ∃ t, Sys2Proof.Machine.exec (.legStart n h) s = .next t ∧ s.Carried t n .legStart h [] ∧
        s.TaskRefused t n .badArgument) ∧
    (h.cls = 1 → ∀ side clearAfter : Byte, ∃ t, Sys2Proof.Machine.exec (.snapshot n h side clearAfter) s = .next t ∧
      s.TaskWritten t n .snapshot h [side, clearAfter] ∧ s.SameBytesOutside t n ∧ s.SameSlotsBut [] t ∧
      s.FaultReported t ⟨.posted, .notPostable, n.val, 8, h.leg, h.label0, h.label1, 0, 0⟩ ∧ s.SamePart t ∧
      s.SameTasks t ∧ s.SamePagesBut [] t ∧ s.SameSettings t ∧ s.LineAfter t (slotBase n + 0x12)) ∧
    (h.cls = 1 → ∀ l : LegId, l.val = h.leg.toNat → s.used l = true → h.patience.toNat ≤ 3 →
      (s.leg l).state = .parked →
      ∃ t, Sys2Proof.Machine.exec (.legPark n h) s = .next t ∧ s.TaskWritten t n .legPark h [] ∧
        t.leg l = { s.leg l with intent := false } ∧ s.SameBytesOutside t n ∧ s.SameSlotsBut [] t ∧
        s.SameAttention t ∧ s.SameFaults t ∧ s.SameTasks t ∧ s.SamePins t ∧ s.SamePower t ∧ s.SameDevice t ∧
        s.SameMap t ∧ s.SameLanesBut [] t ∧ s.SameLegsBut [l] t ∧ s.SamePagesBut [] t ∧
        s.LineAfter t (slotBase n + 0x10))

/-- What passes, and what supersedes, behind a deferred awaited LEG_RETUNE at the head of a leg queue. LEG_PARK handed
over passes: the head is DONE with SUPERSEDED, an awaited LEG_START that stood behind it as well, with the leg's items
after the park as its result, the leg PARKED with intent 0, LEG_PARK DONE with OK, the queue empty. A
posted SET_TAPS handed over is executed past the head with passing on, or deferred behind it where it waits; with
passing off it stands behind the head unchecked. LOWPWR_ASSERT: the deferred head completes SUPERSEDED, an awaited one
in its slot, a posted one as a fault, and an awaited LEG_START that stood unchecked behind is then executed: HELD_LOW,
its intent taken. -/
def Obligations.QueuedEntriesPassOrAreSuperseded : Prop :=
  ∀ (l : LegId) (e : Entry) (s : State), e.deferred = true →
    (∀ (n : SlotId) (h : TaskHeader) (rest : List Entry), s.LineFree → s.device = .ready →
      (s.holdIntake = false ∨ s.faultRecord = none) → (s.slot n).state = .empty → s.handOver = [] →
      s.mem.wf = true → h.leg.toNat = l.val → s.used l = true → h.patience.toNat ≤ 3 →
      (s.engine l).queue = e :: rest →
      rest = [] ∨ (∃ g, rest = [g] ∧ g.deferred = false ∧ g.awaited = true ∧ g.kind = .legStart ∧
        g.slot ≠ e.slot ∧ g.slot ≠ n) →
      e.awaited = true → e.kind = .legRetune → e.patience.toNat ≤ 3 → (s.slotByte e.slot 0x10).toNat ≤ 2 →
      e.slot ≠ n → (s.leg l).state ≠ .carrying →
      (h.cls ≠ 1 → ∃ t, Sys2Proof.Machine.exec (.legPark n h) s = .next t ∧ (t.engine l).queue = [] ∧
        (t.slot e.slot).state = .done ∧ (t.slot e.slot).status = .superseded ∧ (t.slot n).state = .done ∧
        (t.slot n).status = .ok ∧ t.summary.getLsbD e.slot.val = true ∧ t.summary.getLsbD n.val = true ∧
        (t.leg l).state = .parked ∧ (t.leg l).intent = false ∧ s.SameLegsBut [l] t ∧ s.SamePins t ∧ s.SamePower t ∧
        s.SameDevice t ∧ s.SameMap t ∧ s.SamePagesBut [] t ∧ s.SameFaults t ∧
        (∀ g ∈ rest, (t.slot g.slot).state = .done ∧ (t.slot g.slot).status = .superseded ∧
          t.summary.getLsbD g.slot.val = true ∧ t.slotByte g.slot 0x80 = 0 ∧
          t.slotByte g.slot 0x81 = (s.leg l).grade.code ∧
          t.slotByte g.slot 0x82 = BitVec.ofNat 8 (s.leg l).attempts ∧
          t.slotByte g.slot 0x83 = (s.leg l).cause.code ∧
          t.slotByte g.slot 0x84 = (if (s.leg l).givenUp then 1 else 0)) ∧
        (∀ m, m ≠ n → m ≠ e.slot → m ∉ rest.map (·.slot) → some m ≠ (s.engine l).inFlight →
          t.slot m = s.slot m)) ∧
      (h.cls = 1 → rest = [] → ∀ (side lane pre main post : Byte) (i : LaneId) (x : LaneSide), i ∈ s.members l →
        i.val = lane.toNat → (side = 0 ∧ x = ⟨.line, i⟩) ∨ (side = 1 ∧ x = ⟨.switch, (s.entry i).source⟩) →
        ∃ t, Sys2Proof.Machine.exec (.setTaps n h side lane pre main post) s = .next t ∧
          s.TaskWritten t n .setTaps h [side, lane, pre, main, post] ∧ s.SameSlotsBut [] t ∧ s.SameBytesOutside t n ∧
          s.SameLegsBut [] t ∧ s.SameOutsideLegs t [l] ∧ s.SameMap t ∧ s.SameFaults t ∧ s.SameAttention t ∧
          (t.engine l).inFlight = (s.engine l).inFlight ∧
          ((s.leg l).setup.passing = true → (s.leg l).state = .parked →
            (t.engine l).queue = [e] ∧ s.SameLanesBut [x] t ∧
            t.lane x = { s.lane x with
              taps := saturate (s.leg l).setup.rate ⟨pre.toInt, main.toInt, post.toInt⟩ }) ∧
          ((s.leg l).setup.passing = false ∨ (s.leg l).state ≠ .parked →
            s.SameLanesBut [] t ∧ ∃ q, (t.engine l).queue = [e, q] ∧ q.kind = .setTaps ∧ q.awaited = false ∧
              q.slot = n ∧ q.label0 = h.label0 ∧ q.label1 = h.label1 ∧
              q.args.take 5 = [side, lane, pre, main, post] ∧ q.deferred = (s.leg l).setup.passing ∧
              q.clock = (if (s.leg l).setup.passing then patienceClock h.patience else none)))) ∧
    (∀ rest : List Entry, s.resetHeld = false → s.lowpwr = false → s.effective ≠ .low → s.handOver = [] →
      (∀ m, m ≠ l → (s.engine m).queue = []) → (s.engine l).queue = e :: rest → e.slot ∉ s.powerWait →
      rest = [] ∨ (∃ g, rest = [g] ∧ g.deferred = false ∧ g.awaited = true ∧ g.kind = .legStart ∧
        g.patience.toNat ≤ 3 ∧ g.slot ≠ e.slot ∧ ∀ i ∈ s.members l, (s.entry i).function = .carry) →
      ∃ t, Sys2Proof.Machine.exec .lowpwrAssert s = .next t ∧ (t.engine l).queue = [] ∧
        (t.leg l).state = .parked ∧
        (e.awaited = true → (t.slot e.slot).state = .done ∧ (t.slot e.slot).status = .superseded ∧
          t.summary.getLsbD e.slot.val = true) ∧
        (e.awaited = false → s.faultRecord = none →
          t.faultRecord = some ⟨.posted, .superseded, e.slot.val, e.kindByte, e.leg, e.label0, e.label1, 0, 0⟩ ∧
          t.summary.getLsbD 24 = true) ∧
        (∀ g ∈ rest, (t.slot g.slot).state = .done ∧ (t.slot g.slot).status = .heldLow ∧
          t.summary.getLsbD g.slot.val = true ∧ (t.leg l).intent = true ∧ (t.leg l).attempts = 0))

/-! ### Invariants of every step -/

/-- Every step keeps the stored bytes of slots and pages in the model's own canonical form (log 22): offsets rising,
no byte 0; and with it every cell of a page at or above its cells done 0, the cells done at most 512 and fewer in a
BUSY page. -/
def Obligations.StepKeepsTheMemoryAndTheCells : Prop :=
  ∀ s t : State, s.mem.wf = true → Sys2Proof.Machine.step s = .next t →
    t.mem.wf = true ∧ (s.CellsSound → t.CellsSound)

/-- Every step keeps the hand-over order list at exactly the FILLED slots, each once, and the slot of every awaited task
that has been taken and not finished TAKEN and in one place only. -/
def Obligations.StepKeepsTheTaskSlots : Prop :=
  ∀ s t : State, s.SlotsAccounted → Sys2Proof.Machine.step s = .next t → t.SlotsAccounted

/-- Every step keeps the sources of the lane map a permutation, and the triple of every transmitter valid for its rate
class. -/
def Obligations.StepKeepsMapAndTaps : Prop :=
  ∀ s t : State, s.MapPermutes → s.TapsValid → Sys2Proof.Machine.step s = .next t → t.MapPermutes ∧ t.TapsValid

/-- Every step keeps every leg PARKED while the power is not ACTIVE, an unused leg PARKED with intent 0 and no task,
and every leg that is not PARKED, or that holds intent 1, with its member lanes in CARRY. -/
def Obligations.StepKeepsTheLegRules : Prop :=
  ∀ s t : State, s.ParkedWithoutPower → s.UnusedParked → s.CarryOutsideParked → Sys2Proof.Machine.step s = .next t →
    t.ParkedWithoutPower ∧ t.UnusedParked ∧ t.CarryOutsideParked

/-- Every step keeps the bounds of the queues and of the lane and leg counters, the fault log in step with bit 24 of
the summary, and the unimplemented bits of the summary and the enables 0. -/
def Obligations.StepKeepsTheRegistersInRange : Prop :=
  ∀ s t : State, s.QueuesBounded → s.CountersBounded → s.LegCountersBounded → s.FaultLogSound → s.WordsImplemented →
    Sys2Proof.Machine.step s = .next t →
    t.QueuesBounded ∧ t.CountersBounded ∧ t.LegCountersBounded ∧ t.FaultLogSound ∧ t.WordsImplemented

/-- The state after reset, a power-on with every strap at 0 (the model's choice, log 4), meets every invariant. -/
def Obligations.ResetMeetsTheInvariants : Prop :=
  State.reset.mem.wf = true ∧ State.reset.MapPermutes ∧ State.reset.TapsValid ∧ State.reset.ParkedWithoutPower ∧
  State.reset.UnusedParked ∧ State.reset.CarryOutsideParked ∧ State.reset.QueuesBounded ∧
  State.reset.CountersBounded ∧ State.reset.LegCountersBounded ∧ State.reset.FaultLogSound ∧
  State.reset.WordsImplemented ∧ State.reset.CellsSound ∧ State.reset.SlotsAccounted

end
end

