-- ==== Sys2Proof/Laws/DataPath.lean ====
section
/-! SUPPORT. The laws of the crossbar and of the polarity stage: a map whose sources are a permutation pairs the lane
sides two by two, and a signal that passes one polarity stage twice is as it was. -/

namespace Sys2Proof.Machine

variable {s : State}

@[simp] theorem State.lineOf_line (s : State) (i : LaneId) : s.lineOf ⟨.line, i⟩ = i := rfl

@[simp] theorem State.pairedWith_line (s : State) (i : LaneId) :
    s.pairedWith ⟨.line, i⟩ = ⟨.switch, (s.entry i).source⟩ := rfl

@[simp] theorem State.pairedWith_switch (s : State) (sw : LaneId) :
    s.pairedWith ⟨.switch, sw⟩ = ⟨.line, s.fedBy sw⟩ := rfl

/-- Every function onto the eight lanes takes no value twice. -/
theorem source_injective (h : s.MapPermutes) : Function.Injective (fun i => (s.entry i).source) :=
  Finite.injective_iff_surjective.mpr h

/-- R3, R4: the line lane that a source feeds is the one that names it. -/
@[simp] theorem State.fedBy_source (h : s.MapPermutes) (i : LaneId) : s.fedBy (s.entry i).source = i := by
  have hi : i ∈ allLanes := by revert i; decide
  cases hf : allLanes.find? (fun j => (s.entry j).source = (s.entry i).source) with
  | none => simpa using List.find?_eq_none.mp hf i hi
  | some j =>
    have hj : (s.entry j).source = (s.entry i).source := by simpa using List.find?_some hf
    simpa [State.fedBy, hf] using source_injective h hj

/-- R3, R4: the line lane that a switch lane feeds names it as its source. -/
@[simp] theorem State.source_fedBy (h : s.MapPermutes) (sw : LaneId) : (s.entry (s.fedBy sw)).source = sw := by
  obtain ⟨i, rfl⟩ := h sw
  rw [State.fedBy_source h]

/-- R5: the pairing is mutual. -/
@[simp] theorem State.pairedWith_pairedWith (h : s.MapPermutes) (x : LaneSide) :
    s.pairedWith (s.pairedWith x) = x := by
  rcases x with ⟨side, lane⟩
  cases side <;> simp [h]

/-- R3: both ends of a pair belong to one leg. -/
@[simp] theorem State.legOf_pairedWith (h : s.MapPermutes) (x : LaneSide) : s.legOf (s.pairedWith x) = s.legOf x := by
  rcases x with ⟨side, lane⟩
  cases side
  · exact congrArg (legOfLine s.straps.profile) (State.fedBy_source h lane)
  · rfl

@[simp] theorem applyPolarity_applyPolarity (p : Polarity) (b : Byte) : applyPolarity p (applyPolarity p b) = b := by
  cases p <;> simp [applyPolarity]

@[simp] theorem State.throughPolarity_length (s : State) (x : LaneSide) (bs : List Byte) :
    (s.throughPolarity x bs).length = bs.length := by simp [State.throughPolarity]

/-- R6: in once and out once of one lane side leaves a signal as it was. -/
@[simp] theorem State.throughPolarity_throughPolarity (s : State) (x : LaneSide) (bs : List Byte) :
    s.throughPolarity x (s.throughPolarity x bs) = bs := by
  simp [State.throughPolarity, Function.comp_def]

end Sys2Proof.Machine
end

