-- ==== Sys2Proof/Laws/State.lean ====
section
/-! SUPPORT. For every update of a part of the state, what each field of the state holds after it: one lemma per field per
update, true by unfolding, so that no later proof unfolds a record update. -/

namespace Sys2Proof.Machine

variable (s : State)

/-! ### modLane -/

@[simp] theorem State.modLane_pending (x : LaneSide) (f : LaneState → LaneState) : (s.modLane x f).pending = s.pending := rfl
@[simp] theorem State.modLane_resetHeld (x : LaneSide) (f : LaneState → LaneState) : (s.modLane x f).resetHeld = s.resetHeld := rfl
@[simp] theorem State.modLane_lowpwr (x : LaneSide) (f : LaneState → LaneState) : (s.modLane x f).lowpwr = s.lowpwr := rfl
@[simp] theorem State.modLane_straps (x : LaneSide) (f : LaneState → LaneState) : (s.modLane x f).straps = s.straps := rfl
@[simp] theorem State.modLane_requested (x : LaneSide) (f : LaneState → LaneState) : (s.modLane x f).requested = s.requested := rfl
@[simp] theorem State.modLane_effective (x : LaneSide) (f : LaneState → LaneState) : (s.modLane x f).effective = s.effective := rfl
@[simp] theorem State.modLane_riseTimer (x : LaneSide) (f : LaneState → LaneState) : (s.modLane x f).riseTimer = s.riseTimer := rfl
@[simp] theorem State.modLane_device (x : LaneSide) (f : LaneState → LaneState) : (s.modLane x f).device = s.device := rfl
@[simp] theorem State.modLane_initTimer (x : LaneSide) (f : LaneState → LaneState) : (s.modLane x f).initTimer = s.initTimer := rfl
@[simp] theorem State.modLane_initByPowerOn (x : LaneSide) (f : LaneState → LaneState) : (s.modLane x f).initByPowerOn = s.initByPowerOn := rfl
@[simp] theorem State.modLane_resetTimer (x : LaneSide) (f : LaneState → LaneState) : (s.modLane x f).resetTimer = s.resetTimer := rfl
@[simp] theorem State.modLane_lastCause (x : LaneSide) (f : LaneState → LaneState) : (s.modLane x f).lastCause = s.lastCause := rfl
@[simp] theorem State.modLane_releaseCause (x : LaneSide) (f : LaneState → LaneState) : (s.modLane x f).releaseCause = s.releaseCause := rfl
@[simp] theorem State.modLane_map (x : LaneSide) (f : LaneState → LaneState) : (s.modLane x f).map = s.map := rfl
@[simp] theorem State.modLane_legs (x : LaneSide) (f : LaneState → LaneState) : (s.modLane x f).legs = s.legs := rfl
@[simp] theorem State.modLane_engines (x : LaneSide) (f : LaneState → LaneState) : (s.modLane x f).engines = s.engines := rfl
@[simp] theorem State.modLane_deviceQueue (x : LaneSide) (f : LaneState → LaneState) : (s.modLane x f).deviceQueue = s.deviceQueue := rfl
@[simp] theorem State.modLane_powerWait (x : LaneSide) (f : LaneState → LaneState) : (s.modLane x f).powerWait = s.powerWait := rfl
@[simp] theorem State.modLane_handOver (x : LaneSide) (f : LaneState → LaneState) : (s.modLane x f).handOver = s.handOver := rfl
@[simp] theorem State.modLane_owed (x : LaneSide) (f : LaneState → LaneState) : (s.modLane x f).owed = s.owed := rfl
@[simp] theorem State.modLane_slots (x : LaneSide) (f : LaneState → LaneState) : (s.modLane x f).slots = s.slots := rfl
@[simp] theorem State.modLane_pages (x : LaneSide) (f : LaneState → LaneState) : (s.modLane x f).pages = s.pages := rfl
@[simp] theorem State.modLane_mem (x : LaneSide) (f : LaneState → LaneState) : (s.modLane x f).mem = s.mem := rfl
@[simp] theorem State.modLane_summary (x : LaneSide) (f : LaneState → LaneState) : (s.modLane x f).summary = s.summary := rfl
@[simp] theorem State.modLane_enables (x : LaneSide) (f : LaneState → LaneState) : (s.modLane x f).enables = s.enables := rfl
@[simp] theorem State.modLane_latchedMode (x : LaneSide) (f : LaneState → LaneState) : (s.modLane x f).latchedMode = s.latchedMode := rfl
@[simp] theorem State.modLane_holdIntake (x : LaneSide) (f : LaneState → LaneState) : (s.modLane x f).holdIntake = s.holdIntake := rfl
@[simp] theorem State.modLane_latchedLine (x : LaneSide) (f : LaneState → LaneState) : (s.modLane x f).latchedLine = s.latchedLine := rfl
@[simp] theorem State.modLane_faultRecord (x : LaneSide) (f : LaneState → LaneState) : (s.modLane x f).faultRecord = s.faultRecord := rfl
@[simp] theorem State.modLane_laterFaults (x : LaneSide) (f : LaneState → LaneState) : (s.modLane x f).laterFaults = s.laterFaults := rfl
@[simp] theorem State.modLane_offset (x : LaneSide) (f : LaneState → LaneState) : (s.modLane x f).offset = s.offset := rfl
@[simp] theorem State.modLane_writeOpen (x : LaneSide) (f : LaneState → LaneState) : (s.modLane x f).writeOpen = s.writeOpen := rfl
@[simp] theorem State.modLane_readOpen (x : LaneSide) (f : LaneState → LaneState) : (s.modLane x f).readOpen = s.readOpen := rfl
@[simp] theorem State.modLane_acknowledged (x : LaneSide) (f : LaneState → LaneState) : (s.modLane x f).acknowledged = s.acknowledged := rfl
@[simp] theorem State.modLane_readData (x : LaneSide) (f : LaneState → LaneState) : (s.modLane x f).readData = s.readData := rfl
@[simp] theorem State.modLane_freeCount (x : LaneSide) (f : LaneState → LaneState) : (s.modLane x f).freeCount = s.freeCount := rfl

/-! ### modAllLanes -/

@[simp] theorem State.modAllLanes_pending (f : LaneState → LaneState) : (s.modAllLanes f).pending = s.pending := rfl
@[simp] theorem State.modAllLanes_resetHeld (f : LaneState → LaneState) : (s.modAllLanes f).resetHeld = s.resetHeld := rfl
@[simp] theorem State.modAllLanes_lowpwr (f : LaneState → LaneState) : (s.modAllLanes f).lowpwr = s.lowpwr := rfl
@[simp] theorem State.modAllLanes_straps (f : LaneState → LaneState) : (s.modAllLanes f).straps = s.straps := rfl
@[simp] theorem State.modAllLanes_requested (f : LaneState → LaneState) : (s.modAllLanes f).requested = s.requested := rfl
@[simp] theorem State.modAllLanes_effective (f : LaneState → LaneState) : (s.modAllLanes f).effective = s.effective := rfl
@[simp] theorem State.modAllLanes_riseTimer (f : LaneState → LaneState) : (s.modAllLanes f).riseTimer = s.riseTimer := rfl
@[simp] theorem State.modAllLanes_device (f : LaneState → LaneState) : (s.modAllLanes f).device = s.device := rfl
@[simp] theorem State.modAllLanes_initTimer (f : LaneState → LaneState) : (s.modAllLanes f).initTimer = s.initTimer := rfl
@[simp] theorem State.modAllLanes_initByPowerOn (f : LaneState → LaneState) : (s.modAllLanes f).initByPowerOn = s.initByPowerOn := rfl
@[simp] theorem State.modAllLanes_resetTimer (f : LaneState → LaneState) : (s.modAllLanes f).resetTimer = s.resetTimer := rfl
@[simp] theorem State.modAllLanes_lastCause (f : LaneState → LaneState) : (s.modAllLanes f).lastCause = s.lastCause := rfl
@[simp] theorem State.modAllLanes_releaseCause (f : LaneState → LaneState) : (s.modAllLanes f).releaseCause = s.releaseCause := rfl
@[simp] theorem State.modAllLanes_map (f : LaneState → LaneState) : (s.modAllLanes f).map = s.map := rfl
@[simp] theorem State.modAllLanes_lineSide (f : LaneState → LaneState) : (s.modAllLanes f).lineSide = mapVector f s.lineSide := rfl
@[simp] theorem State.modAllLanes_switchSide (f : LaneState → LaneState) : (s.modAllLanes f).switchSide = mapVector f s.switchSide := rfl
@[simp] theorem State.modAllLanes_legs (f : LaneState → LaneState) : (s.modAllLanes f).legs = s.legs := rfl
@[simp] theorem State.modAllLanes_engines (f : LaneState → LaneState) : (s.modAllLanes f).engines = s.engines := rfl
@[simp] theorem State.modAllLanes_deviceQueue (f : LaneState → LaneState) : (s.modAllLanes f).deviceQueue = s.deviceQueue := rfl
@[simp] theorem State.modAllLanes_powerWait (f : LaneState → LaneState) : (s.modAllLanes f).powerWait = s.powerWait := rfl
@[simp] theorem State.modAllLanes_handOver (f : LaneState → LaneState) : (s.modAllLanes f).handOver = s.handOver := rfl
@[simp] theorem State.modAllLanes_owed (f : LaneState → LaneState) : (s.modAllLanes f).owed = s.owed := rfl
@[simp] theorem State.modAllLanes_slots (f : LaneState → LaneState) : (s.modAllLanes f).slots = s.slots := rfl
@[simp] theorem State.modAllLanes_pages (f : LaneState → LaneState) : (s.modAllLanes f).pages = s.pages := rfl
@[simp] theorem State.modAllLanes_mem (f : LaneState → LaneState) : (s.modAllLanes f).mem = s.mem := rfl
@[simp] theorem State.modAllLanes_summary (f : LaneState → LaneState) : (s.modAllLanes f).summary = s.summary := rfl
@[simp] theorem State.modAllLanes_enables (f : LaneState → LaneState) : (s.modAllLanes f).enables = s.enables := rfl
@[simp] theorem State.modAllLanes_latchedMode (f : LaneState → LaneState) : (s.modAllLanes f).latchedMode = s.latchedMode := rfl
@[simp] theorem State.modAllLanes_holdIntake (f : LaneState → LaneState) : (s.modAllLanes f).holdIntake = s.holdIntake := rfl
@[simp] theorem State.modAllLanes_latchedLine (f : LaneState → LaneState) : (s.modAllLanes f).latchedLine = s.latchedLine := rfl
@[simp] theorem State.modAllLanes_faultRecord (f : LaneState → LaneState) : (s.modAllLanes f).faultRecord = s.faultRecord := rfl
@[simp] theorem State.modAllLanes_laterFaults (f : LaneState → LaneState) : (s.modAllLanes f).laterFaults = s.laterFaults := rfl
@[simp] theorem State.modAllLanes_offset (f : LaneState → LaneState) : (s.modAllLanes f).offset = s.offset := rfl
@[simp] theorem State.modAllLanes_writeOpen (f : LaneState → LaneState) : (s.modAllLanes f).writeOpen = s.writeOpen := rfl
@[simp] theorem State.modAllLanes_readOpen (f : LaneState → LaneState) : (s.modAllLanes f).readOpen = s.readOpen := rfl
@[simp] theorem State.modAllLanes_acknowledged (f : LaneState → LaneState) : (s.modAllLanes f).acknowledged = s.acknowledged := rfl
@[simp] theorem State.modAllLanes_readData (f : LaneState → LaneState) : (s.modAllLanes f).readData = s.readData := rfl
@[simp] theorem State.modAllLanes_freeCount (f : LaneState → LaneState) : (s.modAllLanes f).freeCount = s.freeCount := rfl

/-! ### modLeg -/

@[simp] theorem State.modLeg_pending (l : LegId) (f : Leg → Leg) : (s.modLeg l f).pending = s.pending := rfl
@[simp] theorem State.modLeg_resetHeld (l : LegId) (f : Leg → Leg) : (s.modLeg l f).resetHeld = s.resetHeld := rfl
@[simp] theorem State.modLeg_lowpwr (l : LegId) (f : Leg → Leg) : (s.modLeg l f).lowpwr = s.lowpwr := rfl
@[simp] theorem State.modLeg_straps (l : LegId) (f : Leg → Leg) : (s.modLeg l f).straps = s.straps := rfl
@[simp] theorem State.modLeg_requested (l : LegId) (f : Leg → Leg) : (s.modLeg l f).requested = s.requested := rfl
@[simp] theorem State.modLeg_effective (l : LegId) (f : Leg → Leg) : (s.modLeg l f).effective = s.effective := rfl
@[simp] theorem State.modLeg_riseTimer (l : LegId) (f : Leg → Leg) : (s.modLeg l f).riseTimer = s.riseTimer := rfl
@[simp] theorem State.modLeg_device (l : LegId) (f : Leg → Leg) : (s.modLeg l f).device = s.device := rfl
@[simp] theorem State.modLeg_initTimer (l : LegId) (f : Leg → Leg) : (s.modLeg l f).initTimer = s.initTimer := rfl
@[simp] theorem State.modLeg_initByPowerOn (l : LegId) (f : Leg → Leg) : (s.modLeg l f).initByPowerOn = s.initByPowerOn := rfl
@[simp] theorem State.modLeg_resetTimer (l : LegId) (f : Leg → Leg) : (s.modLeg l f).resetTimer = s.resetTimer := rfl
@[simp] theorem State.modLeg_lastCause (l : LegId) (f : Leg → Leg) : (s.modLeg l f).lastCause = s.lastCause := rfl
@[simp] theorem State.modLeg_releaseCause (l : LegId) (f : Leg → Leg) : (s.modLeg l f).releaseCause = s.releaseCause := rfl
@[simp] theorem State.modLeg_map (l : LegId) (f : Leg → Leg) : (s.modLeg l f).map = s.map := rfl
@[simp] theorem State.modLeg_lineSide (l : LegId) (f : Leg → Leg) : (s.modLeg l f).lineSide = s.lineSide := rfl
@[simp] theorem State.modLeg_switchSide (l : LegId) (f : Leg → Leg) : (s.modLeg l f).switchSide = s.switchSide := rfl
@[simp] theorem State.modLeg_legs (l : LegId) (f : Leg → Leg) : (s.modLeg l f).legs = s.legs.set l (f s.legs[l]) := rfl
@[simp] theorem State.modLeg_engines (l : LegId) (f : Leg → Leg) : (s.modLeg l f).engines = s.engines := rfl
@[simp] theorem State.modLeg_deviceQueue (l : LegId) (f : Leg → Leg) : (s.modLeg l f).deviceQueue = s.deviceQueue := rfl
@[simp] theorem State.modLeg_powerWait (l : LegId) (f : Leg → Leg) : (s.modLeg l f).powerWait = s.powerWait := rfl
@[simp] theorem State.modLeg_handOver (l : LegId) (f : Leg → Leg) : (s.modLeg l f).handOver = s.handOver := rfl
@[simp] theorem State.modLeg_owed (l : LegId) (f : Leg → Leg) : (s.modLeg l f).owed = s.owed := rfl
@[simp] theorem State.modLeg_slots (l : LegId) (f : Leg → Leg) : (s.modLeg l f).slots = s.slots := rfl
@[simp] theorem State.modLeg_pages (l : LegId) (f : Leg → Leg) : (s.modLeg l f).pages = s.pages := rfl
@[simp] theorem State.modLeg_mem (l : LegId) (f : Leg → Leg) : (s.modLeg l f).mem = s.mem := rfl
@[simp] theorem State.modLeg_summary (l : LegId) (f : Leg → Leg) : (s.modLeg l f).summary = s.summary := rfl
@[simp] theorem State.modLeg_enables (l : LegId) (f : Leg → Leg) : (s.modLeg l f).enables = s.enables := rfl
@[simp] theorem State.modLeg_latchedMode (l : LegId) (f : Leg → Leg) : (s.modLeg l f).latchedMode = s.latchedMode := rfl
@[simp] theorem State.modLeg_holdIntake (l : LegId) (f : Leg → Leg) : (s.modLeg l f).holdIntake = s.holdIntake := rfl
@[simp] theorem State.modLeg_latchedLine (l : LegId) (f : Leg → Leg) : (s.modLeg l f).latchedLine = s.latchedLine := rfl
@[simp] theorem State.modLeg_faultRecord (l : LegId) (f : Leg → Leg) : (s.modLeg l f).faultRecord = s.faultRecord := rfl
@[simp] theorem State.modLeg_laterFaults (l : LegId) (f : Leg → Leg) : (s.modLeg l f).laterFaults = s.laterFaults := rfl
@[simp] theorem State.modLeg_offset (l : LegId) (f : Leg → Leg) : (s.modLeg l f).offset = s.offset := rfl
@[simp] theorem State.modLeg_writeOpen (l : LegId) (f : Leg → Leg) : (s.modLeg l f).writeOpen = s.writeOpen := rfl
@[simp] theorem State.modLeg_readOpen (l : LegId) (f : Leg → Leg) : (s.modLeg l f).readOpen = s.readOpen := rfl
@[simp] theorem State.modLeg_acknowledged (l : LegId) (f : Leg → Leg) : (s.modLeg l f).acknowledged = s.acknowledged := rfl
@[simp] theorem State.modLeg_readData (l : LegId) (f : Leg → Leg) : (s.modLeg l f).readData = s.readData := rfl
@[simp] theorem State.modLeg_freeCount (l : LegId) (f : Leg → Leg) : (s.modLeg l f).freeCount = s.freeCount := rfl

/-! ### modLegSide -/

@[simp] theorem State.modLegSide_pending (l : LegId) (side : Side) (f : LegSide → LegSide) : (s.modLegSide l side f).pending = s.pending := rfl
@[simp] theorem State.modLegSide_resetHeld (l : LegId) (side : Side) (f : LegSide → LegSide) : (s.modLegSide l side f).resetHeld = s.resetHeld := rfl
@[simp] theorem State.modLegSide_lowpwr (l : LegId) (side : Side) (f : LegSide → LegSide) : (s.modLegSide l side f).lowpwr = s.lowpwr := rfl
@[simp] theorem State.modLegSide_straps (l : LegId) (side : Side) (f : LegSide → LegSide) : (s.modLegSide l side f).straps = s.straps := rfl
@[simp] theorem State.modLegSide_requested (l : LegId) (side : Side) (f : LegSide → LegSide) : (s.modLegSide l side f).requested = s.requested := rfl
@[simp] theorem State.modLegSide_effective (l : LegId) (side : Side) (f : LegSide → LegSide) : (s.modLegSide l side f).effective = s.effective := rfl
@[simp] theorem State.modLegSide_riseTimer (l : LegId) (side : Side) (f : LegSide → LegSide) : (s.modLegSide l side f).riseTimer = s.riseTimer := rfl
@[simp] theorem State.modLegSide_device (l : LegId) (side : Side) (f : LegSide → LegSide) : (s.modLegSide l side f).device = s.device := rfl
@[simp] theorem State.modLegSide_initTimer (l : LegId) (side : Side) (f : LegSide → LegSide) : (s.modLegSide l side f).initTimer = s.initTimer := rfl
@[simp] theorem State.modLegSide_initByPowerOn (l : LegId) (side : Side) (f : LegSide → LegSide) : (s.modLegSide l side f).initByPowerOn = s.initByPowerOn := rfl
@[simp] theorem State.modLegSide_resetTimer (l : LegId) (side : Side) (f : LegSide → LegSide) : (s.modLegSide l side f).resetTimer = s.resetTimer := rfl
@[simp] theorem State.modLegSide_lastCause (l : LegId) (side : Side) (f : LegSide → LegSide) : (s.modLegSide l side f).lastCause = s.lastCause := rfl
@[simp] theorem State.modLegSide_releaseCause (l : LegId) (side : Side) (f : LegSide → LegSide) : (s.modLegSide l side f).releaseCause = s.releaseCause := rfl
@[simp] theorem State.modLegSide_map (l : LegId) (side : Side) (f : LegSide → LegSide) : (s.modLegSide l side f).map = s.map := rfl
@[simp] theorem State.modLegSide_lineSide (l : LegId) (side : Side) (f : LegSide → LegSide) : (s.modLegSide l side f).lineSide = s.lineSide := rfl
@[simp] theorem State.modLegSide_switchSide (l : LegId) (side : Side) (f : LegSide → LegSide) : (s.modLegSide l side f).switchSide = s.switchSide := rfl
@[simp] theorem State.modLegSide_engines (l : LegId) (side : Side) (f : LegSide → LegSide) : (s.modLegSide l side f).engines = s.engines := rfl
@[simp] theorem State.modLegSide_deviceQueue (l : LegId) (side : Side) (f : LegSide → LegSide) : (s.modLegSide l side f).deviceQueue = s.deviceQueue := rfl
@[simp] theorem State.modLegSide_powerWait (l : LegId) (side : Side) (f : LegSide → LegSide) : (s.modLegSide l side f).powerWait = s.powerWait := rfl
@[simp] theorem State.modLegSide_handOver (l : LegId) (side : Side) (f : LegSide → LegSide) : (s.modLegSide l side f).handOver = s.handOver := rfl
@[simp] theorem State.modLegSide_owed (l : LegId) (side : Side) (f : LegSide → LegSide) : (s.modLegSide l side f).owed = s.owed := rfl
@[simp] theorem State.modLegSide_slots (l : LegId) (side : Side) (f : LegSide → LegSide) : (s.modLegSide l side f).slots = s.slots := rfl
@[simp] theorem State.modLegSide_pages (l : LegId) (side : Side) (f : LegSide → LegSide) : (s.modLegSide l side f).pages = s.pages := rfl
@[simp] theorem State.modLegSide_mem (l : LegId) (side : Side) (f : LegSide → LegSide) : (s.modLegSide l side f).mem = s.mem := rfl
@[simp] theorem State.modLegSide_summary (l : LegId) (side : Side) (f : LegSide → LegSide) : (s.modLegSide l side f).summary = s.summary := rfl
@[simp] theorem State.modLegSide_enables (l : LegId) (side : Side) (f : LegSide → LegSide) : (s.modLegSide l side f).enables = s.enables := rfl
@[simp] theorem State.modLegSide_latchedMode (l : LegId) (side : Side) (f : LegSide → LegSide) : (s.modLegSide l side f).latchedMode = s.latchedMode := rfl
@[simp] theorem State.modLegSide_holdIntake (l : LegId) (side : Side) (f : LegSide → LegSide) : (s.modLegSide l side f).holdIntake = s.holdIntake := rfl
@[simp] theorem State.modLegSide_latchedLine (l : LegId) (side : Side) (f : LegSide → LegSide) : (s.modLegSide l side f).latchedLine = s.latchedLine := rfl
@[simp] theorem State.modLegSide_faultRecord (l : LegId) (side : Side) (f : LegSide → LegSide) : (s.modLegSide l side f).faultRecord = s.faultRecord := rfl
@[simp] theorem State.modLegSide_laterFaults (l : LegId) (side : Side) (f : LegSide → LegSide) : (s.modLegSide l side f).laterFaults = s.laterFaults := rfl
@[simp] theorem State.modLegSide_offset (l : LegId) (side : Side) (f : LegSide → LegSide) : (s.modLegSide l side f).offset = s.offset := rfl
@[simp] theorem State.modLegSide_writeOpen (l : LegId) (side : Side) (f : LegSide → LegSide) : (s.modLegSide l side f).writeOpen = s.writeOpen := rfl
@[simp] theorem State.modLegSide_readOpen (l : LegId) (side : Side) (f : LegSide → LegSide) : (s.modLegSide l side f).readOpen = s.readOpen := rfl
@[simp] theorem State.modLegSide_acknowledged (l : LegId) (side : Side) (f : LegSide → LegSide) : (s.modLegSide l side f).acknowledged = s.acknowledged := rfl
@[simp] theorem State.modLegSide_readData (l : LegId) (side : Side) (f : LegSide → LegSide) : (s.modLegSide l side f).readData = s.readData := rfl
@[simp] theorem State.modLegSide_freeCount (l : LegId) (side : Side) (f : LegSide → LegSide) : (s.modLegSide l side f).freeCount = s.freeCount := rfl

/-! ### modEngine -/

@[simp] theorem State.modEngine_pending (l : LegId) (f : LegEngine → LegEngine) : (s.modEngine l f).pending = s.pending := rfl
@[simp] theorem State.modEngine_resetHeld (l : LegId) (f : LegEngine → LegEngine) : (s.modEngine l f).resetHeld = s.resetHeld := rfl
@[simp] theorem State.modEngine_lowpwr (l : LegId) (f : LegEngine → LegEngine) : (s.modEngine l f).lowpwr = s.lowpwr := rfl
@[simp] theorem State.modEngine_straps (l : LegId) (f : LegEngine → LegEngine) : (s.modEngine l f).straps = s.straps := rfl
@[simp] theorem State.modEngine_requested (l : LegId) (f : LegEngine → LegEngine) : (s.modEngine l f).requested = s.requested := rfl
@[simp] theorem State.modEngine_effective (l : LegId) (f : LegEngine → LegEngine) : (s.modEngine l f).effective = s.effective := rfl
@[simp] theorem State.modEngine_riseTimer (l : LegId) (f : LegEngine → LegEngine) : (s.modEngine l f).riseTimer = s.riseTimer := rfl
@[simp] theorem State.modEngine_device (l : LegId) (f : LegEngine → LegEngine) : (s.modEngine l f).device = s.device := rfl
@[simp] theorem State.modEngine_initTimer (l : LegId) (f : LegEngine → LegEngine) : (s.modEngine l f).initTimer = s.initTimer := rfl
@[simp] theorem State.modEngine_initByPowerOn (l : LegId) (f : LegEngine → LegEngine) : (s.modEngine l f).initByPowerOn = s.initByPowerOn := rfl
@[simp] theorem State.modEngine_resetTimer (l : LegId) (f : LegEngine → LegEngine) : (s.modEngine l f).resetTimer = s.resetTimer := rfl
@[simp] theorem State.modEngine_lastCause (l : LegId) (f : LegEngine → LegEngine) : (s.modEngine l f).lastCause = s.lastCause := rfl
@[simp] theorem State.modEngine_releaseCause (l : LegId) (f : LegEngine → LegEngine) : (s.modEngine l f).releaseCause = s.releaseCause := rfl
@[simp] theorem State.modEngine_map (l : LegId) (f : LegEngine → LegEngine) : (s.modEngine l f).map = s.map := rfl
@[simp] theorem State.modEngine_lineSide (l : LegId) (f : LegEngine → LegEngine) : (s.modEngine l f).lineSide = s.lineSide := rfl
@[simp] theorem State.modEngine_switchSide (l : LegId) (f : LegEngine → LegEngine) : (s.modEngine l f).switchSide = s.switchSide := rfl
@[simp] theorem State.modEngine_legs (l : LegId) (f : LegEngine → LegEngine) : (s.modEngine l f).legs = s.legs := rfl
@[simp] theorem State.modEngine_engines (l : LegId) (f : LegEngine → LegEngine) : (s.modEngine l f).engines = s.engines.set l (f s.engines[l]) := rfl
@[simp] theorem State.modEngine_deviceQueue (l : LegId) (f : LegEngine → LegEngine) : (s.modEngine l f).deviceQueue = s.deviceQueue := rfl
@[simp] theorem State.modEngine_powerWait (l : LegId) (f : LegEngine → LegEngine) : (s.modEngine l f).powerWait = s.powerWait := rfl
@[simp] theorem State.modEngine_handOver (l : LegId) (f : LegEngine → LegEngine) : (s.modEngine l f).handOver = s.handOver := rfl
@[simp] theorem State.modEngine_owed (l : LegId) (f : LegEngine → LegEngine) : (s.modEngine l f).owed = s.owed := rfl
@[simp] theorem State.modEngine_slots (l : LegId) (f : LegEngine → LegEngine) : (s.modEngine l f).slots = s.slots := rfl
@[simp] theorem State.modEngine_pages (l : LegId) (f : LegEngine → LegEngine) : (s.modEngine l f).pages = s.pages := rfl
@[simp] theorem State.modEngine_mem (l : LegId) (f : LegEngine → LegEngine) : (s.modEngine l f).mem = s.mem := rfl
@[simp] theorem State.modEngine_summary (l : LegId) (f : LegEngine → LegEngine) : (s.modEngine l f).summary = s.summary := rfl
@[simp] theorem State.modEngine_enables (l : LegId) (f : LegEngine → LegEngine) : (s.modEngine l f).enables = s.enables := rfl
@[simp] theorem State.modEngine_latchedMode (l : LegId) (f : LegEngine → LegEngine) : (s.modEngine l f).latchedMode = s.latchedMode := rfl
@[simp] theorem State.modEngine_holdIntake (l : LegId) (f : LegEngine → LegEngine) : (s.modEngine l f).holdIntake = s.holdIntake := rfl
@[simp] theorem State.modEngine_latchedLine (l : LegId) (f : LegEngine → LegEngine) : (s.modEngine l f).latchedLine = s.latchedLine := rfl
@[simp] theorem State.modEngine_faultRecord (l : LegId) (f : LegEngine → LegEngine) : (s.modEngine l f).faultRecord = s.faultRecord := rfl
@[simp] theorem State.modEngine_laterFaults (l : LegId) (f : LegEngine → LegEngine) : (s.modEngine l f).laterFaults = s.laterFaults := rfl
@[simp] theorem State.modEngine_offset (l : LegId) (f : LegEngine → LegEngine) : (s.modEngine l f).offset = s.offset := rfl
@[simp] theorem State.modEngine_writeOpen (l : LegId) (f : LegEngine → LegEngine) : (s.modEngine l f).writeOpen = s.writeOpen := rfl
@[simp] theorem State.modEngine_readOpen (l : LegId) (f : LegEngine → LegEngine) : (s.modEngine l f).readOpen = s.readOpen := rfl
@[simp] theorem State.modEngine_acknowledged (l : LegId) (f : LegEngine → LegEngine) : (s.modEngine l f).acknowledged = s.acknowledged := rfl
@[simp] theorem State.modEngine_readData (l : LegId) (f : LegEngine → LegEngine) : (s.modEngine l f).readData = s.readData := rfl
@[simp] theorem State.modEngine_freeCount (l : LegId) (f : LegEngine → LegEngine) : (s.modEngine l f).freeCount = s.freeCount := rfl

/-! ### setQueue -/

@[simp] theorem State.setQueue_pending (l : LegId) (q : List Entry) : (s.setQueue l q).pending = s.pending := rfl
@[simp] theorem State.setQueue_resetHeld (l : LegId) (q : List Entry) : (s.setQueue l q).resetHeld = s.resetHeld := rfl
@[simp] theorem State.setQueue_lowpwr (l : LegId) (q : List Entry) : (s.setQueue l q).lowpwr = s.lowpwr := rfl
@[simp] theorem State.setQueue_straps (l : LegId) (q : List Entry) : (s.setQueue l q).straps = s.straps := rfl
@[simp] theorem State.setQueue_requested (l : LegId) (q : List Entry) : (s.setQueue l q).requested = s.requested := rfl
@[simp] theorem State.setQueue_effective (l : LegId) (q : List Entry) : (s.setQueue l q).effective = s.effective := rfl
@[simp] theorem State.setQueue_riseTimer (l : LegId) (q : List Entry) : (s.setQueue l q).riseTimer = s.riseTimer := rfl
@[simp] theorem State.setQueue_device (l : LegId) (q : List Entry) : (s.setQueue l q).device = s.device := rfl
@[simp] theorem State.setQueue_initTimer (l : LegId) (q : List Entry) : (s.setQueue l q).initTimer = s.initTimer := rfl
@[simp] theorem State.setQueue_initByPowerOn (l : LegId) (q : List Entry) : (s.setQueue l q).initByPowerOn = s.initByPowerOn := rfl
@[simp] theorem State.setQueue_resetTimer (l : LegId) (q : List Entry) : (s.setQueue l q).resetTimer = s.resetTimer := rfl
@[simp] theorem State.setQueue_lastCause (l : LegId) (q : List Entry) : (s.setQueue l q).lastCause = s.lastCause := rfl
@[simp] theorem State.setQueue_releaseCause (l : LegId) (q : List Entry) : (s.setQueue l q).releaseCause = s.releaseCause := rfl
@[simp] theorem State.setQueue_map (l : LegId) (q : List Entry) : (s.setQueue l q).map = s.map := rfl
@[simp] theorem State.setQueue_lineSide (l : LegId) (q : List Entry) : (s.setQueue l q).lineSide = s.lineSide := rfl
@[simp] theorem State.setQueue_switchSide (l : LegId) (q : List Entry) : (s.setQueue l q).switchSide = s.switchSide := rfl
@[simp] theorem State.setQueue_legs (l : LegId) (q : List Entry) : (s.setQueue l q).legs = s.legs := rfl
@[simp] theorem State.setQueue_deviceQueue (l : LegId) (q : List Entry) : (s.setQueue l q).deviceQueue = s.deviceQueue := rfl
@[simp] theorem State.setQueue_powerWait (l : LegId) (q : List Entry) : (s.setQueue l q).powerWait = s.powerWait := rfl
@[simp] theorem State.setQueue_handOver (l : LegId) (q : List Entry) : (s.setQueue l q).handOver = s.handOver := rfl
@[simp] theorem State.setQueue_owed (l : LegId) (q : List Entry) : (s.setQueue l q).owed = s.owed := rfl
@[simp] theorem State.setQueue_slots (l : LegId) (q : List Entry) : (s.setQueue l q).slots = s.slots := rfl
@[simp] theorem State.setQueue_pages (l : LegId) (q : List Entry) : (s.setQueue l q).pages = s.pages := rfl
@[simp] theorem State.setQueue_mem (l : LegId) (q : List Entry) : (s.setQueue l q).mem = s.mem := rfl
@[simp] theorem State.setQueue_summary (l : LegId) (q : List Entry) : (s.setQueue l q).summary = s.summary := rfl
@[simp] theorem State.setQueue_enables (l : LegId) (q : List Entry) : (s.setQueue l q).enables = s.enables := rfl
@[simp] theorem State.setQueue_latchedMode (l : LegId) (q : List Entry) : (s.setQueue l q).latchedMode = s.latchedMode := rfl
@[simp] theorem State.setQueue_holdIntake (l : LegId) (q : List Entry) : (s.setQueue l q).holdIntake = s.holdIntake := rfl
@[simp] theorem State.setQueue_latchedLine (l : LegId) (q : List Entry) : (s.setQueue l q).latchedLine = s.latchedLine := rfl
@[simp] theorem State.setQueue_faultRecord (l : LegId) (q : List Entry) : (s.setQueue l q).faultRecord = s.faultRecord := rfl
@[simp] theorem State.setQueue_laterFaults (l : LegId) (q : List Entry) : (s.setQueue l q).laterFaults = s.laterFaults := rfl
@[simp] theorem State.setQueue_offset (l : LegId) (q : List Entry) : (s.setQueue l q).offset = s.offset := rfl
@[simp] theorem State.setQueue_writeOpen (l : LegId) (q : List Entry) : (s.setQueue l q).writeOpen = s.writeOpen := rfl
@[simp] theorem State.setQueue_readOpen (l : LegId) (q : List Entry) : (s.setQueue l q).readOpen = s.readOpen := rfl
@[simp] theorem State.setQueue_acknowledged (l : LegId) (q : List Entry) : (s.setQueue l q).acknowledged = s.acknowledged := rfl
@[simp] theorem State.setQueue_readData (l : LegId) (q : List Entry) : (s.setQueue l q).readData = s.readData := rfl
@[simp] theorem State.setQueue_freeCount (l : LegId) (q : List Entry) : (s.setQueue l q).freeCount = s.freeCount := rfl

/-! ### putOff -/

@[simp] theorem State.putOff_pending (l : LegId) : (s.putOff l).pending = s.pending := rfl
@[simp] theorem State.putOff_resetHeld (l : LegId) : (s.putOff l).resetHeld = s.resetHeld := rfl
@[simp] theorem State.putOff_lowpwr (l : LegId) : (s.putOff l).lowpwr = s.lowpwr := rfl
@[simp] theorem State.putOff_straps (l : LegId) : (s.putOff l).straps = s.straps := rfl
@[simp] theorem State.putOff_requested (l : LegId) : (s.putOff l).requested = s.requested := rfl
@[simp] theorem State.putOff_effective (l : LegId) : (s.putOff l).effective = s.effective := rfl
@[simp] theorem State.putOff_riseTimer (l : LegId) : (s.putOff l).riseTimer = s.riseTimer := rfl
@[simp] theorem State.putOff_device (l : LegId) : (s.putOff l).device = s.device := rfl
@[simp] theorem State.putOff_initTimer (l : LegId) : (s.putOff l).initTimer = s.initTimer := rfl
@[simp] theorem State.putOff_initByPowerOn (l : LegId) : (s.putOff l).initByPowerOn = s.initByPowerOn := rfl
@[simp] theorem State.putOff_resetTimer (l : LegId) : (s.putOff l).resetTimer = s.resetTimer := rfl
@[simp] theorem State.putOff_lastCause (l : LegId) : (s.putOff l).lastCause = s.lastCause := rfl
@[simp] theorem State.putOff_releaseCause (l : LegId) : (s.putOff l).releaseCause = s.releaseCause := rfl
@[simp] theorem State.putOff_map (l : LegId) : (s.putOff l).map = s.map := rfl
@[simp] theorem State.putOff_lineSide (l : LegId) : (s.putOff l).lineSide = s.lineSide := rfl
@[simp] theorem State.putOff_switchSide (l : LegId) : (s.putOff l).switchSide = s.switchSide := rfl
@[simp] theorem State.putOff_legs (l : LegId) : (s.putOff l).legs = s.legs := rfl
@[simp] theorem State.putOff_engines (l : LegId) : (s.putOff l).engines = s.engines := rfl
@[simp] theorem State.putOff_deviceQueue (l : LegId) : (s.putOff l).deviceQueue = s.deviceQueue := rfl
@[simp] theorem State.putOff_powerWait (l : LegId) : (s.putOff l).powerWait = s.powerWait := rfl
@[simp] theorem State.putOff_handOver (l : LegId) : (s.putOff l).handOver = s.handOver := rfl
@[simp] theorem State.putOff_owed (l : LegId) : (s.putOff l).owed = if l ∈ s.owed then s.owed else s.owed ++ [l] := rfl
@[simp] theorem State.putOff_slots (l : LegId) : (s.putOff l).slots = s.slots := rfl
@[simp] theorem State.putOff_pages (l : LegId) : (s.putOff l).pages = s.pages := rfl
@[simp] theorem State.putOff_mem (l : LegId) : (s.putOff l).mem = s.mem := rfl
@[simp] theorem State.putOff_summary (l : LegId) : (s.putOff l).summary = s.summary := rfl
@[simp] theorem State.putOff_enables (l : LegId) : (s.putOff l).enables = s.enables := rfl
@[simp] theorem State.putOff_latchedMode (l : LegId) : (s.putOff l).latchedMode = s.latchedMode := rfl
@[simp] theorem State.putOff_holdIntake (l : LegId) : (s.putOff l).holdIntake = s.holdIntake := rfl
@[simp] theorem State.putOff_latchedLine (l : LegId) : (s.putOff l).latchedLine = s.latchedLine := rfl
@[simp] theorem State.putOff_faultRecord (l : LegId) : (s.putOff l).faultRecord = s.faultRecord := rfl
@[simp] theorem State.putOff_laterFaults (l : LegId) : (s.putOff l).laterFaults = s.laterFaults := rfl
@[simp] theorem State.putOff_offset (l : LegId) : (s.putOff l).offset = s.offset := rfl
@[simp] theorem State.putOff_writeOpen (l : LegId) : (s.putOff l).writeOpen = s.writeOpen := rfl
@[simp] theorem State.putOff_readOpen (l : LegId) : (s.putOff l).readOpen = s.readOpen := rfl
@[simp] theorem State.putOff_acknowledged (l : LegId) : (s.putOff l).acknowledged = s.acknowledged := rfl
@[simp] theorem State.putOff_readData (l : LegId) : (s.putOff l).readData = s.readData := rfl
@[simp] theorem State.putOff_freeCount (l : LegId) : (s.putOff l).freeCount = s.freeCount := rfl

/-! ### modSlot -/

@[simp] theorem State.modSlot_pending (n : SlotId) (f : Slot → Slot) : (s.modSlot n f).pending = s.pending := rfl
@[simp] theorem State.modSlot_resetHeld (n : SlotId) (f : Slot → Slot) : (s.modSlot n f).resetHeld = s.resetHeld := rfl
@[simp] theorem State.modSlot_lowpwr (n : SlotId) (f : Slot → Slot) : (s.modSlot n f).lowpwr = s.lowpwr := rfl
@[simp] theorem State.modSlot_straps (n : SlotId) (f : Slot → Slot) : (s.modSlot n f).straps = s.straps := rfl
@[simp] theorem State.modSlot_requested (n : SlotId) (f : Slot → Slot) : (s.modSlot n f).requested = s.requested := rfl
@[simp] theorem State.modSlot_effective (n : SlotId) (f : Slot → Slot) : (s.modSlot n f).effective = s.effective := rfl
@[simp] theorem State.modSlot_riseTimer (n : SlotId) (f : Slot → Slot) : (s.modSlot n f).riseTimer = s.riseTimer := rfl
@[simp] theorem State.modSlot_device (n : SlotId) (f : Slot → Slot) : (s.modSlot n f).device = s.device := rfl
@[simp] theorem State.modSlot_initTimer (n : SlotId) (f : Slot → Slot) : (s.modSlot n f).initTimer = s.initTimer := rfl
@[simp] theorem State.modSlot_initByPowerOn (n : SlotId) (f : Slot → Slot) : (s.modSlot n f).initByPowerOn = s.initByPowerOn := rfl
@[simp] theorem State.modSlot_resetTimer (n : SlotId) (f : Slot → Slot) : (s.modSlot n f).resetTimer = s.resetTimer := rfl
@[simp] theorem State.modSlot_lastCause (n : SlotId) (f : Slot → Slot) : (s.modSlot n f).lastCause = s.lastCause := rfl
@[simp] theorem State.modSlot_releaseCause (n : SlotId) (f : Slot → Slot) : (s.modSlot n f).releaseCause = s.releaseCause := rfl
@[simp] theorem State.modSlot_map (n : SlotId) (f : Slot → Slot) : (s.modSlot n f).map = s.map := rfl
@[simp] theorem State.modSlot_lineSide (n : SlotId) (f : Slot → Slot) : (s.modSlot n f).lineSide = s.lineSide := rfl
@[simp] theorem State.modSlot_switchSide (n : SlotId) (f : Slot → Slot) : (s.modSlot n f).switchSide = s.switchSide := rfl
@[simp] theorem State.modSlot_legs (n : SlotId) (f : Slot → Slot) : (s.modSlot n f).legs = s.legs := rfl
@[simp] theorem State.modSlot_engines (n : SlotId) (f : Slot → Slot) : (s.modSlot n f).engines = s.engines := rfl
@[simp] theorem State.modSlot_deviceQueue (n : SlotId) (f : Slot → Slot) : (s.modSlot n f).deviceQueue = s.deviceQueue := rfl
@[simp] theorem State.modSlot_powerWait (n : SlotId) (f : Slot → Slot) : (s.modSlot n f).powerWait = s.powerWait := rfl
@[simp] theorem State.modSlot_handOver (n : SlotId) (f : Slot → Slot) : (s.modSlot n f).handOver = s.handOver := rfl
@[simp] theorem State.modSlot_owed (n : SlotId) (f : Slot → Slot) : (s.modSlot n f).owed = s.owed := rfl
@[simp] theorem State.modSlot_slots (n : SlotId) (f : Slot → Slot) : (s.modSlot n f).slots = s.slots.set n (f s.slots[n]) := rfl
@[simp] theorem State.modSlot_pages (n : SlotId) (f : Slot → Slot) : (s.modSlot n f).pages = s.pages := rfl
@[simp] theorem State.modSlot_mem (n : SlotId) (f : Slot → Slot) : (s.modSlot n f).mem = s.mem := rfl
@[simp] theorem State.modSlot_summary (n : SlotId) (f : Slot → Slot) : (s.modSlot n f).summary = s.summary := rfl
@[simp] theorem State.modSlot_enables (n : SlotId) (f : Slot → Slot) : (s.modSlot n f).enables = s.enables := rfl
@[simp] theorem State.modSlot_latchedMode (n : SlotId) (f : Slot → Slot) : (s.modSlot n f).latchedMode = s.latchedMode := rfl
@[simp] theorem State.modSlot_holdIntake (n : SlotId) (f : Slot → Slot) : (s.modSlot n f).holdIntake = s.holdIntake := rfl
@[simp] theorem State.modSlot_latchedLine (n : SlotId) (f : Slot → Slot) : (s.modSlot n f).latchedLine = s.latchedLine := rfl
@[simp] theorem State.modSlot_faultRecord (n : SlotId) (f : Slot → Slot) : (s.modSlot n f).faultRecord = s.faultRecord := rfl
@[simp] theorem State.modSlot_laterFaults (n : SlotId) (f : Slot → Slot) : (s.modSlot n f).laterFaults = s.laterFaults := rfl
@[simp] theorem State.modSlot_offset (n : SlotId) (f : Slot → Slot) : (s.modSlot n f).offset = s.offset := rfl
@[simp] theorem State.modSlot_writeOpen (n : SlotId) (f : Slot → Slot) : (s.modSlot n f).writeOpen = s.writeOpen := rfl
@[simp] theorem State.modSlot_readOpen (n : SlotId) (f : Slot → Slot) : (s.modSlot n f).readOpen = s.readOpen := rfl
@[simp] theorem State.modSlot_acknowledged (n : SlotId) (f : Slot → Slot) : (s.modSlot n f).acknowledged = s.acknowledged := rfl
@[simp] theorem State.modSlot_readData (n : SlotId) (f : Slot → Slot) : (s.modSlot n f).readData = s.readData := rfl
@[simp] theorem State.modSlot_freeCount (n : SlotId) (f : Slot → Slot) : (s.modSlot n f).freeCount = s.freeCount := rfl

/-! ### modPage -/

@[simp] theorem State.modPage_pending (p : PageId) (f : Page → Page) : (s.modPage p f).pending = s.pending := rfl
@[simp] theorem State.modPage_resetHeld (p : PageId) (f : Page → Page) : (s.modPage p f).resetHeld = s.resetHeld := rfl
@[simp] theorem State.modPage_lowpwr (p : PageId) (f : Page → Page) : (s.modPage p f).lowpwr = s.lowpwr := rfl
@[simp] theorem State.modPage_straps (p : PageId) (f : Page → Page) : (s.modPage p f).straps = s.straps := rfl
@[simp] theorem State.modPage_requested (p : PageId) (f : Page → Page) : (s.modPage p f).requested = s.requested := rfl
@[simp] theorem State.modPage_effective (p : PageId) (f : Page → Page) : (s.modPage p f).effective = s.effective := rfl
@[simp] theorem State.modPage_riseTimer (p : PageId) (f : Page → Page) : (s.modPage p f).riseTimer = s.riseTimer := rfl
@[simp] theorem State.modPage_device (p : PageId) (f : Page → Page) : (s.modPage p f).device = s.device := rfl
@[simp] theorem State.modPage_initTimer (p : PageId) (f : Page → Page) : (s.modPage p f).initTimer = s.initTimer := rfl
@[simp] theorem State.modPage_initByPowerOn (p : PageId) (f : Page → Page) : (s.modPage p f).initByPowerOn = s.initByPowerOn := rfl
@[simp] theorem State.modPage_resetTimer (p : PageId) (f : Page → Page) : (s.modPage p f).resetTimer = s.resetTimer := rfl
@[simp] theorem State.modPage_lastCause (p : PageId) (f : Page → Page) : (s.modPage p f).lastCause = s.lastCause := rfl
@[simp] theorem State.modPage_releaseCause (p : PageId) (f : Page → Page) : (s.modPage p f).releaseCause = s.releaseCause := rfl
@[simp] theorem State.modPage_map (p : PageId) (f : Page → Page) : (s.modPage p f).map = s.map := rfl
@[simp] theorem State.modPage_lineSide (p : PageId) (f : Page → Page) : (s.modPage p f).lineSide = s.lineSide := rfl
@[simp] theorem State.modPage_switchSide (p : PageId) (f : Page → Page) : (s.modPage p f).switchSide = s.switchSide := rfl
@[simp] theorem State.modPage_legs (p : PageId) (f : Page → Page) : (s.modPage p f).legs = s.legs := rfl
@[simp] theorem State.modPage_engines (p : PageId) (f : Page → Page) : (s.modPage p f).engines = s.engines := rfl
@[simp] theorem State.modPage_deviceQueue (p : PageId) (f : Page → Page) : (s.modPage p f).deviceQueue = s.deviceQueue := rfl
@[simp] theorem State.modPage_powerWait (p : PageId) (f : Page → Page) : (s.modPage p f).powerWait = s.powerWait := rfl
@[simp] theorem State.modPage_handOver (p : PageId) (f : Page → Page) : (s.modPage p f).handOver = s.handOver := rfl
@[simp] theorem State.modPage_owed (p : PageId) (f : Page → Page) : (s.modPage p f).owed = s.owed := rfl
@[simp] theorem State.modPage_slots (p : PageId) (f : Page → Page) : (s.modPage p f).slots = s.slots := rfl
@[simp] theorem State.modPage_pages (p : PageId) (f : Page → Page) : (s.modPage p f).pages = s.pages.set p (f s.pages[p]) := rfl
@[simp] theorem State.modPage_mem (p : PageId) (f : Page → Page) : (s.modPage p f).mem = s.mem := rfl
@[simp] theorem State.modPage_summary (p : PageId) (f : Page → Page) : (s.modPage p f).summary = s.summary := rfl
@[simp] theorem State.modPage_enables (p : PageId) (f : Page → Page) : (s.modPage p f).enables = s.enables := rfl
@[simp] theorem State.modPage_latchedMode (p : PageId) (f : Page → Page) : (s.modPage p f).latchedMode = s.latchedMode := rfl
@[simp] theorem State.modPage_holdIntake (p : PageId) (f : Page → Page) : (s.modPage p f).holdIntake = s.holdIntake := rfl
@[simp] theorem State.modPage_latchedLine (p : PageId) (f : Page → Page) : (s.modPage p f).latchedLine = s.latchedLine := rfl
@[simp] theorem State.modPage_faultRecord (p : PageId) (f : Page → Page) : (s.modPage p f).faultRecord = s.faultRecord := rfl
@[simp] theorem State.modPage_laterFaults (p : PageId) (f : Page → Page) : (s.modPage p f).laterFaults = s.laterFaults := rfl
@[simp] theorem State.modPage_offset (p : PageId) (f : Page → Page) : (s.modPage p f).offset = s.offset := rfl
@[simp] theorem State.modPage_writeOpen (p : PageId) (f : Page → Page) : (s.modPage p f).writeOpen = s.writeOpen := rfl
@[simp] theorem State.modPage_readOpen (p : PageId) (f : Page → Page) : (s.modPage p f).readOpen = s.readOpen := rfl
@[simp] theorem State.modPage_acknowledged (p : PageId) (f : Page → Page) : (s.modPage p f).acknowledged = s.acknowledged := rfl
@[simp] theorem State.modPage_readData (p : PageId) (f : Page → Page) : (s.modPage p f).readData = s.readData := rfl
@[simp] theorem State.modPage_freeCount (p : PageId) (f : Page → Page) : (s.modPage p f).freeCount = s.freeCount := rfl

/-! ### raise -/

@[simp] theorem State.raise_pending (bits : BitVec 32) : (s.raise bits).pending = s.pending := rfl
@[simp] theorem State.raise_resetHeld (bits : BitVec 32) : (s.raise bits).resetHeld = s.resetHeld := rfl
@[simp] theorem State.raise_lowpwr (bits : BitVec 32) : (s.raise bits).lowpwr = s.lowpwr := rfl
@[simp] theorem State.raise_straps (bits : BitVec 32) : (s.raise bits).straps = s.straps := rfl
@[simp] theorem State.raise_requested (bits : BitVec 32) : (s.raise bits).requested = s.requested := rfl
@[simp] theorem State.raise_effective (bits : BitVec 32) : (s.raise bits).effective = s.effective := rfl
@[simp] theorem State.raise_riseTimer (bits : BitVec 32) : (s.raise bits).riseTimer = s.riseTimer := rfl
@[simp] theorem State.raise_device (bits : BitVec 32) : (s.raise bits).device = s.device := rfl
@[simp] theorem State.raise_initTimer (bits : BitVec 32) : (s.raise bits).initTimer = s.initTimer := rfl
@[simp] theorem State.raise_initByPowerOn (bits : BitVec 32) : (s.raise bits).initByPowerOn = s.initByPowerOn := rfl
@[simp] theorem State.raise_resetTimer (bits : BitVec 32) : (s.raise bits).resetTimer = s.resetTimer := rfl
@[simp] theorem State.raise_lastCause (bits : BitVec 32) : (s.raise bits).lastCause = s.lastCause := rfl
@[simp] theorem State.raise_releaseCause (bits : BitVec 32) : (s.raise bits).releaseCause = s.releaseCause := rfl
@[simp] theorem State.raise_map (bits : BitVec 32) : (s.raise bits).map = s.map := rfl
@[simp] theorem State.raise_lineSide (bits : BitVec 32) : (s.raise bits).lineSide = s.lineSide := rfl
@[simp] theorem State.raise_switchSide (bits : BitVec 32) : (s.raise bits).switchSide = s.switchSide := rfl
@[simp] theorem State.raise_legs (bits : BitVec 32) : (s.raise bits).legs = s.legs := rfl
@[simp] theorem State.raise_engines (bits : BitVec 32) : (s.raise bits).engines = s.engines := rfl
@[simp] theorem State.raise_deviceQueue (bits : BitVec 32) : (s.raise bits).deviceQueue = s.deviceQueue := rfl
@[simp] theorem State.raise_powerWait (bits : BitVec 32) : (s.raise bits).powerWait = s.powerWait := rfl
@[simp] theorem State.raise_handOver (bits : BitVec 32) : (s.raise bits).handOver = s.handOver := rfl
@[simp] theorem State.raise_owed (bits : BitVec 32) : (s.raise bits).owed = s.owed := rfl
@[simp] theorem State.raise_slots (bits : BitVec 32) : (s.raise bits).slots = s.slots := rfl
@[simp] theorem State.raise_pages (bits : BitVec 32) : (s.raise bits).pages = s.pages := rfl
@[simp] theorem State.raise_mem (bits : BitVec 32) : (s.raise bits).mem = s.mem := rfl
@[simp] theorem State.raise_summary (bits : BitVec 32) : (s.raise bits).summary = s.summary ||| bits := rfl
@[simp] theorem State.raise_enables (bits : BitVec 32) : (s.raise bits).enables = s.enables := rfl
@[simp] theorem State.raise_latchedMode (bits : BitVec 32) : (s.raise bits).latchedMode = s.latchedMode := rfl
@[simp] theorem State.raise_holdIntake (bits : BitVec 32) : (s.raise bits).holdIntake = s.holdIntake := rfl
@[simp] theorem State.raise_latchedLine (bits : BitVec 32) : (s.raise bits).latchedLine = (s.latchedLine || (s.latchedMode && (bits &&& ~~~s.summary &&& s.enables) != 0)) := rfl
@[simp] theorem State.raise_faultRecord (bits : BitVec 32) : (s.raise bits).faultRecord = s.faultRecord := rfl
@[simp] theorem State.raise_laterFaults (bits : BitVec 32) : (s.raise bits).laterFaults = s.laterFaults := rfl
@[simp] theorem State.raise_offset (bits : BitVec 32) : (s.raise bits).offset = s.offset := rfl
@[simp] theorem State.raise_writeOpen (bits : BitVec 32) : (s.raise bits).writeOpen = s.writeOpen := rfl
@[simp] theorem State.raise_readOpen (bits : BitVec 32) : (s.raise bits).readOpen = s.readOpen := rfl
@[simp] theorem State.raise_acknowledged (bits : BitVec 32) : (s.raise bits).acknowledged = s.acknowledged := rfl
@[simp] theorem State.raise_readData (bits : BitVec 32) : (s.raise bits).readData = s.readData := rfl
@[simp] theorem State.raise_freeCount (bits : BitVec 32) : (s.raise bits).freeCount = s.freeCount := rfl

/-! ### lower -/

@[simp] theorem State.lower_pending (bits : BitVec 32) : (s.lower bits).pending = s.pending := rfl
@[simp] theorem State.lower_resetHeld (bits : BitVec 32) : (s.lower bits).resetHeld = s.resetHeld := rfl
@[simp] theorem State.lower_lowpwr (bits : BitVec 32) : (s.lower bits).lowpwr = s.lowpwr := rfl
@[simp] theorem State.lower_straps (bits : BitVec 32) : (s.lower bits).straps = s.straps := rfl
@[simp] theorem State.lower_requested (bits : BitVec 32) : (s.lower bits).requested = s.requested := rfl
@[simp] theorem State.lower_effective (bits : BitVec 32) : (s.lower bits).effective = s.effective := rfl
@[simp] theorem State.lower_riseTimer (bits : BitVec 32) : (s.lower bits).riseTimer = s.riseTimer := rfl
@[simp] theorem State.lower_device (bits : BitVec 32) : (s.lower bits).device = s.device := rfl
@[simp] theorem State.lower_initTimer (bits : BitVec 32) : (s.lower bits).initTimer = s.initTimer := rfl
@[simp] theorem State.lower_initByPowerOn (bits : BitVec 32) : (s.lower bits).initByPowerOn = s.initByPowerOn := rfl
@[simp] theorem State.lower_resetTimer (bits : BitVec 32) : (s.lower bits).resetTimer = s.resetTimer := rfl
@[simp] theorem State.lower_lastCause (bits : BitVec 32) : (s.lower bits).lastCause = s.lastCause := rfl
@[simp] theorem State.lower_releaseCause (bits : BitVec 32) : (s.lower bits).releaseCause = s.releaseCause := rfl
@[simp] theorem State.lower_map (bits : BitVec 32) : (s.lower bits).map = s.map := rfl
@[simp] theorem State.lower_lineSide (bits : BitVec 32) : (s.lower bits).lineSide = s.lineSide := rfl
@[simp] theorem State.lower_switchSide (bits : BitVec 32) : (s.lower bits).switchSide = s.switchSide := rfl
@[simp] theorem State.lower_legs (bits : BitVec 32) : (s.lower bits).legs = s.legs := rfl
@[simp] theorem State.lower_engines (bits : BitVec 32) : (s.lower bits).engines = s.engines := rfl
@[simp] theorem State.lower_deviceQueue (bits : BitVec 32) : (s.lower bits).deviceQueue = s.deviceQueue := rfl
@[simp] theorem State.lower_powerWait (bits : BitVec 32) : (s.lower bits).powerWait = s.powerWait := rfl
@[simp] theorem State.lower_handOver (bits : BitVec 32) : (s.lower bits).handOver = s.handOver := rfl
@[simp] theorem State.lower_owed (bits : BitVec 32) : (s.lower bits).owed = s.owed := rfl
@[simp] theorem State.lower_slots (bits : BitVec 32) : (s.lower bits).slots = s.slots := rfl
@[simp] theorem State.lower_pages (bits : BitVec 32) : (s.lower bits).pages = s.pages := rfl
@[simp] theorem State.lower_mem (bits : BitVec 32) : (s.lower bits).mem = s.mem := rfl
@[simp] theorem State.lower_summary (bits : BitVec 32) : (s.lower bits).summary = s.summary &&& ~~~bits := rfl
@[simp] theorem State.lower_enables (bits : BitVec 32) : (s.lower bits).enables = s.enables := rfl
@[simp] theorem State.lower_latchedMode (bits : BitVec 32) : (s.lower bits).latchedMode = s.latchedMode := rfl
@[simp] theorem State.lower_holdIntake (bits : BitVec 32) : (s.lower bits).holdIntake = s.holdIntake := rfl
@[simp] theorem State.lower_latchedLine (bits : BitVec 32) : (s.lower bits).latchedLine = s.latchedLine := rfl
@[simp] theorem State.lower_faultRecord (bits : BitVec 32) : (s.lower bits).faultRecord = s.faultRecord := rfl
@[simp] theorem State.lower_laterFaults (bits : BitVec 32) : (s.lower bits).laterFaults = s.laterFaults := rfl
@[simp] theorem State.lower_offset (bits : BitVec 32) : (s.lower bits).offset = s.offset := rfl
@[simp] theorem State.lower_writeOpen (bits : BitVec 32) : (s.lower bits).writeOpen = s.writeOpen := rfl
@[simp] theorem State.lower_readOpen (bits : BitVec 32) : (s.lower bits).readOpen = s.readOpen := rfl
@[simp] theorem State.lower_acknowledged (bits : BitVec 32) : (s.lower bits).acknowledged = s.acknowledged := rfl
@[simp] theorem State.lower_readData (bits : BitVec 32) : (s.lower bits).readData = s.readData := rfl
@[simp] theorem State.lower_freeCount (bits : BitVec 32) : (s.lower bits).freeCount = s.freeCount := rfl

/-! ### legNotice -/

@[simp] theorem State.legNotice_pending (l : LegId) : (s.legNotice l).pending = s.pending := rfl
@[simp] theorem State.legNotice_resetHeld (l : LegId) : (s.legNotice l).resetHeld = s.resetHeld := rfl
@[simp] theorem State.legNotice_lowpwr (l : LegId) : (s.legNotice l).lowpwr = s.lowpwr := rfl
@[simp] theorem State.legNotice_straps (l : LegId) : (s.legNotice l).straps = s.straps := rfl
@[simp] theorem State.legNotice_requested (l : LegId) : (s.legNotice l).requested = s.requested := rfl
@[simp] theorem State.legNotice_effective (l : LegId) : (s.legNotice l).effective = s.effective := rfl
@[simp] theorem State.legNotice_riseTimer (l : LegId) : (s.legNotice l).riseTimer = s.riseTimer := rfl
@[simp] theorem State.legNotice_device (l : LegId) : (s.legNotice l).device = s.device := rfl
@[simp] theorem State.legNotice_initTimer (l : LegId) : (s.legNotice l).initTimer = s.initTimer := rfl
@[simp] theorem State.legNotice_initByPowerOn (l : LegId) : (s.legNotice l).initByPowerOn = s.initByPowerOn := rfl
@[simp] theorem State.legNotice_resetTimer (l : LegId) : (s.legNotice l).resetTimer = s.resetTimer := rfl
@[simp] theorem State.legNotice_lastCause (l : LegId) : (s.legNotice l).lastCause = s.lastCause := rfl
@[simp] theorem State.legNotice_releaseCause (l : LegId) : (s.legNotice l).releaseCause = s.releaseCause := rfl
@[simp] theorem State.legNotice_map (l : LegId) : (s.legNotice l).map = s.map := rfl
@[simp] theorem State.legNotice_lineSide (l : LegId) : (s.legNotice l).lineSide = s.lineSide := rfl
@[simp] theorem State.legNotice_switchSide (l : LegId) : (s.legNotice l).switchSide = s.switchSide := rfl
@[simp] theorem State.legNotice_legs (l : LegId) : (s.legNotice l).legs = s.legs := rfl
@[simp] theorem State.legNotice_engines (l : LegId) : (s.legNotice l).engines = s.engines := rfl
@[simp] theorem State.legNotice_deviceQueue (l : LegId) : (s.legNotice l).deviceQueue = s.deviceQueue := rfl
@[simp] theorem State.legNotice_powerWait (l : LegId) : (s.legNotice l).powerWait = s.powerWait := rfl
@[simp] theorem State.legNotice_handOver (l : LegId) : (s.legNotice l).handOver = s.handOver := rfl
@[simp] theorem State.legNotice_owed (l : LegId) : (s.legNotice l).owed = s.owed := rfl
@[simp] theorem State.legNotice_slots (l : LegId) : (s.legNotice l).slots = s.slots := rfl
@[simp] theorem State.legNotice_pages (l : LegId) : (s.legNotice l).pages = s.pages := rfl
@[simp] theorem State.legNotice_mem (l : LegId) : (s.legNotice l).mem = s.mem := rfl
@[simp] theorem State.legNotice_summary (l : LegId) : (s.legNotice l).summary = s.summary ||| legBit l := rfl
@[simp] theorem State.legNotice_enables (l : LegId) : (s.legNotice l).enables = s.enables := rfl
@[simp] theorem State.legNotice_latchedMode (l : LegId) : (s.legNotice l).latchedMode = s.latchedMode := rfl
@[simp] theorem State.legNotice_holdIntake (l : LegId) : (s.legNotice l).holdIntake = s.holdIntake := rfl
@[simp] theorem State.legNotice_faultRecord (l : LegId) : (s.legNotice l).faultRecord = s.faultRecord := rfl
@[simp] theorem State.legNotice_laterFaults (l : LegId) : (s.legNotice l).laterFaults = s.laterFaults := rfl
@[simp] theorem State.legNotice_offset (l : LegId) : (s.legNotice l).offset = s.offset := rfl
@[simp] theorem State.legNotice_writeOpen (l : LegId) : (s.legNotice l).writeOpen = s.writeOpen := rfl
@[simp] theorem State.legNotice_readOpen (l : LegId) : (s.legNotice l).readOpen = s.readOpen := rfl
@[simp] theorem State.legNotice_acknowledged (l : LegId) : (s.legNotice l).acknowledged = s.acknowledged := rfl
@[simp] theorem State.legNotice_readData (l : LegId) : (s.legNotice l).readData = s.readData := rfl
@[simp] theorem State.legNotice_freeCount (l : LegId) : (s.legNotice l).freeCount = s.freeCount := rfl

/-! ### becomeReady -/

@[simp] theorem State.becomeReady_pending : (s.becomeReady).pending = s.pending := rfl
@[simp] theorem State.becomeReady_resetHeld : (s.becomeReady).resetHeld = s.resetHeld := rfl
@[simp] theorem State.becomeReady_lowpwr : (s.becomeReady).lowpwr = s.lowpwr := rfl
@[simp] theorem State.becomeReady_straps : (s.becomeReady).straps = s.straps := rfl
@[simp] theorem State.becomeReady_requested : (s.becomeReady).requested = s.requested := rfl
@[simp] theorem State.becomeReady_effective : (s.becomeReady).effective = s.effective := rfl
@[simp] theorem State.becomeReady_riseTimer : (s.becomeReady).riseTimer = s.riseTimer := rfl
@[simp] theorem State.becomeReady_device : (s.becomeReady).device = .ready := rfl
@[simp] theorem State.becomeReady_initTimer : (s.becomeReady).initTimer = s.initTimer := rfl
@[simp] theorem State.becomeReady_initByPowerOn : (s.becomeReady).initByPowerOn = s.initByPowerOn := rfl
@[simp] theorem State.becomeReady_resetTimer : (s.becomeReady).resetTimer = s.resetTimer := rfl
@[simp] theorem State.becomeReady_lastCause : (s.becomeReady).lastCause = s.lastCause := rfl
@[simp] theorem State.becomeReady_releaseCause : (s.becomeReady).releaseCause = s.releaseCause := rfl
@[simp] theorem State.becomeReady_map : (s.becomeReady).map = s.map := rfl
@[simp] theorem State.becomeReady_lineSide : (s.becomeReady).lineSide = s.lineSide := rfl
@[simp] theorem State.becomeReady_switchSide : (s.becomeReady).switchSide = s.switchSide := rfl
@[simp] theorem State.becomeReady_legs : (s.becomeReady).legs = s.legs := rfl
@[simp] theorem State.becomeReady_engines : (s.becomeReady).engines = s.engines := rfl
@[simp] theorem State.becomeReady_deviceQueue : (s.becomeReady).deviceQueue = s.deviceQueue := rfl
@[simp] theorem State.becomeReady_powerWait : (s.becomeReady).powerWait = s.powerWait := rfl
@[simp] theorem State.becomeReady_handOver : (s.becomeReady).handOver = s.handOver := rfl
@[simp] theorem State.becomeReady_owed : (s.becomeReady).owed = s.owed := rfl
@[simp] theorem State.becomeReady_slots : (s.becomeReady).slots = s.slots := rfl
@[simp] theorem State.becomeReady_pages : (s.becomeReady).pages = s.pages := rfl
@[simp] theorem State.becomeReady_mem : (s.becomeReady).mem = s.mem := rfl
@[simp] theorem State.becomeReady_summary : (s.becomeReady).summary = s.summary := rfl
@[simp] theorem State.becomeReady_enables : (s.becomeReady).enables = s.enables := rfl
@[simp] theorem State.becomeReady_latchedMode : (s.becomeReady).latchedMode = s.latchedMode := rfl
@[simp] theorem State.becomeReady_holdIntake : (s.becomeReady).holdIntake = s.holdIntake := rfl
@[simp] theorem State.becomeReady_faultRecord : (s.becomeReady).faultRecord = s.faultRecord := rfl
@[simp] theorem State.becomeReady_laterFaults : (s.becomeReady).laterFaults = s.laterFaults := rfl
@[simp] theorem State.becomeReady_offset : (s.becomeReady).offset = s.offset := rfl
@[simp] theorem State.becomeReady_writeOpen : (s.becomeReady).writeOpen = s.writeOpen := rfl
@[simp] theorem State.becomeReady_readOpen : (s.becomeReady).readOpen = s.readOpen := rfl
@[simp] theorem State.becomeReady_acknowledged : (s.becomeReady).acknowledged = s.acknowledged := rfl
@[simp] theorem State.becomeReady_readData : (s.becomeReady).readData = s.readData := rfl
@[simp] theorem State.becomeReady_freeCount : (s.becomeReady).freeCount = s.freeCount := rfl

/-! ### writeEnable -/

@[simp] theorem State.writeEnable_pending (k : Nat) (v : Byte) : (s.writeEnable k v).pending = s.pending := rfl
@[simp] theorem State.writeEnable_resetHeld (k : Nat) (v : Byte) : (s.writeEnable k v).resetHeld = s.resetHeld := rfl
@[simp] theorem State.writeEnable_lowpwr (k : Nat) (v : Byte) : (s.writeEnable k v).lowpwr = s.lowpwr := rfl
@[simp] theorem State.writeEnable_straps (k : Nat) (v : Byte) : (s.writeEnable k v).straps = s.straps := rfl
@[simp] theorem State.writeEnable_requested (k : Nat) (v : Byte) : (s.writeEnable k v).requested = s.requested := rfl
@[simp] theorem State.writeEnable_effective (k : Nat) (v : Byte) : (s.writeEnable k v).effective = s.effective := rfl
@[simp] theorem State.writeEnable_riseTimer (k : Nat) (v : Byte) : (s.writeEnable k v).riseTimer = s.riseTimer := rfl
@[simp] theorem State.writeEnable_device (k : Nat) (v : Byte) : (s.writeEnable k v).device = s.device := rfl
@[simp] theorem State.writeEnable_initTimer (k : Nat) (v : Byte) : (s.writeEnable k v).initTimer = s.initTimer := rfl
@[simp] theorem State.writeEnable_initByPowerOn (k : Nat) (v : Byte) : (s.writeEnable k v).initByPowerOn = s.initByPowerOn := rfl
@[simp] theorem State.writeEnable_resetTimer (k : Nat) (v : Byte) : (s.writeEnable k v).resetTimer = s.resetTimer := rfl
@[simp] theorem State.writeEnable_lastCause (k : Nat) (v : Byte) : (s.writeEnable k v).lastCause = s.lastCause := rfl
@[simp] theorem State.writeEnable_releaseCause (k : Nat) (v : Byte) : (s.writeEnable k v).releaseCause = s.releaseCause := rfl
@[simp] theorem State.writeEnable_map (k : Nat) (v : Byte) : (s.writeEnable k v).map = s.map := rfl
@[simp] theorem State.writeEnable_lineSide (k : Nat) (v : Byte) : (s.writeEnable k v).lineSide = s.lineSide := rfl
@[simp] theorem State.writeEnable_switchSide (k : Nat) (v : Byte) : (s.writeEnable k v).switchSide = s.switchSide := rfl
@[simp] theorem State.writeEnable_legs (k : Nat) (v : Byte) : (s.writeEnable k v).legs = s.legs := rfl
@[simp] theorem State.writeEnable_engines (k : Nat) (v : Byte) : (s.writeEnable k v).engines = s.engines := rfl
@[simp] theorem State.writeEnable_deviceQueue (k : Nat) (v : Byte) : (s.writeEnable k v).deviceQueue = s.deviceQueue := rfl
@[simp] theorem State.writeEnable_powerWait (k : Nat) (v : Byte) : (s.writeEnable k v).powerWait = s.powerWait := rfl
@[simp] theorem State.writeEnable_handOver (k : Nat) (v : Byte) : (s.writeEnable k v).handOver = s.handOver := rfl
@[simp] theorem State.writeEnable_owed (k : Nat) (v : Byte) : (s.writeEnable k v).owed = s.owed := rfl
@[simp] theorem State.writeEnable_slots (k : Nat) (v : Byte) : (s.writeEnable k v).slots = s.slots := rfl
@[simp] theorem State.writeEnable_pages (k : Nat) (v : Byte) : (s.writeEnable k v).pages = s.pages := rfl
@[simp] theorem State.writeEnable_mem (k : Nat) (v : Byte) : (s.writeEnable k v).mem = s.mem := rfl
@[simp] theorem State.writeEnable_summary (k : Nat) (v : Byte) : (s.writeEnable k v).summary = s.summary := rfl
@[simp] theorem State.writeEnable_latchedMode (k : Nat) (v : Byte) : (s.writeEnable k v).latchedMode = s.latchedMode := rfl
@[simp] theorem State.writeEnable_holdIntake (k : Nat) (v : Byte) : (s.writeEnable k v).holdIntake = s.holdIntake := rfl
@[simp] theorem State.writeEnable_faultRecord (k : Nat) (v : Byte) : (s.writeEnable k v).faultRecord = s.faultRecord := rfl
@[simp] theorem State.writeEnable_laterFaults (k : Nat) (v : Byte) : (s.writeEnable k v).laterFaults = s.laterFaults := rfl
@[simp] theorem State.writeEnable_offset (k : Nat) (v : Byte) : (s.writeEnable k v).offset = s.offset := rfl
@[simp] theorem State.writeEnable_writeOpen (k : Nat) (v : Byte) : (s.writeEnable k v).writeOpen = s.writeOpen := rfl
@[simp] theorem State.writeEnable_readOpen (k : Nat) (v : Byte) : (s.writeEnable k v).readOpen = s.readOpen := rfl
@[simp] theorem State.writeEnable_acknowledged (k : Nat) (v : Byte) : (s.writeEnable k v).acknowledged = s.acknowledged := rfl
@[simp] theorem State.writeEnable_readData (k : Nat) (v : Byte) : (s.writeEnable k v).readData = s.readData := rfl
@[simp] theorem State.writeEnable_freeCount (k : Nat) (v : Byte) : (s.writeEnable k v).freeCount = s.freeCount := rfl

/-! ### endAwaited -/

@[simp] theorem State.endAwaited_pending (n : SlotId) (result : List Byte) (st : Status) : (s.endAwaited n result st).pending = s.pending := rfl
@[simp] theorem State.endAwaited_resetHeld (n : SlotId) (result : List Byte) (st : Status) : (s.endAwaited n result st).resetHeld = s.resetHeld := rfl
@[simp] theorem State.endAwaited_lowpwr (n : SlotId) (result : List Byte) (st : Status) : (s.endAwaited n result st).lowpwr = s.lowpwr := rfl
@[simp] theorem State.endAwaited_straps (n : SlotId) (result : List Byte) (st : Status) : (s.endAwaited n result st).straps = s.straps := rfl
@[simp] theorem State.endAwaited_requested (n : SlotId) (result : List Byte) (st : Status) : (s.endAwaited n result st).requested = s.requested := rfl
@[simp] theorem State.endAwaited_effective (n : SlotId) (result : List Byte) (st : Status) : (s.endAwaited n result st).effective = s.effective := rfl
@[simp] theorem State.endAwaited_riseTimer (n : SlotId) (result : List Byte) (st : Status) : (s.endAwaited n result st).riseTimer = s.riseTimer := rfl
@[simp] theorem State.endAwaited_device (n : SlotId) (result : List Byte) (st : Status) : (s.endAwaited n result st).device = s.device := rfl
@[simp] theorem State.endAwaited_initTimer (n : SlotId) (result : List Byte) (st : Status) : (s.endAwaited n result st).initTimer = s.initTimer := rfl
@[simp] theorem State.endAwaited_initByPowerOn (n : SlotId) (result : List Byte) (st : Status) : (s.endAwaited n result st).initByPowerOn = s.initByPowerOn := rfl
@[simp] theorem State.endAwaited_resetTimer (n : SlotId) (result : List Byte) (st : Status) : (s.endAwaited n result st).resetTimer = s.resetTimer := rfl
@[simp] theorem State.endAwaited_lastCause (n : SlotId) (result : List Byte) (st : Status) : (s.endAwaited n result st).lastCause = s.lastCause := rfl
@[simp] theorem State.endAwaited_releaseCause (n : SlotId) (result : List Byte) (st : Status) : (s.endAwaited n result st).releaseCause = s.releaseCause := rfl
@[simp] theorem State.endAwaited_map (n : SlotId) (result : List Byte) (st : Status) : (s.endAwaited n result st).map = s.map := rfl
@[simp] theorem State.endAwaited_lineSide (n : SlotId) (result : List Byte) (st : Status) : (s.endAwaited n result st).lineSide = s.lineSide := rfl
@[simp] theorem State.endAwaited_switchSide (n : SlotId) (result : List Byte) (st : Status) : (s.endAwaited n result st).switchSide = s.switchSide := rfl
@[simp] theorem State.endAwaited_legs (n : SlotId) (result : List Byte) (st : Status) : (s.endAwaited n result st).legs = s.legs := rfl
@[simp] theorem State.endAwaited_engines (n : SlotId) (result : List Byte) (st : Status) : (s.endAwaited n result st).engines = s.engines := rfl
@[simp] theorem State.endAwaited_deviceQueue (n : SlotId) (result : List Byte) (st : Status) : (s.endAwaited n result st).deviceQueue = s.deviceQueue := rfl
@[simp] theorem State.endAwaited_powerWait (n : SlotId) (result : List Byte) (st : Status) : (s.endAwaited n result st).powerWait = s.powerWait := rfl
@[simp] theorem State.endAwaited_handOver (n : SlotId) (result : List Byte) (st : Status) : (s.endAwaited n result st).handOver = s.handOver := rfl
@[simp] theorem State.endAwaited_owed (n : SlotId) (result : List Byte) (st : Status) : (s.endAwaited n result st).owed = s.owed := rfl
@[simp] theorem State.endAwaited_pages (n : SlotId) (result : List Byte) (st : Status) : (s.endAwaited n result st).pages = s.pages := rfl
@[simp] theorem State.endAwaited_mem (n : SlotId) (result : List Byte) (st : Status) : (s.endAwaited n result st).mem = s.mem.writeBytes (slotBase n + 0x80) result := rfl
@[simp] theorem State.endAwaited_summary (n : SlotId) (result : List Byte) (st : Status) : (s.endAwaited n result st).summary = s.summary ||| slotBit n := rfl
@[simp] theorem State.endAwaited_enables (n : SlotId) (result : List Byte) (st : Status) : (s.endAwaited n result st).enables = s.enables := rfl
@[simp] theorem State.endAwaited_latchedMode (n : SlotId) (result : List Byte) (st : Status) : (s.endAwaited n result st).latchedMode = s.latchedMode := rfl
@[simp] theorem State.endAwaited_holdIntake (n : SlotId) (result : List Byte) (st : Status) : (s.endAwaited n result st).holdIntake = s.holdIntake := rfl
@[simp] theorem State.endAwaited_faultRecord (n : SlotId) (result : List Byte) (st : Status) : (s.endAwaited n result st).faultRecord = s.faultRecord := rfl
@[simp] theorem State.endAwaited_laterFaults (n : SlotId) (result : List Byte) (st : Status) : (s.endAwaited n result st).laterFaults = s.laterFaults := rfl
@[simp] theorem State.endAwaited_offset (n : SlotId) (result : List Byte) (st : Status) : (s.endAwaited n result st).offset = s.offset := rfl
@[simp] theorem State.endAwaited_writeOpen (n : SlotId) (result : List Byte) (st : Status) : (s.endAwaited n result st).writeOpen = s.writeOpen := rfl
@[simp] theorem State.endAwaited_readOpen (n : SlotId) (result : List Byte) (st : Status) : (s.endAwaited n result st).readOpen = s.readOpen := rfl
@[simp] theorem State.endAwaited_acknowledged (n : SlotId) (result : List Byte) (st : Status) : (s.endAwaited n result st).acknowledged = s.acknowledged := rfl
@[simp] theorem State.endAwaited_readData (n : SlotId) (result : List Byte) (st : Status) : (s.endAwaited n result st).readData = s.readData := rfl
@[simp] theorem State.endAwaited_freeCount (n : SlotId) (result : List Byte) (st : Status) : (s.endAwaited n result st).freeCount = s.freeCount := rfl

end Sys2Proof.Machine
end

