-- ==== Sys2Proof/Laws/Tables.lean ====
section
/-! SUPPORT. What the tables of the state read after an update: the changed entry, and every other entry and every other
table as before. -/

namespace Sys2Proof.Machine

variable (s : State)

/-! ### The changed table -/

/-- A table with every row changed. -/
@[simp] theorem mapVector_getElem {α β : Type} {n : Nat} (f : α → β) (v : Vector α n) (i : Nat) (h : i < n) :
    (mapVector f v)[i] = f v[i] := by simp [mapVector]

/-- Changing every row is the library's `Vector.map`. -/
theorem mapVector_eq_map {α β : Type} {n : Nat} (f : α → β) (v : Vector α n) : mapVector f v = v.map f := by
  ext i h; rw [mapVector_getElem, Vector.getElem_map]

/-- A changed lane side, and every other as before. -/
theorem State.lane_modLane (x y : LaneSide) (f : LaneState → LaneState) :
    (s.modLane x f).lane y = if y = x then f (s.lane x) else s.lane y := by
  obtain ⟨xs, xl⟩ := x
  obtain ⟨ys, yl⟩ := y
  cases xs <;> cases ys <;> simp [State.modLane, State.lane]
  all_goals
    by_cases h : yl = xl
    · subst h; simp
    · simp [h, Fin.val_inj, Ne.symm h]

/-- The changed lane side. -/
@[simp] theorem State.lane_modLane_self (x : LaneSide) (f : LaneState → LaneState) :
    (s.modLane x f).lane x = f (s.lane x) := by rw [State.lane_modLane, if_pos rfl]

/-- Every lane side changed. -/
@[simp] theorem State.lane_modAllLanes (y : LaneSide) (f : LaneState → LaneState) :
    (s.modAllLanes f).lane y = f (s.lane y) := by
  obtain ⟨ys, yl⟩ := y
  cases ys <;> simp [State.modAllLanes, State.lane]

/-- A changed leg, and every other as before. -/
theorem State.leg_modLeg (l k : LegId) (f : Leg → Leg) :
    (s.modLeg l f).leg k = if k = l then f (s.leg l) else s.leg k := by
  by_cases h : k = l
  · subst h; simp [State.leg]
  · simp [State.leg, h, Fin.val_inj, Ne.symm h]

/-- The changed leg. -/
@[simp] theorem State.leg_modLeg_self (l : LegId) (f : Leg → Leg) : (s.modLeg l f).leg l = f (s.leg l) := by
  rw [State.leg_modLeg, if_pos rfl]

/-- A changed side of a leg, and every other leg as before. -/
theorem State.leg_modLegSide (l k : LegId) (d : Side) (f : LegSide → LegSide) :
    (s.modLegSide l d f).leg k = if k = l then (s.leg l).modSide d f else s.leg k := State.leg_modLeg s l k _

/-- The changed side of a leg. -/
@[simp] theorem State.leg_modLegSide_self (l : LegId) (d : Side) (f : LegSide → LegSide) :
    (s.modLegSide l d f).leg l = (s.leg l).modSide d f := State.leg_modLeg_self s l _

/-- A changed engine, and every other as before. -/
theorem State.engine_modEngine (l k : LegId) (f : LegEngine → LegEngine) :
    (s.modEngine l f).engine k = if k = l then f (s.engine l) else s.engine k := by
  by_cases h : k = l
  · subst h; simp [State.engine]
  · simp [State.engine, h, Fin.val_inj, Ne.symm h]

/-- A replaced leg queue, and every other engine as before. -/
theorem State.engine_setQueue (l k : LegId) (q : List Entry) :
    (s.setQueue l q).engine k = if k = l then { s.engine l with queue := q } else s.engine k :=
  State.engine_modEngine s l k _

/-- A changed slot, and every other as before. -/
theorem State.slot_modSlot (n m : SlotId) (f : Slot → Slot) :
    (s.modSlot n f).slot m = if m = n then f (s.slot n) else s.slot m := by
  by_cases h : m = n
  · subst h; simp [State.slot]
  · simp [State.slot, h, Fin.val_inj, Ne.symm h]

/-- The slot of a finished awaited task is DONE with its status, and every other as before. -/
theorem State.slot_endAwaited (n m : SlotId) (result : List Byte) (st : Status) :
    (s.endAwaited n result st).slot m =
      if m = n then { s.slot n with state := .done, status := st } else s.slot m :=
  by simp only [State.endAwaited, State.slot, State.raise_slots]; exact State.slot_modSlot _ n m _

/-- A changed page, and every other as before. -/
theorem State.page_modPage (p q : PageId) (f : Page → Page) :
    (s.modPage p f).page q = if q = p then f (s.page p) else s.page q := by
  by_cases h : q = p
  · subst h; simp [State.page]
  · simp [State.page, h, Fin.val_inj, Ne.symm h]

/-- One side of a leg after a change of a side. -/
theorem Leg.side_modSide (g : Leg) (d e : Side) (f : LegSide → LegSide) :
    (g.modSide d f).side e = if e = d then f (g.side d) else g.side e := by
  cases d <;> cases e <;> simp [Leg.modSide, Leg.side]

/-! ### Every other table -/

@[simp] theorem State.leg_modLane (x : LaneSide) (f : LaneState → LaneState) (g : LegId) : (s.modLane x f).leg g = s.leg g := rfl
@[simp] theorem State.engine_modLane (x : LaneSide) (f : LaneState → LaneState) (g : LegId) : (s.modLane x f).engine g = s.engine g := rfl
@[simp] theorem State.slot_modLane (x : LaneSide) (f : LaneState → LaneState) (m : SlotId) : (s.modLane x f).slot m = s.slot m := rfl
@[simp] theorem State.page_modLane (x : LaneSide) (f : LaneState → LaneState) (w : PageId) : (s.modLane x f).page w = s.page w := rfl
@[simp] theorem State.entry_modLane (x : LaneSide) (f : LaneState → LaneState) (i : LaneId) : (s.modLane x f).entry i = s.entry i := rfl
@[simp] theorem State.members_modLane (x : LaneSide) (f : LaneState → LaneState) (g : LegId) : (s.modLane x f).members g = s.members g := rfl
@[simp] theorem State.used_modLane (x : LaneSide) (f : LaneState → LaneState) (g : LegId) : (s.modLane x f).used g = s.used g := rfl
@[simp] theorem State.width_modLane (x : LaneSide) (f : LaneState → LaneState) (g : LegId) : (s.modLane x f).width g = s.width g := rfl
@[simp] theorem State.fedBy_modLane (x : LaneSide) (f : LaneState → LaneState) (i : LaneId) : (s.modLane x f).fedBy i = s.fedBy i := rfl
@[simp] theorem State.lineOf_modLane (x : LaneSide) (f : LaneState → LaneState) (y : LaneSide) : (s.modLane x f).lineOf y = s.lineOf y := rfl
@[simp] theorem State.legOf_modLane (x : LaneSide) (f : LaneState → LaneState) (y : LaneSide) : (s.modLane x f).legOf y = s.legOf y := rfl
@[simp] theorem State.sideOf_modLane (x : LaneSide) (f : LaneState → LaneState) (i : LaneId) (d : Side) : (s.modLane x f).sideOf i d = s.sideOf i d := rfl
@[simp] theorem State.memberSides_modLane (x : LaneSide) (f : LaneState → LaneState) (g : LegId) (d : Side) : (s.modLane x f).memberSides g d = s.memberSides g d := rfl
@[simp] theorem State.allMemberSides_modLane (x : LaneSide) (f : LaneState → LaneState) (g : LegId) : (s.modLane x f).allMemberSides g = s.allMemberSides g := rfl
@[simp] theorem State.polarity_modLane (x : LaneSide) (f : LaneState → LaneState) (y : LaneSide) : (s.modLane x f).polarity y = s.polarity y := rfl
@[simp] theorem State.allCarry_modLane (x : LaneSide) (f : LaneState → LaneState) (g : LegId) : (s.modLane x f).allCarry g = s.allCarry g := rfl
@[simp] theorem State.rateOf_modLane (x : LaneSide) (f : LaneState → LaneState) (y : LaneSide) : (s.modLane x f).rateOf y = s.rateOf y := rfl
@[simp] theorem State.slotByte_modLane (x : LaneSide) (f : LaneState → LaneState) (m : SlotId) (j : Nat) : (s.modLane x f).slotByte m j = s.slotByte m j := rfl
@[simp] theorem State.transmit_modLane (x : LaneSide) (f : LaneState → LaneState) (y : LaneSide) : (s.modLane x f).transmit y = s.transmit y := rfl
@[simp] theorem State.leg_modAllLanes (f : LaneState → LaneState) (g : LegId) : (s.modAllLanes f).leg g = s.leg g := rfl
@[simp] theorem State.engine_modAllLanes (f : LaneState → LaneState) (g : LegId) : (s.modAllLanes f).engine g = s.engine g := rfl
@[simp] theorem State.slot_modAllLanes (f : LaneState → LaneState) (m : SlotId) : (s.modAllLanes f).slot m = s.slot m := rfl
@[simp] theorem State.page_modAllLanes (f : LaneState → LaneState) (w : PageId) : (s.modAllLanes f).page w = s.page w := rfl
@[simp] theorem State.entry_modAllLanes (f : LaneState → LaneState) (i : LaneId) : (s.modAllLanes f).entry i = s.entry i := rfl
@[simp] theorem State.members_modAllLanes (f : LaneState → LaneState) (g : LegId) : (s.modAllLanes f).members g = s.members g := rfl
@[simp] theorem State.used_modAllLanes (f : LaneState → LaneState) (g : LegId) : (s.modAllLanes f).used g = s.used g := rfl
@[simp] theorem State.width_modAllLanes (f : LaneState → LaneState) (g : LegId) : (s.modAllLanes f).width g = s.width g := rfl
@[simp] theorem State.fedBy_modAllLanes (f : LaneState → LaneState) (i : LaneId) : (s.modAllLanes f).fedBy i = s.fedBy i := rfl
@[simp] theorem State.lineOf_modAllLanes (f : LaneState → LaneState) (y : LaneSide) : (s.modAllLanes f).lineOf y = s.lineOf y := rfl
@[simp] theorem State.legOf_modAllLanes (f : LaneState → LaneState) (y : LaneSide) : (s.modAllLanes f).legOf y = s.legOf y := rfl
@[simp] theorem State.sideOf_modAllLanes (f : LaneState → LaneState) (i : LaneId) (d : Side) : (s.modAllLanes f).sideOf i d = s.sideOf i d := rfl
@[simp] theorem State.memberSides_modAllLanes (f : LaneState → LaneState) (g : LegId) (d : Side) : (s.modAllLanes f).memberSides g d = s.memberSides g d := rfl
@[simp] theorem State.allMemberSides_modAllLanes (f : LaneState → LaneState) (g : LegId) : (s.modAllLanes f).allMemberSides g = s.allMemberSides g := rfl
@[simp] theorem State.polarity_modAllLanes (f : LaneState → LaneState) (y : LaneSide) : (s.modAllLanes f).polarity y = s.polarity y := rfl
@[simp] theorem State.allCarry_modAllLanes (f : LaneState → LaneState) (g : LegId) : (s.modAllLanes f).allCarry g = s.allCarry g := rfl
@[simp] theorem State.rateOf_modAllLanes (f : LaneState → LaneState) (y : LaneSide) : (s.modAllLanes f).rateOf y = s.rateOf y := rfl
@[simp] theorem State.slotByte_modAllLanes (f : LaneState → LaneState) (m : SlotId) (j : Nat) : (s.modAllLanes f).slotByte m j = s.slotByte m j := rfl
@[simp] theorem State.transmit_modAllLanes (f : LaneState → LaneState) (y : LaneSide) : (s.modAllLanes f).transmit y = s.transmit y := rfl
@[simp] theorem State.lane_modLeg (l : LegId) (f : Leg → Leg) (y : LaneSide) : (s.modLeg l f).lane y = s.lane y := rfl
@[simp] theorem State.engine_modLeg (l : LegId) (f : Leg → Leg) (g : LegId) : (s.modLeg l f).engine g = s.engine g := rfl
@[simp] theorem State.slot_modLeg (l : LegId) (f : Leg → Leg) (m : SlotId) : (s.modLeg l f).slot m = s.slot m := rfl
@[simp] theorem State.page_modLeg (l : LegId) (f : Leg → Leg) (w : PageId) : (s.modLeg l f).page w = s.page w := rfl
@[simp] theorem State.entry_modLeg (l : LegId) (f : Leg → Leg) (i : LaneId) : (s.modLeg l f).entry i = s.entry i := rfl
@[simp] theorem State.members_modLeg (l : LegId) (f : Leg → Leg) (g : LegId) : (s.modLeg l f).members g = s.members g := rfl
@[simp] theorem State.used_modLeg (l : LegId) (f : Leg → Leg) (g : LegId) : (s.modLeg l f).used g = s.used g := rfl
@[simp] theorem State.width_modLeg (l : LegId) (f : Leg → Leg) (g : LegId) : (s.modLeg l f).width g = s.width g := rfl
@[simp] theorem State.fedBy_modLeg (l : LegId) (f : Leg → Leg) (i : LaneId) : (s.modLeg l f).fedBy i = s.fedBy i := rfl
@[simp] theorem State.lineOf_modLeg (l : LegId) (f : Leg → Leg) (y : LaneSide) : (s.modLeg l f).lineOf y = s.lineOf y := rfl
@[simp] theorem State.legOf_modLeg (l : LegId) (f : Leg → Leg) (y : LaneSide) : (s.modLeg l f).legOf y = s.legOf y := rfl
@[simp] theorem State.sideOf_modLeg (l : LegId) (f : Leg → Leg) (i : LaneId) (d : Side) : (s.modLeg l f).sideOf i d = s.sideOf i d := rfl
@[simp] theorem State.memberSides_modLeg (l : LegId) (f : Leg → Leg) (g : LegId) (d : Side) : (s.modLeg l f).memberSides g d = s.memberSides g d := rfl
@[simp] theorem State.allMemberSides_modLeg (l : LegId) (f : Leg → Leg) (g : LegId) : (s.modLeg l f).allMemberSides g = s.allMemberSides g := rfl
@[simp] theorem State.polarity_modLeg (l : LegId) (f : Leg → Leg) (y : LaneSide) : (s.modLeg l f).polarity y = s.polarity y := rfl
@[simp] theorem State.allCarry_modLeg (l : LegId) (f : Leg → Leg) (g : LegId) : (s.modLeg l f).allCarry g = s.allCarry g := rfl
@[simp] theorem State.sidePresent_modLeg (l : LegId) (f : Leg → Leg) (g : LegId) (d : Side) : (s.modLeg l f).sidePresent g d = s.sidePresent g d := rfl
@[simp] theorem State.allPresent_modLeg (l : LegId) (f : Leg → Leg) (g : LegId) : (s.modLeg l f).allPresent g = s.allPresent g := rfl
@[simp] theorem State.allLocked_modLeg (l : LegId) (f : Leg → Leg) (g : LegId) : (s.modLeg l f).allLocked g = s.allLocked g := rfl
@[simp] theorem State.slotByte_modLeg (l : LegId) (f : Leg → Leg) (m : SlotId) (j : Nat) : (s.modLeg l f).slotByte m j = s.slotByte m j := rfl
@[simp] theorem State.lane_modLegSide (l : LegId) (side : Side) (f : LegSide → LegSide) (y : LaneSide) : (s.modLegSide l side f).lane y = s.lane y := rfl
@[simp] theorem State.engine_modLegSide (l : LegId) (side : Side) (f : LegSide → LegSide) (g : LegId) : (s.modLegSide l side f).engine g = s.engine g := rfl
@[simp] theorem State.slot_modLegSide (l : LegId) (side : Side) (f : LegSide → LegSide) (m : SlotId) : (s.modLegSide l side f).slot m = s.slot m := rfl
@[simp] theorem State.page_modLegSide (l : LegId) (side : Side) (f : LegSide → LegSide) (w : PageId) : (s.modLegSide l side f).page w = s.page w := rfl
@[simp] theorem State.entry_modLegSide (l : LegId) (side : Side) (f : LegSide → LegSide) (i : LaneId) : (s.modLegSide l side f).entry i = s.entry i := rfl
@[simp] theorem State.members_modLegSide (l : LegId) (side : Side) (f : LegSide → LegSide) (g : LegId) : (s.modLegSide l side f).members g = s.members g := rfl
@[simp] theorem State.used_modLegSide (l : LegId) (side : Side) (f : LegSide → LegSide) (g : LegId) : (s.modLegSide l side f).used g = s.used g := rfl
@[simp] theorem State.width_modLegSide (l : LegId) (side : Side) (f : LegSide → LegSide) (g : LegId) : (s.modLegSide l side f).width g = s.width g := rfl
@[simp] theorem State.fedBy_modLegSide (l : LegId) (side : Side) (f : LegSide → LegSide) (i : LaneId) : (s.modLegSide l side f).fedBy i = s.fedBy i := rfl
@[simp] theorem State.lineOf_modLegSide (l : LegId) (side : Side) (f : LegSide → LegSide) (y : LaneSide) : (s.modLegSide l side f).lineOf y = s.lineOf y := rfl
@[simp] theorem State.legOf_modLegSide (l : LegId) (side : Side) (f : LegSide → LegSide) (y : LaneSide) : (s.modLegSide l side f).legOf y = s.legOf y := rfl
@[simp] theorem State.sideOf_modLegSide (l : LegId) (side : Side) (f : LegSide → LegSide) (i : LaneId) (d : Side) : (s.modLegSide l side f).sideOf i d = s.sideOf i d := rfl
@[simp] theorem State.memberSides_modLegSide (l : LegId) (side : Side) (f : LegSide → LegSide) (g : LegId) (d : Side) : (s.modLegSide l side f).memberSides g d = s.memberSides g d := rfl
@[simp] theorem State.allMemberSides_modLegSide (l : LegId) (side : Side) (f : LegSide → LegSide) (g : LegId) : (s.modLegSide l side f).allMemberSides g = s.allMemberSides g := rfl
@[simp] theorem State.polarity_modLegSide (l : LegId) (side : Side) (f : LegSide → LegSide) (y : LaneSide) : (s.modLegSide l side f).polarity y = s.polarity y := rfl
@[simp] theorem State.allCarry_modLegSide (l : LegId) (side : Side) (f : LegSide → LegSide) (g : LegId) : (s.modLegSide l side f).allCarry g = s.allCarry g := rfl
@[simp] theorem State.sidePresent_modLegSide (l : LegId) (side : Side) (f : LegSide → LegSide) (g : LegId) (d : Side) : (s.modLegSide l side f).sidePresent g d = s.sidePresent g d := rfl
@[simp] theorem State.allPresent_modLegSide (l : LegId) (side : Side) (f : LegSide → LegSide) (g : LegId) : (s.modLegSide l side f).allPresent g = s.allPresent g := rfl
@[simp] theorem State.allLocked_modLegSide (l : LegId) (side : Side) (f : LegSide → LegSide) (g : LegId) : (s.modLegSide l side f).allLocked g = s.allLocked g := rfl
@[simp] theorem State.slotByte_modLegSide (l : LegId) (side : Side) (f : LegSide → LegSide) (m : SlotId) (j : Nat) : (s.modLegSide l side f).slotByte m j = s.slotByte m j := rfl
@[simp] theorem State.lane_modEngine (l : LegId) (f : LegEngine → LegEngine) (y : LaneSide) : (s.modEngine l f).lane y = s.lane y := rfl
@[simp] theorem State.leg_modEngine (l : LegId) (f : LegEngine → LegEngine) (g : LegId) : (s.modEngine l f).leg g = s.leg g := rfl
@[simp] theorem State.slot_modEngine (l : LegId) (f : LegEngine → LegEngine) (m : SlotId) : (s.modEngine l f).slot m = s.slot m := rfl
@[simp] theorem State.page_modEngine (l : LegId) (f : LegEngine → LegEngine) (w : PageId) : (s.modEngine l f).page w = s.page w := rfl
@[simp] theorem State.entry_modEngine (l : LegId) (f : LegEngine → LegEngine) (i : LaneId) : (s.modEngine l f).entry i = s.entry i := rfl
@[simp] theorem State.members_modEngine (l : LegId) (f : LegEngine → LegEngine) (g : LegId) : (s.modEngine l f).members g = s.members g := rfl
@[simp] theorem State.used_modEngine (l : LegId) (f : LegEngine → LegEngine) (g : LegId) : (s.modEngine l f).used g = s.used g := rfl
@[simp] theorem State.width_modEngine (l : LegId) (f : LegEngine → LegEngine) (g : LegId) : (s.modEngine l f).width g = s.width g := rfl
@[simp] theorem State.fedBy_modEngine (l : LegId) (f : LegEngine → LegEngine) (i : LaneId) : (s.modEngine l f).fedBy i = s.fedBy i := rfl
@[simp] theorem State.lineOf_modEngine (l : LegId) (f : LegEngine → LegEngine) (y : LaneSide) : (s.modEngine l f).lineOf y = s.lineOf y := rfl
@[simp] theorem State.legOf_modEngine (l : LegId) (f : LegEngine → LegEngine) (y : LaneSide) : (s.modEngine l f).legOf y = s.legOf y := rfl
@[simp] theorem State.sideOf_modEngine (l : LegId) (f : LegEngine → LegEngine) (i : LaneId) (d : Side) : (s.modEngine l f).sideOf i d = s.sideOf i d := rfl
@[simp] theorem State.memberSides_modEngine (l : LegId) (f : LegEngine → LegEngine) (g : LegId) (d : Side) : (s.modEngine l f).memberSides g d = s.memberSides g d := rfl
@[simp] theorem State.allMemberSides_modEngine (l : LegId) (f : LegEngine → LegEngine) (g : LegId) : (s.modEngine l f).allMemberSides g = s.allMemberSides g := rfl
@[simp] theorem State.polarity_modEngine (l : LegId) (f : LegEngine → LegEngine) (y : LaneSide) : (s.modEngine l f).polarity y = s.polarity y := rfl
@[simp] theorem State.allCarry_modEngine (l : LegId) (f : LegEngine → LegEngine) (g : LegId) : (s.modEngine l f).allCarry g = s.allCarry g := rfl
@[simp] theorem State.rateOf_modEngine (l : LegId) (f : LegEngine → LegEngine) (y : LaneSide) : (s.modEngine l f).rateOf y = s.rateOf y := rfl
@[simp] theorem State.sidePresent_modEngine (l : LegId) (f : LegEngine → LegEngine) (g : LegId) (d : Side) : (s.modEngine l f).sidePresent g d = s.sidePresent g d := rfl
@[simp] theorem State.allPresent_modEngine (l : LegId) (f : LegEngine → LegEngine) (g : LegId) : (s.modEngine l f).allPresent g = s.allPresent g := rfl
@[simp] theorem State.allLocked_modEngine (l : LegId) (f : LegEngine → LegEngine) (g : LegId) : (s.modEngine l f).allLocked g = s.allLocked g := rfl
@[simp] theorem State.slotByte_modEngine (l : LegId) (f : LegEngine → LegEngine) (m : SlotId) (j : Nat) : (s.modEngine l f).slotByte m j = s.slotByte m j := rfl
@[simp] theorem State.transmit_modEngine (l : LegId) (f : LegEngine → LegEngine) (y : LaneSide) : (s.modEngine l f).transmit y = s.transmit y := rfl
@[simp] theorem State.lane_setQueue (l : LegId) (q : List Entry) (y : LaneSide) : (s.setQueue l q).lane y = s.lane y := rfl
@[simp] theorem State.leg_setQueue (l : LegId) (q : List Entry) (g : LegId) : (s.setQueue l q).leg g = s.leg g := rfl
@[simp] theorem State.slot_setQueue (l : LegId) (q : List Entry) (m : SlotId) : (s.setQueue l q).slot m = s.slot m := rfl
@[simp] theorem State.page_setQueue (l : LegId) (q : List Entry) (w : PageId) : (s.setQueue l q).page w = s.page w := rfl
@[simp] theorem State.entry_setQueue (l : LegId) (q : List Entry) (i : LaneId) : (s.setQueue l q).entry i = s.entry i := rfl
@[simp] theorem State.members_setQueue (l : LegId) (q : List Entry) (g : LegId) : (s.setQueue l q).members g = s.members g := rfl
@[simp] theorem State.used_setQueue (l : LegId) (q : List Entry) (g : LegId) : (s.setQueue l q).used g = s.used g := rfl
@[simp] theorem State.width_setQueue (l : LegId) (q : List Entry) (g : LegId) : (s.setQueue l q).width g = s.width g := rfl
@[simp] theorem State.fedBy_setQueue (l : LegId) (q : List Entry) (i : LaneId) : (s.setQueue l q).fedBy i = s.fedBy i := rfl
@[simp] theorem State.lineOf_setQueue (l : LegId) (q : List Entry) (y : LaneSide) : (s.setQueue l q).lineOf y = s.lineOf y := rfl
@[simp] theorem State.legOf_setQueue (l : LegId) (q : List Entry) (y : LaneSide) : (s.setQueue l q).legOf y = s.legOf y := rfl
@[simp] theorem State.sideOf_setQueue (l : LegId) (q : List Entry) (i : LaneId) (d : Side) : (s.setQueue l q).sideOf i d = s.sideOf i d := rfl
@[simp] theorem State.memberSides_setQueue (l : LegId) (q : List Entry) (g : LegId) (d : Side) : (s.setQueue l q).memberSides g d = s.memberSides g d := rfl
@[simp] theorem State.allMemberSides_setQueue (l : LegId) (q : List Entry) (g : LegId) : (s.setQueue l q).allMemberSides g = s.allMemberSides g := rfl
@[simp] theorem State.polarity_setQueue (l : LegId) (q : List Entry) (y : LaneSide) : (s.setQueue l q).polarity y = s.polarity y := rfl
@[simp] theorem State.allCarry_setQueue (l : LegId) (q : List Entry) (g : LegId) : (s.setQueue l q).allCarry g = s.allCarry g := rfl
@[simp] theorem State.rateOf_setQueue (l : LegId) (q : List Entry) (y : LaneSide) : (s.setQueue l q).rateOf y = s.rateOf y := rfl
@[simp] theorem State.sidePresent_setQueue (l : LegId) (q : List Entry) (g : LegId) (d : Side) : (s.setQueue l q).sidePresent g d = s.sidePresent g d := rfl
@[simp] theorem State.allPresent_setQueue (l : LegId) (q : List Entry) (g : LegId) : (s.setQueue l q).allPresent g = s.allPresent g := rfl
@[simp] theorem State.allLocked_setQueue (l : LegId) (q : List Entry) (g : LegId) : (s.setQueue l q).allLocked g = s.allLocked g := rfl
@[simp] theorem State.slotByte_setQueue (l : LegId) (q : List Entry) (m : SlotId) (j : Nat) : (s.setQueue l q).slotByte m j = s.slotByte m j := rfl
@[simp] theorem State.transmit_setQueue (l : LegId) (q : List Entry) (y : LaneSide) : (s.setQueue l q).transmit y = s.transmit y := rfl
@[simp] theorem State.lane_modSlot (n : SlotId) (f : Slot → Slot) (y : LaneSide) : (s.modSlot n f).lane y = s.lane y := rfl
@[simp] theorem State.leg_modSlot (n : SlotId) (f : Slot → Slot) (g : LegId) : (s.modSlot n f).leg g = s.leg g := rfl
@[simp] theorem State.engine_modSlot (n : SlotId) (f : Slot → Slot) (g : LegId) : (s.modSlot n f).engine g = s.engine g := rfl
@[simp] theorem State.page_modSlot (n : SlotId) (f : Slot → Slot) (w : PageId) : (s.modSlot n f).page w = s.page w := rfl
@[simp] theorem State.entry_modSlot (n : SlotId) (f : Slot → Slot) (i : LaneId) : (s.modSlot n f).entry i = s.entry i := rfl
@[simp] theorem State.members_modSlot (n : SlotId) (f : Slot → Slot) (g : LegId) : (s.modSlot n f).members g = s.members g := rfl
@[simp] theorem State.used_modSlot (n : SlotId) (f : Slot → Slot) (g : LegId) : (s.modSlot n f).used g = s.used g := rfl
@[simp] theorem State.width_modSlot (n : SlotId) (f : Slot → Slot) (g : LegId) : (s.modSlot n f).width g = s.width g := rfl
@[simp] theorem State.fedBy_modSlot (n : SlotId) (f : Slot → Slot) (i : LaneId) : (s.modSlot n f).fedBy i = s.fedBy i := rfl
@[simp] theorem State.lineOf_modSlot (n : SlotId) (f : Slot → Slot) (y : LaneSide) : (s.modSlot n f).lineOf y = s.lineOf y := rfl
@[simp] theorem State.legOf_modSlot (n : SlotId) (f : Slot → Slot) (y : LaneSide) : (s.modSlot n f).legOf y = s.legOf y := rfl
@[simp] theorem State.sideOf_modSlot (n : SlotId) (f : Slot → Slot) (i : LaneId) (d : Side) : (s.modSlot n f).sideOf i d = s.sideOf i d := rfl
@[simp] theorem State.memberSides_modSlot (n : SlotId) (f : Slot → Slot) (g : LegId) (d : Side) : (s.modSlot n f).memberSides g d = s.memberSides g d := rfl
@[simp] theorem State.allMemberSides_modSlot (n : SlotId) (f : Slot → Slot) (g : LegId) : (s.modSlot n f).allMemberSides g = s.allMemberSides g := rfl
@[simp] theorem State.polarity_modSlot (n : SlotId) (f : Slot → Slot) (y : LaneSide) : (s.modSlot n f).polarity y = s.polarity y := rfl
@[simp] theorem State.allCarry_modSlot (n : SlotId) (f : Slot → Slot) (g : LegId) : (s.modSlot n f).allCarry g = s.allCarry g := rfl
@[simp] theorem State.rateOf_modSlot (n : SlotId) (f : Slot → Slot) (y : LaneSide) : (s.modSlot n f).rateOf y = s.rateOf y := rfl
@[simp] theorem State.sidePresent_modSlot (n : SlotId) (f : Slot → Slot) (g : LegId) (d : Side) : (s.modSlot n f).sidePresent g d = s.sidePresent g d := rfl
@[simp] theorem State.allPresent_modSlot (n : SlotId) (f : Slot → Slot) (g : LegId) : (s.modSlot n f).allPresent g = s.allPresent g := rfl
@[simp] theorem State.allLocked_modSlot (n : SlotId) (f : Slot → Slot) (g : LegId) : (s.modSlot n f).allLocked g = s.allLocked g := rfl
@[simp] theorem State.slotByte_modSlot (n : SlotId) (f : Slot → Slot) (m : SlotId) (j : Nat) : (s.modSlot n f).slotByte m j = s.slotByte m j := rfl
@[simp] theorem State.transmit_modSlot (n : SlotId) (f : Slot → Slot) (y : LaneSide) : (s.modSlot n f).transmit y = s.transmit y := rfl
@[simp] theorem State.lane_modPage (p : PageId) (f : Page → Page) (y : LaneSide) : (s.modPage p f).lane y = s.lane y := rfl
@[simp] theorem State.leg_modPage (p : PageId) (f : Page → Page) (g : LegId) : (s.modPage p f).leg g = s.leg g := rfl
@[simp] theorem State.engine_modPage (p : PageId) (f : Page → Page) (g : LegId) : (s.modPage p f).engine g = s.engine g := rfl
@[simp] theorem State.slot_modPage (p : PageId) (f : Page → Page) (m : SlotId) : (s.modPage p f).slot m = s.slot m := rfl
@[simp] theorem State.entry_modPage (p : PageId) (f : Page → Page) (i : LaneId) : (s.modPage p f).entry i = s.entry i := rfl
@[simp] theorem State.members_modPage (p : PageId) (f : Page → Page) (g : LegId) : (s.modPage p f).members g = s.members g := rfl
@[simp] theorem State.used_modPage (p : PageId) (f : Page → Page) (g : LegId) : (s.modPage p f).used g = s.used g := rfl
@[simp] theorem State.width_modPage (p : PageId) (f : Page → Page) (g : LegId) : (s.modPage p f).width g = s.width g := rfl
@[simp] theorem State.fedBy_modPage (p : PageId) (f : Page → Page) (i : LaneId) : (s.modPage p f).fedBy i = s.fedBy i := rfl
@[simp] theorem State.lineOf_modPage (p : PageId) (f : Page → Page) (y : LaneSide) : (s.modPage p f).lineOf y = s.lineOf y := rfl
@[simp] theorem State.legOf_modPage (p : PageId) (f : Page → Page) (y : LaneSide) : (s.modPage p f).legOf y = s.legOf y := rfl
@[simp] theorem State.sideOf_modPage (p : PageId) (f : Page → Page) (i : LaneId) (d : Side) : (s.modPage p f).sideOf i d = s.sideOf i d := rfl
@[simp] theorem State.memberSides_modPage (p : PageId) (f : Page → Page) (g : LegId) (d : Side) : (s.modPage p f).memberSides g d = s.memberSides g d := rfl
@[simp] theorem State.allMemberSides_modPage (p : PageId) (f : Page → Page) (g : LegId) : (s.modPage p f).allMemberSides g = s.allMemberSides g := rfl
@[simp] theorem State.polarity_modPage (p : PageId) (f : Page → Page) (y : LaneSide) : (s.modPage p f).polarity y = s.polarity y := rfl
@[simp] theorem State.allCarry_modPage (p : PageId) (f : Page → Page) (g : LegId) : (s.modPage p f).allCarry g = s.allCarry g := rfl
@[simp] theorem State.rateOf_modPage (p : PageId) (f : Page → Page) (y : LaneSide) : (s.modPage p f).rateOf y = s.rateOf y := rfl
@[simp] theorem State.sidePresent_modPage (p : PageId) (f : Page → Page) (g : LegId) (d : Side) : (s.modPage p f).sidePresent g d = s.sidePresent g d := rfl
@[simp] theorem State.allPresent_modPage (p : PageId) (f : Page → Page) (g : LegId) : (s.modPage p f).allPresent g = s.allPresent g := rfl
@[simp] theorem State.allLocked_modPage (p : PageId) (f : Page → Page) (g : LegId) : (s.modPage p f).allLocked g = s.allLocked g := rfl
@[simp] theorem State.slotByte_modPage (p : PageId) (f : Page → Page) (m : SlotId) (j : Nat) : (s.modPage p f).slotByte m j = s.slotByte m j := rfl
@[simp] theorem State.transmit_modPage (p : PageId) (f : Page → Page) (y : LaneSide) : (s.modPage p f).transmit y = s.transmit y := rfl
@[simp] theorem State.lane_raise (bits : BitVec 32) (y : LaneSide) : (s.raise bits).lane y = s.lane y := rfl
@[simp] theorem State.leg_raise (bits : BitVec 32) (g : LegId) : (s.raise bits).leg g = s.leg g := rfl
@[simp] theorem State.engine_raise (bits : BitVec 32) (g : LegId) : (s.raise bits).engine g = s.engine g := rfl
@[simp] theorem State.slot_raise (bits : BitVec 32) (m : SlotId) : (s.raise bits).slot m = s.slot m := rfl
@[simp] theorem State.page_raise (bits : BitVec 32) (w : PageId) : (s.raise bits).page w = s.page w := rfl
@[simp] theorem State.entry_raise (bits : BitVec 32) (i : LaneId) : (s.raise bits).entry i = s.entry i := rfl
@[simp] theorem State.members_raise (bits : BitVec 32) (g : LegId) : (s.raise bits).members g = s.members g := rfl
@[simp] theorem State.used_raise (bits : BitVec 32) (g : LegId) : (s.raise bits).used g = s.used g := rfl
@[simp] theorem State.width_raise (bits : BitVec 32) (g : LegId) : (s.raise bits).width g = s.width g := rfl
@[simp] theorem State.fedBy_raise (bits : BitVec 32) (i : LaneId) : (s.raise bits).fedBy i = s.fedBy i := rfl
@[simp] theorem State.lineOf_raise (bits : BitVec 32) (y : LaneSide) : (s.raise bits).lineOf y = s.lineOf y := rfl
@[simp] theorem State.legOf_raise (bits : BitVec 32) (y : LaneSide) : (s.raise bits).legOf y = s.legOf y := rfl
@[simp] theorem State.sideOf_raise (bits : BitVec 32) (i : LaneId) (d : Side) : (s.raise bits).sideOf i d = s.sideOf i d := rfl
@[simp] theorem State.memberSides_raise (bits : BitVec 32) (g : LegId) (d : Side) : (s.raise bits).memberSides g d = s.memberSides g d := rfl
@[simp] theorem State.allMemberSides_raise (bits : BitVec 32) (g : LegId) : (s.raise bits).allMemberSides g = s.allMemberSides g := rfl
@[simp] theorem State.polarity_raise (bits : BitVec 32) (y : LaneSide) : (s.raise bits).polarity y = s.polarity y := rfl
@[simp] theorem State.allCarry_raise (bits : BitVec 32) (g : LegId) : (s.raise bits).allCarry g = s.allCarry g := rfl
@[simp] theorem State.rateOf_raise (bits : BitVec 32) (y : LaneSide) : (s.raise bits).rateOf y = s.rateOf y := rfl
@[simp] theorem State.sidePresent_raise (bits : BitVec 32) (g : LegId) (d : Side) : (s.raise bits).sidePresent g d = s.sidePresent g d := rfl
@[simp] theorem State.allPresent_raise (bits : BitVec 32) (g : LegId) : (s.raise bits).allPresent g = s.allPresent g := rfl
@[simp] theorem State.allLocked_raise (bits : BitVec 32) (g : LegId) : (s.raise bits).allLocked g = s.allLocked g := rfl
@[simp] theorem State.slotByte_raise (bits : BitVec 32) (m : SlotId) (j : Nat) : (s.raise bits).slotByte m j = s.slotByte m j := rfl
@[simp] theorem State.transmit_raise (bits : BitVec 32) (y : LaneSide) : (s.raise bits).transmit y = s.transmit y := rfl
@[simp] theorem State.lane_lower (bits : BitVec 32) (y : LaneSide) : (s.lower bits).lane y = s.lane y := rfl
@[simp] theorem State.leg_lower (bits : BitVec 32) (g : LegId) : (s.lower bits).leg g = s.leg g := rfl
@[simp] theorem State.engine_lower (bits : BitVec 32) (g : LegId) : (s.lower bits).engine g = s.engine g := rfl
@[simp] theorem State.slot_lower (bits : BitVec 32) (m : SlotId) : (s.lower bits).slot m = s.slot m := rfl
@[simp] theorem State.page_lower (bits : BitVec 32) (w : PageId) : (s.lower bits).page w = s.page w := rfl
@[simp] theorem State.entry_lower (bits : BitVec 32) (i : LaneId) : (s.lower bits).entry i = s.entry i := rfl
@[simp] theorem State.members_lower (bits : BitVec 32) (g : LegId) : (s.lower bits).members g = s.members g := rfl
@[simp] theorem State.used_lower (bits : BitVec 32) (g : LegId) : (s.lower bits).used g = s.used g := rfl
@[simp] theorem State.width_lower (bits : BitVec 32) (g : LegId) : (s.lower bits).width g = s.width g := rfl
@[simp] theorem State.fedBy_lower (bits : BitVec 32) (i : LaneId) : (s.lower bits).fedBy i = s.fedBy i := rfl
@[simp] theorem State.lineOf_lower (bits : BitVec 32) (y : LaneSide) : (s.lower bits).lineOf y = s.lineOf y := rfl
@[simp] theorem State.legOf_lower (bits : BitVec 32) (y : LaneSide) : (s.lower bits).legOf y = s.legOf y := rfl
@[simp] theorem State.sideOf_lower (bits : BitVec 32) (i : LaneId) (d : Side) : (s.lower bits).sideOf i d = s.sideOf i d := rfl
@[simp] theorem State.memberSides_lower (bits : BitVec 32) (g : LegId) (d : Side) : (s.lower bits).memberSides g d = s.memberSides g d := rfl
@[simp] theorem State.allMemberSides_lower (bits : BitVec 32) (g : LegId) : (s.lower bits).allMemberSides g = s.allMemberSides g := rfl
@[simp] theorem State.polarity_lower (bits : BitVec 32) (y : LaneSide) : (s.lower bits).polarity y = s.polarity y := rfl
@[simp] theorem State.allCarry_lower (bits : BitVec 32) (g : LegId) : (s.lower bits).allCarry g = s.allCarry g := rfl
@[simp] theorem State.rateOf_lower (bits : BitVec 32) (y : LaneSide) : (s.lower bits).rateOf y = s.rateOf y := rfl
@[simp] theorem State.sidePresent_lower (bits : BitVec 32) (g : LegId) (d : Side) : (s.lower bits).sidePresent g d = s.sidePresent g d := rfl
@[simp] theorem State.allPresent_lower (bits : BitVec 32) (g : LegId) : (s.lower bits).allPresent g = s.allPresent g := rfl
@[simp] theorem State.allLocked_lower (bits : BitVec 32) (g : LegId) : (s.lower bits).allLocked g = s.allLocked g := rfl
@[simp] theorem State.slotByte_lower (bits : BitVec 32) (m : SlotId) (j : Nat) : (s.lower bits).slotByte m j = s.slotByte m j := rfl
@[simp] theorem State.transmit_lower (bits : BitVec 32) (y : LaneSide) : (s.lower bits).transmit y = s.transmit y := rfl
@[simp] theorem State.lane_legNotice (l : LegId) (y : LaneSide) : (s.legNotice l).lane y = s.lane y := rfl
@[simp] theorem State.leg_legNotice (l : LegId) (g : LegId) : (s.legNotice l).leg g = s.leg g := rfl
@[simp] theorem State.engine_legNotice (l : LegId) (g : LegId) : (s.legNotice l).engine g = s.engine g := rfl
@[simp] theorem State.slot_legNotice (l : LegId) (m : SlotId) : (s.legNotice l).slot m = s.slot m := rfl
@[simp] theorem State.page_legNotice (l : LegId) (w : PageId) : (s.legNotice l).page w = s.page w := rfl
@[simp] theorem State.entry_legNotice (l : LegId) (i : LaneId) : (s.legNotice l).entry i = s.entry i := rfl
@[simp] theorem State.members_legNotice (l : LegId) (g : LegId) : (s.legNotice l).members g = s.members g := rfl
@[simp] theorem State.used_legNotice (l : LegId) (g : LegId) : (s.legNotice l).used g = s.used g := rfl
@[simp] theorem State.width_legNotice (l : LegId) (g : LegId) : (s.legNotice l).width g = s.width g := rfl
@[simp] theorem State.fedBy_legNotice (l : LegId) (i : LaneId) : (s.legNotice l).fedBy i = s.fedBy i := rfl
@[simp] theorem State.lineOf_legNotice (l : LegId) (y : LaneSide) : (s.legNotice l).lineOf y = s.lineOf y := rfl
@[simp] theorem State.legOf_legNotice (l : LegId) (y : LaneSide) : (s.legNotice l).legOf y = s.legOf y := rfl
@[simp] theorem State.sideOf_legNotice (l : LegId) (i : LaneId) (d : Side) : (s.legNotice l).sideOf i d = s.sideOf i d := rfl
@[simp] theorem State.memberSides_legNotice (l : LegId) (g : LegId) (d : Side) : (s.legNotice l).memberSides g d = s.memberSides g d := rfl
@[simp] theorem State.allMemberSides_legNotice (l : LegId) (g : LegId) : (s.legNotice l).allMemberSides g = s.allMemberSides g := rfl
@[simp] theorem State.polarity_legNotice (l : LegId) (y : LaneSide) : (s.legNotice l).polarity y = s.polarity y := rfl
@[simp] theorem State.allCarry_legNotice (l : LegId) (g : LegId) : (s.legNotice l).allCarry g = s.allCarry g := rfl
@[simp] theorem State.rateOf_legNotice (l : LegId) (y : LaneSide) : (s.legNotice l).rateOf y = s.rateOf y := rfl
@[simp] theorem State.sidePresent_legNotice (l : LegId) (g : LegId) (d : Side) : (s.legNotice l).sidePresent g d = s.sidePresent g d := rfl
@[simp] theorem State.allPresent_legNotice (l : LegId) (g : LegId) : (s.legNotice l).allPresent g = s.allPresent g := rfl
@[simp] theorem State.allLocked_legNotice (l : LegId) (g : LegId) : (s.legNotice l).allLocked g = s.allLocked g := rfl
@[simp] theorem State.slotByte_legNotice (l : LegId) (m : SlotId) (j : Nat) : (s.legNotice l).slotByte m j = s.slotByte m j := rfl
@[simp] theorem State.transmit_legNotice (l : LegId) (y : LaneSide) : (s.legNotice l).transmit y = s.transmit y := rfl
@[simp] theorem State.lane_becomeReady (y : LaneSide) : (s.becomeReady).lane y = s.lane y := rfl
@[simp] theorem State.leg_becomeReady (g : LegId) : (s.becomeReady).leg g = s.leg g := rfl
@[simp] theorem State.engine_becomeReady (g : LegId) : (s.becomeReady).engine g = s.engine g := rfl
@[simp] theorem State.slot_becomeReady (m : SlotId) : (s.becomeReady).slot m = s.slot m := rfl
@[simp] theorem State.page_becomeReady (w : PageId) : (s.becomeReady).page w = s.page w := rfl
@[simp] theorem State.entry_becomeReady (i : LaneId) : (s.becomeReady).entry i = s.entry i := rfl
@[simp] theorem State.members_becomeReady (g : LegId) : (s.becomeReady).members g = s.members g := rfl
@[simp] theorem State.used_becomeReady (g : LegId) : (s.becomeReady).used g = s.used g := rfl
@[simp] theorem State.width_becomeReady (g : LegId) : (s.becomeReady).width g = s.width g := rfl
@[simp] theorem State.fedBy_becomeReady (i : LaneId) : (s.becomeReady).fedBy i = s.fedBy i := rfl
@[simp] theorem State.lineOf_becomeReady (y : LaneSide) : (s.becomeReady).lineOf y = s.lineOf y := rfl
@[simp] theorem State.legOf_becomeReady (y : LaneSide) : (s.becomeReady).legOf y = s.legOf y := rfl
@[simp] theorem State.sideOf_becomeReady (i : LaneId) (d : Side) : (s.becomeReady).sideOf i d = s.sideOf i d := rfl
@[simp] theorem State.memberSides_becomeReady (g : LegId) (d : Side) : (s.becomeReady).memberSides g d = s.memberSides g d := rfl
@[simp] theorem State.allMemberSides_becomeReady (g : LegId) : (s.becomeReady).allMemberSides g = s.allMemberSides g := rfl
@[simp] theorem State.polarity_becomeReady (y : LaneSide) : (s.becomeReady).polarity y = s.polarity y := rfl
@[simp] theorem State.allCarry_becomeReady (g : LegId) : (s.becomeReady).allCarry g = s.allCarry g := rfl
@[simp] theorem State.rateOf_becomeReady (y : LaneSide) : (s.becomeReady).rateOf y = s.rateOf y := rfl
@[simp] theorem State.sidePresent_becomeReady (g : LegId) (d : Side) : (s.becomeReady).sidePresent g d = s.sidePresent g d := rfl
@[simp] theorem State.allPresent_becomeReady (g : LegId) : (s.becomeReady).allPresent g = s.allPresent g := rfl
@[simp] theorem State.allLocked_becomeReady (g : LegId) : (s.becomeReady).allLocked g = s.allLocked g := rfl
@[simp] theorem State.slotByte_becomeReady (m : SlotId) (j : Nat) : (s.becomeReady).slotByte m j = s.slotByte m j := rfl
@[simp] theorem State.transmit_becomeReady (y : LaneSide) : (s.becomeReady).transmit y = s.transmit y := rfl
@[simp] theorem State.lane_writeEnable (k : Nat) (v : Byte) (y : LaneSide) : (s.writeEnable k v).lane y = s.lane y := rfl
@[simp] theorem State.leg_writeEnable (k : Nat) (v : Byte) (g : LegId) : (s.writeEnable k v).leg g = s.leg g := rfl
@[simp] theorem State.engine_writeEnable (k : Nat) (v : Byte) (g : LegId) : (s.writeEnable k v).engine g = s.engine g := rfl
@[simp] theorem State.slot_writeEnable (k : Nat) (v : Byte) (m : SlotId) : (s.writeEnable k v).slot m = s.slot m := rfl
@[simp] theorem State.page_writeEnable (k : Nat) (v : Byte) (w : PageId) : (s.writeEnable k v).page w = s.page w := rfl
@[simp] theorem State.entry_writeEnable (k : Nat) (v : Byte) (i : LaneId) : (s.writeEnable k v).entry i = s.entry i := rfl
@[simp] theorem State.members_writeEnable (k : Nat) (v : Byte) (g : LegId) : (s.writeEnable k v).members g = s.members g := rfl
@[simp] theorem State.used_writeEnable (k : Nat) (v : Byte) (g : LegId) : (s.writeEnable k v).used g = s.used g := rfl
@[simp] theorem State.width_writeEnable (k : Nat) (v : Byte) (g : LegId) : (s.writeEnable k v).width g = s.width g := rfl
@[simp] theorem State.fedBy_writeEnable (k : Nat) (v : Byte) (i : LaneId) : (s.writeEnable k v).fedBy i = s.fedBy i := rfl
@[simp] theorem State.lineOf_writeEnable (k : Nat) (v : Byte) (y : LaneSide) : (s.writeEnable k v).lineOf y = s.lineOf y := rfl
@[simp] theorem State.legOf_writeEnable (k : Nat) (v : Byte) (y : LaneSide) : (s.writeEnable k v).legOf y = s.legOf y := rfl
@[simp] theorem State.sideOf_writeEnable (k : Nat) (v : Byte) (i : LaneId) (d : Side) : (s.writeEnable k v).sideOf i d = s.sideOf i d := rfl
@[simp] theorem State.memberSides_writeEnable (k : Nat) (v : Byte) (g : LegId) (d : Side) : (s.writeEnable k v).memberSides g d = s.memberSides g d := rfl
@[simp] theorem State.allMemberSides_writeEnable (k : Nat) (v : Byte) (g : LegId) : (s.writeEnable k v).allMemberSides g = s.allMemberSides g := rfl
@[simp] theorem State.polarity_writeEnable (k : Nat) (v : Byte) (y : LaneSide) : (s.writeEnable k v).polarity y = s.polarity y := rfl
@[simp] theorem State.allCarry_writeEnable (k : Nat) (v : Byte) (g : LegId) : (s.writeEnable k v).allCarry g = s.allCarry g := rfl
@[simp] theorem State.rateOf_writeEnable (k : Nat) (v : Byte) (y : LaneSide) : (s.writeEnable k v).rateOf y = s.rateOf y := rfl
@[simp] theorem State.sidePresent_writeEnable (k : Nat) (v : Byte) (g : LegId) (d : Side) : (s.writeEnable k v).sidePresent g d = s.sidePresent g d := rfl
@[simp] theorem State.allPresent_writeEnable (k : Nat) (v : Byte) (g : LegId) : (s.writeEnable k v).allPresent g = s.allPresent g := rfl
@[simp] theorem State.allLocked_writeEnable (k : Nat) (v : Byte) (g : LegId) : (s.writeEnable k v).allLocked g = s.allLocked g := rfl
@[simp] theorem State.slotByte_writeEnable (k : Nat) (v : Byte) (m : SlotId) (j : Nat) : (s.writeEnable k v).slotByte m j = s.slotByte m j := rfl
@[simp] theorem State.transmit_writeEnable (k : Nat) (v : Byte) (y : LaneSide) : (s.writeEnable k v).transmit y = s.transmit y := rfl
@[simp] theorem State.lane_endAwaited (n : SlotId) (result : List Byte) (st : Status) (y : LaneSide) : (s.endAwaited n result st).lane y = s.lane y := rfl
@[simp] theorem State.leg_endAwaited (n : SlotId) (result : List Byte) (st : Status) (g : LegId) : (s.endAwaited n result st).leg g = s.leg g := rfl
@[simp] theorem State.engine_endAwaited (n : SlotId) (result : List Byte) (st : Status) (g : LegId) : (s.endAwaited n result st).engine g = s.engine g := rfl
@[simp] theorem State.page_endAwaited (n : SlotId) (result : List Byte) (st : Status) (w : PageId) : (s.endAwaited n result st).page w = s.page w := rfl
@[simp] theorem State.entry_endAwaited (n : SlotId) (result : List Byte) (st : Status) (i : LaneId) : (s.endAwaited n result st).entry i = s.entry i := rfl
@[simp] theorem State.members_endAwaited (n : SlotId) (result : List Byte) (st : Status) (g : LegId) : (s.endAwaited n result st).members g = s.members g := rfl
@[simp] theorem State.used_endAwaited (n : SlotId) (result : List Byte) (st : Status) (g : LegId) : (s.endAwaited n result st).used g = s.used g := rfl
@[simp] theorem State.width_endAwaited (n : SlotId) (result : List Byte) (st : Status) (g : LegId) : (s.endAwaited n result st).width g = s.width g := rfl
@[simp] theorem State.fedBy_endAwaited (n : SlotId) (result : List Byte) (st : Status) (i : LaneId) : (s.endAwaited n result st).fedBy i = s.fedBy i := rfl
@[simp] theorem State.lineOf_endAwaited (n : SlotId) (result : List Byte) (st : Status) (y : LaneSide) : (s.endAwaited n result st).lineOf y = s.lineOf y := rfl
@[simp] theorem State.legOf_endAwaited (n : SlotId) (result : List Byte) (st : Status) (y : LaneSide) : (s.endAwaited n result st).legOf y = s.legOf y := rfl
@[simp] theorem State.sideOf_endAwaited (n : SlotId) (result : List Byte) (st : Status) (i : LaneId) (d : Side) : (s.endAwaited n result st).sideOf i d = s.sideOf i d := rfl
@[simp] theorem State.memberSides_endAwaited (n : SlotId) (result : List Byte) (st : Status) (g : LegId) (d : Side) : (s.endAwaited n result st).memberSides g d = s.memberSides g d := rfl
@[simp] theorem State.allMemberSides_endAwaited (n : SlotId) (result : List Byte) (st : Status) (g : LegId) : (s.endAwaited n result st).allMemberSides g = s.allMemberSides g := rfl
@[simp] theorem State.polarity_endAwaited (n : SlotId) (result : List Byte) (st : Status) (y : LaneSide) : (s.endAwaited n result st).polarity y = s.polarity y := rfl
@[simp] theorem State.allCarry_endAwaited (n : SlotId) (result : List Byte) (st : Status) (g : LegId) : (s.endAwaited n result st).allCarry g = s.allCarry g := rfl
@[simp] theorem State.rateOf_endAwaited (n : SlotId) (result : List Byte) (st : Status) (y : LaneSide) : (s.endAwaited n result st).rateOf y = s.rateOf y := rfl
@[simp] theorem State.sidePresent_endAwaited (n : SlotId) (result : List Byte) (st : Status) (g : LegId) (d : Side) : (s.endAwaited n result st).sidePresent g d = s.sidePresent g d := rfl
@[simp] theorem State.allPresent_endAwaited (n : SlotId) (result : List Byte) (st : Status) (g : LegId) : (s.endAwaited n result st).allPresent g = s.allPresent g := rfl
@[simp] theorem State.allLocked_endAwaited (n : SlotId) (result : List Byte) (st : Status) (g : LegId) : (s.endAwaited n result st).allLocked g = s.allLocked g := rfl
@[simp] theorem State.transmit_endAwaited (n : SlotId) (result : List Byte) (st : Status) (y : LaneSide) : (s.endAwaited n result st).transmit y = s.transmit y := rfl

/-! ### Several lane sides -/

@[simp] theorem State.modLanes_pending (xs : List LaneSide) (f : LaneState → LaneState) :
    (s.modLanes xs f).pending = s.pending := by
  induction xs generalizing s with
  | nil => rfl
  | cons x xs ih => exact ih (s.modLane x f)

@[simp] theorem State.modLanes_resetHeld (xs : List LaneSide) (f : LaneState → LaneState) :
    (s.modLanes xs f).resetHeld = s.resetHeld := by
  induction xs generalizing s with
  | nil => rfl
  | cons x xs ih => exact ih (s.modLane x f)

@[simp] theorem State.modLanes_lowpwr (xs : List LaneSide) (f : LaneState → LaneState) :
    (s.modLanes xs f).lowpwr = s.lowpwr := by
  induction xs generalizing s with
  | nil => rfl
  | cons x xs ih => exact ih (s.modLane x f)

@[simp] theorem State.modLanes_straps (xs : List LaneSide) (f : LaneState → LaneState) :
    (s.modLanes xs f).straps = s.straps := by
  induction xs generalizing s with
  | nil => rfl
  | cons x xs ih => exact ih (s.modLane x f)

@[simp] theorem State.modLanes_requested (xs : List LaneSide) (f : LaneState → LaneState) :
    (s.modLanes xs f).requested = s.requested := by
  induction xs generalizing s with
  | nil => rfl
  | cons x xs ih => exact ih (s.modLane x f)

@[simp] theorem State.modLanes_effective (xs : List LaneSide) (f : LaneState → LaneState) :
    (s.modLanes xs f).effective = s.effective := by
  induction xs generalizing s with
  | nil => rfl
  | cons x xs ih => exact ih (s.modLane x f)

@[simp] theorem State.modLanes_riseTimer (xs : List LaneSide) (f : LaneState → LaneState) :
    (s.modLanes xs f).riseTimer = s.riseTimer := by
  induction xs generalizing s with
  | nil => rfl
  | cons x xs ih => exact ih (s.modLane x f)

@[simp] theorem State.modLanes_device (xs : List LaneSide) (f : LaneState → LaneState) :
    (s.modLanes xs f).device = s.device := by
  induction xs generalizing s with
  | nil => rfl
  | cons x xs ih => exact ih (s.modLane x f)

@[simp] theorem State.modLanes_initTimer (xs : List LaneSide) (f : LaneState → LaneState) :
    (s.modLanes xs f).initTimer = s.initTimer := by
  induction xs generalizing s with
  | nil => rfl
  | cons x xs ih => exact ih (s.modLane x f)

@[simp] theorem State.modLanes_initByPowerOn (xs : List LaneSide) (f : LaneState → LaneState) :
    (s.modLanes xs f).initByPowerOn = s.initByPowerOn := by
  induction xs generalizing s with
  | nil => rfl
  | cons x xs ih => exact ih (s.modLane x f)

@[simp] theorem State.modLanes_resetTimer (xs : List LaneSide) (f : LaneState → LaneState) :
    (s.modLanes xs f).resetTimer = s.resetTimer := by
  induction xs generalizing s with
  | nil => rfl
  | cons x xs ih => exact ih (s.modLane x f)

@[simp] theorem State.modLanes_lastCause (xs : List LaneSide) (f : LaneState → LaneState) :
    (s.modLanes xs f).lastCause = s.lastCause := by
  induction xs generalizing s with
  | nil => rfl
  | cons x xs ih => exact ih (s.modLane x f)

@[simp] theorem State.modLanes_releaseCause (xs : List LaneSide) (f : LaneState → LaneState) :
    (s.modLanes xs f).releaseCause = s.releaseCause := by
  induction xs generalizing s with
  | nil => rfl
  | cons x xs ih => exact ih (s.modLane x f)

@[simp] theorem State.modLanes_map (xs : List LaneSide) (f : LaneState → LaneState) :
    (s.modLanes xs f).map = s.map := by
  induction xs generalizing s with
  | nil => rfl
  | cons x xs ih => exact ih (s.modLane x f)

@[simp] theorem State.modLanes_legs (xs : List LaneSide) (f : LaneState → LaneState) :
    (s.modLanes xs f).legs = s.legs := by
  induction xs generalizing s with
  | nil => rfl
  | cons x xs ih => exact ih (s.modLane x f)

@[simp] theorem State.modLanes_engines (xs : List LaneSide) (f : LaneState → LaneState) :
    (s.modLanes xs f).engines = s.engines := by
  induction xs generalizing s with
  | nil => rfl
  | cons x xs ih => exact ih (s.modLane x f)

@[simp] theorem State.modLanes_deviceQueue (xs : List LaneSide) (f : LaneState → LaneState) :
    (s.modLanes xs f).deviceQueue = s.deviceQueue := by
  induction xs generalizing s with
  | nil => rfl
  | cons x xs ih => exact ih (s.modLane x f)

@[simp] theorem State.modLanes_powerWait (xs : List LaneSide) (f : LaneState → LaneState) :
    (s.modLanes xs f).powerWait = s.powerWait := by
  induction xs generalizing s with
  | nil => rfl
  | cons x xs ih => exact ih (s.modLane x f)

@[simp] theorem State.modLanes_handOver (xs : List LaneSide) (f : LaneState → LaneState) :
    (s.modLanes xs f).handOver = s.handOver := by
  induction xs generalizing s with
  | nil => rfl
  | cons x xs ih => exact ih (s.modLane x f)

@[simp] theorem State.modLanes_owed (xs : List LaneSide) (f : LaneState → LaneState) :
    (s.modLanes xs f).owed = s.owed := by
  induction xs generalizing s with
  | nil => rfl
  | cons x xs ih => exact ih (s.modLane x f)

@[simp] theorem State.modLanes_slots (xs : List LaneSide) (f : LaneState → LaneState) :
    (s.modLanes xs f).slots = s.slots := by
  induction xs generalizing s with
  | nil => rfl
  | cons x xs ih => exact ih (s.modLane x f)

@[simp] theorem State.modLanes_pages (xs : List LaneSide) (f : LaneState → LaneState) :
    (s.modLanes xs f).pages = s.pages := by
  induction xs generalizing s with
  | nil => rfl
  | cons x xs ih => exact ih (s.modLane x f)

@[simp] theorem State.modLanes_mem (xs : List LaneSide) (f : LaneState → LaneState) :
    (s.modLanes xs f).mem = s.mem := by
  induction xs generalizing s with
  | nil => rfl
  | cons x xs ih => exact ih (s.modLane x f)

@[simp] theorem State.modLanes_summary (xs : List LaneSide) (f : LaneState → LaneState) :
    (s.modLanes xs f).summary = s.summary := by
  induction xs generalizing s with
  | nil => rfl
  | cons x xs ih => exact ih (s.modLane x f)

@[simp] theorem State.modLanes_enables (xs : List LaneSide) (f : LaneState → LaneState) :
    (s.modLanes xs f).enables = s.enables := by
  induction xs generalizing s with
  | nil => rfl
  | cons x xs ih => exact ih (s.modLane x f)

@[simp] theorem State.modLanes_latchedMode (xs : List LaneSide) (f : LaneState → LaneState) :
    (s.modLanes xs f).latchedMode = s.latchedMode := by
  induction xs generalizing s with
  | nil => rfl
  | cons x xs ih => exact ih (s.modLane x f)

@[simp] theorem State.modLanes_holdIntake (xs : List LaneSide) (f : LaneState → LaneState) :
    (s.modLanes xs f).holdIntake = s.holdIntake := by
  induction xs generalizing s with
  | nil => rfl
  | cons x xs ih => exact ih (s.modLane x f)

@[simp] theorem State.modLanes_latchedLine (xs : List LaneSide) (f : LaneState → LaneState) :
    (s.modLanes xs f).latchedLine = s.latchedLine := by
  induction xs generalizing s with
  | nil => rfl
  | cons x xs ih => exact ih (s.modLane x f)

@[simp] theorem State.modLanes_faultRecord (xs : List LaneSide) (f : LaneState → LaneState) :
    (s.modLanes xs f).faultRecord = s.faultRecord := by
  induction xs generalizing s with
  | nil => rfl
  | cons x xs ih => exact ih (s.modLane x f)

@[simp] theorem State.modLanes_laterFaults (xs : List LaneSide) (f : LaneState → LaneState) :
    (s.modLanes xs f).laterFaults = s.laterFaults := by
  induction xs generalizing s with
  | nil => rfl
  | cons x xs ih => exact ih (s.modLane x f)

@[simp] theorem State.modLanes_offset (xs : List LaneSide) (f : LaneState → LaneState) :
    (s.modLanes xs f).offset = s.offset := by
  induction xs generalizing s with
  | nil => rfl
  | cons x xs ih => exact ih (s.modLane x f)

@[simp] theorem State.modLanes_writeOpen (xs : List LaneSide) (f : LaneState → LaneState) :
    (s.modLanes xs f).writeOpen = s.writeOpen := by
  induction xs generalizing s with
  | nil => rfl
  | cons x xs ih => exact ih (s.modLane x f)

@[simp] theorem State.modLanes_readOpen (xs : List LaneSide) (f : LaneState → LaneState) :
    (s.modLanes xs f).readOpen = s.readOpen := by
  induction xs generalizing s with
  | nil => rfl
  | cons x xs ih => exact ih (s.modLane x f)

@[simp] theorem State.modLanes_acknowledged (xs : List LaneSide) (f : LaneState → LaneState) :
    (s.modLanes xs f).acknowledged = s.acknowledged := by
  induction xs generalizing s with
  | nil => rfl
  | cons x xs ih => exact ih (s.modLane x f)

@[simp] theorem State.modLanes_readData (xs : List LaneSide) (f : LaneState → LaneState) :
    (s.modLanes xs f).readData = s.readData := by
  induction xs generalizing s with
  | nil => rfl
  | cons x xs ih => exact ih (s.modLane x f)

@[simp] theorem State.modLanes_freeCount (xs : List LaneSide) (f : LaneState → LaneState) :
    (s.modLanes xs f).freeCount = s.freeCount := by
  induction xs generalizing s with
  | nil => rfl
  | cons x xs ih => exact ih (s.modLane x f)

/-- Changing several lane sides is one change after another. -/
theorem State.modLanes_cons (x : LaneSide) (xs : List LaneSide) (f : LaneState → LaneState) :
    s.modLanes (x :: xs) f = (s.modLane x f).modLanes xs f := rfl

/-- A lane side that is not in the list keeps. -/
theorem State.lane_modLanes_of_notMem (xs : List LaneSide) (y : LaneSide) (f : LaneState → LaneState) (h : y ∉ xs) :
    (s.modLanes xs f).lane y = s.lane y := by
  induction xs generalizing s with
  | nil => rfl
  | cons x xs ih =>
    simp only [List.mem_cons, not_or] at h
    rw [State.modLanes_cons, ih _ h.2, State.lane_modLane, if_neg h.1]

/-- A lane side that is in a list without repeats is changed once. -/
theorem State.lane_modLanes_of_mem (xs : List LaneSide) (y : LaneSide) (f : LaneState → LaneState) (h : y ∈ xs)
    (nd : xs.Nodup) : (s.modLanes xs f).lane y = f (s.lane y) := by
  induction xs generalizing s with
  | nil => simp at h
  | cons x xs ih =>
    rw [State.modLanes_cons]
    have hx := (List.nodup_cons.mp nd).1
    rcases List.mem_cons.mp h with rfl | hy
    · rw [State.lane_modLanes_of_notMem _ _ _ _ hx, State.lane_modLane_self]
    · rw [ih _ hy (List.nodup_cons.mp nd).2, State.lane_modLane, if_neg]
      intro e
      exact hx (e ▸ hy)

/-- A property that the change keeps holds of every lane side afterwards. -/
theorem State.lane_modLanes_induct (P : LaneSide → LaneState → Prop) (xs : List LaneSide) (f : LaneState → LaneState)
    (hf : ∀ x ∈ xs, ∀ v, P x v → P x (f v)) (h : ∀ y, P y (s.lane y)) (y : LaneSide) : P y ((s.modLanes xs f).lane y) := by
  induction xs generalizing s with
  | nil => exact h y
  | cons x xs ih =>
    rw [State.modLanes_cons]
    refine ih _ (fun z hz => hf z (List.mem_cons_of_mem _ hz)) (fun z => ?_)
    rw [State.lane_modLane]
    split
    · subst_vars; exact hf _ (by simp) _ (h _)
    · exact h z

@[simp] theorem State.leg_modLanes (xs : List LaneSide) (f : LaneState → LaneState) (g : LegId) :
    (s.modLanes xs f).leg g = s.leg g := by
  induction xs generalizing s with
  | nil => rfl
  | cons x xs ih => exact ih (s.modLane x f)

@[simp] theorem State.engine_modLanes (xs : List LaneSide) (f : LaneState → LaneState) (g : LegId) :
    (s.modLanes xs f).engine g = s.engine g := by
  induction xs generalizing s with
  | nil => rfl
  | cons x xs ih => exact ih (s.modLane x f)

@[simp] theorem State.slot_modLanes (xs : List LaneSide) (f : LaneState → LaneState) (m : SlotId) :
    (s.modLanes xs f).slot m = s.slot m := by
  induction xs generalizing s with
  | nil => rfl
  | cons x xs ih => exact ih (s.modLane x f)

@[simp] theorem State.page_modLanes (xs : List LaneSide) (f : LaneState → LaneState) (w : PageId) :
    (s.modLanes xs f).page w = s.page w := by
  induction xs generalizing s with
  | nil => rfl
  | cons x xs ih => exact ih (s.modLane x f)

@[simp] theorem State.entry_modLanes (xs : List LaneSide) (f : LaneState → LaneState) (i : LaneId) :
    (s.modLanes xs f).entry i = s.entry i := by
  induction xs generalizing s with
  | nil => rfl
  | cons x xs ih => exact ih (s.modLane x f)

@[simp] theorem State.members_modLanes (xs : List LaneSide) (f : LaneState → LaneState) (g : LegId) :
    (s.modLanes xs f).members g = s.members g := by
  induction xs generalizing s with
  | nil => rfl
  | cons x xs ih => exact ih (s.modLane x f)

@[simp] theorem State.used_modLanes (xs : List LaneSide) (f : LaneState → LaneState) (g : LegId) :
    (s.modLanes xs f).used g = s.used g := by
  induction xs generalizing s with
  | nil => rfl
  | cons x xs ih => exact ih (s.modLane x f)

@[simp] theorem State.width_modLanes (xs : List LaneSide) (f : LaneState → LaneState) (g : LegId) :
    (s.modLanes xs f).width g = s.width g := by
  induction xs generalizing s with
  | nil => rfl
  | cons x xs ih => exact ih (s.modLane x f)

@[simp] theorem State.fedBy_modLanes (xs : List LaneSide) (f : LaneState → LaneState) (i : LaneId) :
    (s.modLanes xs f).fedBy i = s.fedBy i := by
  induction xs generalizing s with
  | nil => rfl
  | cons x xs ih => exact ih (s.modLane x f)

@[simp] theorem State.lineOf_modLanes (xs : List LaneSide) (f : LaneState → LaneState) (y : LaneSide) :
    (s.modLanes xs f).lineOf y = s.lineOf y := by
  induction xs generalizing s with
  | nil => rfl
  | cons x xs ih => exact ih (s.modLane x f)

@[simp] theorem State.legOf_modLanes (xs : List LaneSide) (f : LaneState → LaneState) (y : LaneSide) :
    (s.modLanes xs f).legOf y = s.legOf y := by
  induction xs generalizing s with
  | nil => rfl
  | cons x xs ih => exact ih (s.modLane x f)

@[simp] theorem State.sideOf_modLanes (xs : List LaneSide) (f : LaneState → LaneState) (i : LaneId) (d : Side) :
    (s.modLanes xs f).sideOf i d = s.sideOf i d := by
  induction xs generalizing s with
  | nil => rfl
  | cons x xs ih => exact ih (s.modLane x f)

@[simp] theorem State.memberSides_modLanes (xs : List LaneSide) (f : LaneState → LaneState) (g : LegId) (d : Side) :
    (s.modLanes xs f).memberSides g d = s.memberSides g d := by
  induction xs generalizing s with
  | nil => rfl
  | cons x xs ih => exact ih (s.modLane x f)

@[simp] theorem State.allMemberSides_modLanes (xs : List LaneSide) (f : LaneState → LaneState) (g : LegId) :
    (s.modLanes xs f).allMemberSides g = s.allMemberSides g := by
  induction xs generalizing s with
  | nil => rfl
  | cons x xs ih => exact ih (s.modLane x f)

@[simp] theorem State.polarity_modLanes (xs : List LaneSide) (f : LaneState → LaneState) (y : LaneSide) :
    (s.modLanes xs f).polarity y = s.polarity y := by
  induction xs generalizing s with
  | nil => rfl
  | cons x xs ih => exact ih (s.modLane x f)

@[simp] theorem State.allCarry_modLanes (xs : List LaneSide) (f : LaneState → LaneState) (g : LegId) :
    (s.modLanes xs f).allCarry g = s.allCarry g := by
  induction xs generalizing s with
  | nil => rfl
  | cons x xs ih => exact ih (s.modLane x f)

@[simp] theorem State.rateOf_modLanes (xs : List LaneSide) (f : LaneState → LaneState) (y : LaneSide) :
    (s.modLanes xs f).rateOf y = s.rateOf y := by
  induction xs generalizing s with
  | nil => rfl
  | cons x xs ih => exact ih (s.modLane x f)

@[simp] theorem State.slotByte_modLanes (xs : List LaneSide) (f : LaneState → LaneState) (m : SlotId) (j : Nat) :
    (s.modLanes xs f).slotByte m j = s.slotByte m j := by
  induction xs generalizing s with
  | nil => rfl
  | cons x xs ih => exact ih (s.modLane x f)

@[simp] theorem State.transmit_modLanes (xs : List LaneSide) (f : LaneState → LaneState) (y : LaneSide) :
    (s.modLanes xs f).transmit y = s.transmit y := by
  induction xs generalizing s with
  | nil => rfl
  | cons x xs ih => exact ih (s.modLane x f)

end Sys2Proof.Machine
end

