-- ==== Sys2Proof/Laws/Fixed.lean ====
section
/-! SUPPORT. What no event at a lane side, a leg, a queue, a task or the intake ever changes: the queue of commands, the
pins and straps, the device state, the checks put off, the settings of the attention unit and the line interface. One
lemma for each
operation; and what an event at a leg engine can do. -/

namespace Sys2Proof.Machine

/-- The registers that only power-on, RESET_L, the end of an initialization, an exchange reset and the management line
change; and the checks put off, which beside these only an event at a leg engine and an idle step change. -/
structure Fixed where
  pending : List Instr
  resetHeld : Bool
  lowpwr : Bool
  straps : StrapPins
  device : DeviceState
  initTimer : Option Nat
  initByPowerOn : Bool
  resetTimer : Option Nat
  lastCause : ResetCause
  releaseCause : ResetCause
  owed : List LegId
  enables : BitVec 32
  latchedMode : Bool
  holdIntake : Bool
  offset : BitVec 16
  writeOpen : Option WriteTransaction
  readOpen : Option ReadTransaction
  acknowledged : Bool
  readData : List Byte
deriving DecidableEq, Repr

/-- Those registers of a state. -/
def State.fixed (s : State) : Fixed :=
  ⟨s.pending, s.resetHeld, s.lowpwr, s.straps, s.device, s.initTimer, s.initByPowerOn, s.resetTimer, s.lastCause,
      s.releaseCause, s.owed, s.enables, s.latchedMode, s.holdIntake, s.offset, s.writeOpen, s.readOpen,
      s.acknowledged, s.readData⟩

/-- An update of the other registers keeps them. -/
@[simp] theorem State.fixed_update (s : State) (requested : RequestedPower) (effective : EffectivePower)
    (riseTimer : Option Nat) (map : Vector MapEntry 8) (lineSide : Vector LaneState 8)
    (switchSide : Vector LaneState 8) (legs : Vector Leg 4) (engines : Vector LegEngine 4) (deviceQueue : List Entry)
    (powerWait : List SlotId) (handOver : List SlotId) (slots : Vector Slot 12) (pages : Vector Page 4) (mem : Memory)
    (summary : BitVec 32) (latchedLine : Bool) (faultRecord : Option FaultRecord) (laterFaults : Nat)
    (freeCount : Nat) :
    ({ s with
        requested := requested, effective := effective, riseTimer := riseTimer, map := map, lineSide := lineSide,
        switchSide := switchSide, legs := legs, engines := engines, deviceQueue := deviceQueue,
        powerWait := powerWait, handOver := handOver, slots := slots, pages := pages, mem := mem, summary := summary,
        latchedLine := latchedLine, faultRecord := faultRecord, laterFaults := laterFaults, freeCount := freeCount } :
        State).fixed = s.fixed := rfl

theorem State.pending_of_fixed {s t : State} (h : t.fixed = s.fixed) : t.pending = s.pending :=
  congrArg Fixed.pending h
theorem State.resetHeld_of_fixed {s t : State} (h : t.fixed = s.fixed) : t.resetHeld = s.resetHeld :=
  congrArg Fixed.resetHeld h
theorem State.lowpwr_of_fixed {s t : State} (h : t.fixed = s.fixed) : t.lowpwr = s.lowpwr :=
  congrArg Fixed.lowpwr h
theorem State.straps_of_fixed {s t : State} (h : t.fixed = s.fixed) : t.straps = s.straps :=
  congrArg Fixed.straps h
theorem State.device_of_fixed {s t : State} (h : t.fixed = s.fixed) : t.device = s.device :=
  congrArg Fixed.device h
theorem State.initTimer_of_fixed {s t : State} (h : t.fixed = s.fixed) : t.initTimer = s.initTimer :=
  congrArg Fixed.initTimer h
theorem State.initByPowerOn_of_fixed {s t : State} (h : t.fixed = s.fixed) : t.initByPowerOn = s.initByPowerOn :=
  congrArg Fixed.initByPowerOn h
theorem State.resetTimer_of_fixed {s t : State} (h : t.fixed = s.fixed) : t.resetTimer = s.resetTimer :=
  congrArg Fixed.resetTimer h
theorem State.lastCause_of_fixed {s t : State} (h : t.fixed = s.fixed) : t.lastCause = s.lastCause :=
  congrArg Fixed.lastCause h
theorem State.releaseCause_of_fixed {s t : State} (h : t.fixed = s.fixed) : t.releaseCause = s.releaseCause :=
  congrArg Fixed.releaseCause h
theorem State.owed_of_fixed {s t : State} (h : t.fixed = s.fixed) : t.owed = s.owed :=
  congrArg Fixed.owed h
theorem State.enables_of_fixed {s t : State} (h : t.fixed = s.fixed) : t.enables = s.enables :=
  congrArg Fixed.enables h
theorem State.latchedMode_of_fixed {s t : State} (h : t.fixed = s.fixed) : t.latchedMode = s.latchedMode :=
  congrArg Fixed.latchedMode h
theorem State.holdIntake_of_fixed {s t : State} (h : t.fixed = s.fixed) : t.holdIntake = s.holdIntake :=
  congrArg Fixed.holdIntake h
theorem State.offset_of_fixed {s t : State} (h : t.fixed = s.fixed) : t.offset = s.offset :=
  congrArg Fixed.offset h
theorem State.writeOpen_of_fixed {s t : State} (h : t.fixed = s.fixed) : t.writeOpen = s.writeOpen :=
  congrArg Fixed.writeOpen h
theorem State.readOpen_of_fixed {s t : State} (h : t.fixed = s.fixed) : t.readOpen = s.readOpen :=
  congrArg Fixed.readOpen h
theorem State.acknowledged_of_fixed {s t : State} (h : t.fixed = s.fixed) : t.acknowledged = s.acknowledged :=
  congrArg Fixed.acknowledged h
theorem State.readData_of_fixed {s t : State} (h : t.fixed = s.fixed) : t.readData = s.readData :=
  congrArg Fixed.readData h

/-- A fold of steps that keep a value keeps it. -/
theorem foldl_keeps {α β : Type} (v : State → β) (step : State → α → State) (h : ∀ s a, v (step s a) = v s)
    (xs : List α)
    (s : State) : v (xs.foldl step s) = v s := by
  induction xs generalizing s with
  | nil => rfl
  | cons a xs ih => rw [List.foldl_cons, ih, h]

@[simp] theorem State.modLane_fixed (s : State) (x : LaneSide) (f : LaneState → LaneState) :
    (State.modLane s x f).fixed = s.fixed :=
  rfl
@[simp] theorem State.modLanes_fixed (s : State) (xs : List LaneSide) (f : LaneState → LaneState) :
    (State.modLanes s xs f).fixed = s.fixed :=
  foldl_keeps State.fixed _ (fun s x => State.modLane_fixed s x f) xs s

@[simp] theorem State.modAllLanes_fixed (s : State) (f : LaneState → LaneState) :
    (State.modAllLanes s f).fixed = s.fixed :=
  rfl
@[simp] theorem State.modLeg_fixed (s : State) (l : LegId) (f : Leg → Leg) :
    (State.modLeg s l f).fixed = s.fixed :=
  rfl
@[simp] theorem State.modLegSide_fixed (s : State) (l : LegId) (side : Side) (f : LegSide → LegSide) :
    (State.modLegSide s l side f).fixed = s.fixed :=
  rfl
@[simp] theorem State.modEngine_fixed (s : State) (l : LegId) (f : LegEngine → LegEngine) :
    (State.modEngine s l f).fixed = s.fixed :=
  rfl
@[simp] theorem State.setQueue_fixed (s : State) (l : LegId) (q : List Entry) :
    (State.setQueue s l q).fixed = s.fixed :=
  rfl
@[simp] theorem State.modSlot_fixed (s : State) (n : SlotId) (f : Slot → Slot) :
    (State.modSlot s n f).fixed = s.fixed :=
  rfl
@[simp] theorem State.modPage_fixed (s : State) (p : PageId) (f : Page → Page) :
    (State.modPage s p f).fixed = s.fixed :=
  rfl
@[simp] theorem State.raise_fixed (s : State) (bits : BitVec 32) : (State.raise s bits).fixed = s.fixed := rfl

@[simp] theorem State.lower_fixed (s : State) (bits : BitVec 32) : (State.lower s bits).fixed = s.fixed := rfl

@[simp] theorem State.legNotice_fixed (s : State) (l : LegId) : (State.legNotice s l).fixed = s.fixed := rfl

@[simp] theorem State.reportFault_fixed (s : State) (r : FaultRecord) : (State.reportFault s r).fixed = s.fixed := by
  unfold State.reportFault
  split <;> simp

@[simp] theorem State.releaseFaults_fixed (s : State) : (State.releaseFaults s).fixed = s.fixed := rfl

@[simp] theorem State.endPosted_fixed (s : State) (slot : SlotId) (kind leg label0 label1 : Byte) (st : Status) :
    (State.endPosted s slot kind leg label0 label1 st).fixed = s.fixed := by
  unfold State.endPosted
  split <;> simp

@[simp] theorem State.slotMisuse_fixed (s : State) (n : SlotId) (v : Byte) :
    (State.slotMisuse s n v).fixed = s.fixed := by
  simp [State.slotMisuse]

@[simp] theorem State.pageMisuse_fixed (s : State) (p : PageId) (v : Byte) :
    (State.pageMisuse s p v).fixed = s.fixed := by
  simp [State.pageMisuse]

@[simp] theorem State.endAwaited_fixed (s : State) (n : SlotId) (result : List Byte) (st : Status) :
    (State.endAwaited s n result st).fixed = s.fixed :=
  rfl
@[simp] theorem State.endTask_fixed (s : State) (e : Entry) (result : List Byte) (st : Status) :
    (State.endTask s e result st).fixed = s.fixed := by
  unfold State.endTask
  split <;> simp

@[simp] theorem State.modTuner_fixed (s : State) (x : LaneSide) (f : Tuner → Tuner) :
    (State.modTuner s x f).fixed = s.fixed :=
  rfl
@[simp] theorem State.modClimb_fixed (s : State) (x : LaneSide) (f : Climb → Climb) :
    (State.modClimb s x f).fixed = s.fixed :=
  rfl
@[simp] theorem State.issue_fixed (s : State) (x : LaneSide) (k : RequestKind) :
    (State.issue s x k).fixed = s.fixed :=
  rfl
@[simp] theorem State.startReading_fixed (s : State) (x : LaneSide) : (State.startReading s x).fixed = s.fixed := rfl

@[simp] theorem State.endClimb_fixed (s : State) (x : LaneSide) : (State.endClimb s x).fixed = s.fixed := by
  unfold State.endClimb
  dsimp only
  (repeat' split) <;> simp

@[simp] theorem State.trialCheck_fixed (s : State) (x : LaneSide) : (State.trialCheck s x).fixed = s.fixed := by
  unfold State.trialCheck
  dsimp only
  (repeat' split) <;> simp

@[simp] theorem State.passDecision_fixed (s : State) (x : LaneSide) : (State.passDecision s x).fixed = s.fixed := by
  unfold State.passDecision
  dsimp only
  (repeat' split) <;> simp

@[simp] theorem State.climbReply_fixed (s : State) (x : LaneSide) (o : ReplyOutcome) :
    (State.climbReply s x o).fixed = s.fixed := by
  unfold State.climbReply
  dsimp only
  (repeat' split) <;> simp

@[simp] theorem State.climbReading_fixed (s : State) (x : LaneSide) (m : Nat) :
    (State.climbReading s x m).fixed = s.fixed := by
  unfold State.climbReading
  dsimp only
  (repeat' split) <;> simp

@[simp] theorem State.endScan_fixed (s : State) (p : PageId) (slot : SlotId) (o : ScanOutcome) (st : Status) :
    (State.endScan s p slot o st).fixed = s.fixed := by
  rw [State.endScan, State.endAwaited_fixed, State.modLane_fixed, State.modPage_fixed]

@[simp] theorem State.interruptScan_fixed (s : State) (l : LegId) (p : PageId) :
    (State.interruptScan s l p).fixed = s.fixed := by
  unfold State.interruptScan
  (repeat' split) <;> simp

@[simp] theorem State.interruptScans_fixed (s : State) (l : LegId) : (State.interruptScans s l).fixed = s.fixed :=
  foldl_keeps State.fixed _ (fun s p => State.interruptScan_fixed s l p) _ s

@[simp] theorem State.reportOutcome_fixed (s : State) (l : LegId) (st : Status) :
    (State.reportOutcome s l st).fixed = s.fixed := by
  unfold State.reportOutcome
  split <;> simp

@[simp] theorem State.abandonSide_fixed (s : State) (l : LegId) (side : Side) :
    (State.abandonSide s l side).fixed = s.fixed := by
  unfold State.abandonSide
  split <;> simp

@[simp] theorem State.abandonSessions_fixed (s : State) (l : LegId) :
    (State.abandonSessions s l).fixed = s.fixed := by
  unfold State.abandonSessions
  split <;> simp

@[simp] theorem State.leaveCarrying_fixed (s : State) (l : LegId) : (State.leaveCarrying s l).fixed = s.fixed := by
  unfold State.leaveCarrying
  split <;> simp

@[simp] theorem State.parkLeg_fixed (s : State) (l : LegId) : (State.parkLeg s l).fixed = s.fixed := by
  simp [State.parkLeg]

@[simp] theorem State.giveUp_fixed (s : State) (l : LegId) : (State.giveUp s l).fixed = s.fixed := by
  simp [State.giveUp]

@[simp] theorem State.startSession_fixed (s : State) (l : LegId) (kind : SessionKind) (side : Side) :
    (State.startSession s l kind side).fixed = s.fixed := by
  simp [State.startSession]

@[simp] theorem State.standBySide_fixed (s : State) (l : LegId) (side : Side) :
    (State.standBySide s l side).fixed = s.fixed := by
  simp [State.standBySide]

@[simp] theorem State.enterTuneSide_fixed (s : State) (l : LegId) (kind : SessionKind) (named : List Side)
    (side : Side) :
    (State.enterTuneSide s l kind named side).fixed = s.fixed := by
  unfold State.enterTuneSide
  split <;> simp

@[simp] theorem State.enterTune_fixed (s : State) (l : LegId) (kind : SessionKind) (named : List Side) :
    (State.enterTune s l kind named).fixed = s.fixed := by
  simp [State.enterTune]

@[simp] theorem State.tryTune_fixed (s : State) (l : LegId) : (State.tryTune s l).fixed = s.fixed := by
  unfold State.tryTune
  split <;> simp

@[simp] theorem State.enterAcquire_fixed (s : State) (l : LegId) : (State.enterAcquire s l).fixed = s.fixed := by
  simp [State.enterAcquire]

@[simp] theorem State.enterDark_fixed (s : State) (l : LegId) : (State.enterDark s l).fixed = s.fixed := by
  unfold State.enterDark
  dsimp only
  (repeat' split) <;> simp

@[simp] theorem State.enterCarrying_fixed (s : State) (l : LegId) (grade : Grade) :
    (State.enterCarrying s l grade).fixed = s.fixed := by
  simp [State.enterCarrying]

@[simp] theorem State.sessionDone_fixed (s : State) (l : LegId) (side : Side) :
    (State.sessionDone s l side).fixed = s.fixed := by
  unfold State.sessionDone
  dsimp only
  (repeat' split) <;> simp

@[simp] theorem State.fallBack_fixed (s : State) (l : LegId) : (State.fallBack s l).fixed = s.fixed := by
  unfold State.fallBack
  dsimp only
  (repeat' split) <;> simp

@[simp] theorem State.abandonRunning_fixed (s : State) (l : LegId) (side : Side) :
    (State.abandonRunning s l side).fixed = s.fixed := by
  unfold State.abandonRunning
  split <;> simp

@[simp] theorem State.sessionFailed_fixed (s : State) (l : LegId) (side : Side) (cause : FailureCause) :
    (State.sessionFailed s l side cause).fixed = s.fixed := by
  simp [State.sessionFailed]

@[simp] theorem State.modRelay_fixed (s : State) (l : LegId) (watched : Side) (f : RelayDirection → RelayDirection) :
    (State.modRelay s l watched f).fixed = s.fixed :=
  rfl
@[simp] theorem State.relayExpire_fixed (s : State) (l : LegId) (watched : Side) :
    (State.relayExpire s l watched).fixed = s.fixed := by
  unfold State.relayExpire
  split <;> simp

@[simp] theorem State.relayStart_fixed (s : State) (l : LegId) (watched : Side) :
    (State.relayStart s l watched).fixed = s.fixed := by
  unfold State.relayStart
  dsimp only
  (repeat' split) <;> simp

@[simp] theorem State.relayTrigger_fixed (s : State) (l : LegId) (watched : Side) :
    (State.relayTrigger s l watched).fixed = s.fixed := by
  unfold State.relayTrigger
  dsimp only
  (repeat' split) <;> simp

@[simp] theorem State.relayRelease_fixed (s : State) (l : LegId) (watched : Side) :
    (State.relayRelease s l watched).fixed = s.fixed := by
  unfold State.relayRelease
  split <;> simp

@[simp] theorem State.legPresenceLoss_fixed (s : State) (l : LegId) :
    (State.legPresenceLoss s l).fixed = s.fixed := by
  unfold State.legPresenceLoss
  split <;> simp

@[simp] theorem State.legPresenceGain_fixed (s : State) (l : LegId) :
    (State.legPresenceGain s l).fixed = s.fixed := by
  unfold State.legPresenceGain
  split <;> simp

@[simp] theorem State.wakeWatch_fixed (s : State) (l : LegId) : (State.wakeWatch s l).fixed = s.fixed := by
  unfold State.wakeWatch
  split <;> simp

@[simp] theorem State.becomeAbsent_fixed (s : State) (x : LaneSide) : (State.becomeAbsent s x).fixed = s.fixed := by
  unfold State.becomeAbsent
  dsimp only
  (repeat' split) <;> simp

@[simp] theorem State.becomePresent_fixed (s : State) (x : LaneSide) :
    (State.becomePresent s x).fixed = s.fixed := by
  unfold State.becomePresent
  dsimp only
  (repeat' split) <;> simp

@[simp] theorem State.presenceEvent_fixed (s : State) (x : LaneSide) :
    (State.presenceEvent s x).fixed = s.fixed := by
  unfold State.presenceEvent
  dsimp only
  (repeat' split) <;> simp

@[simp] theorem State.lockEvent_fixed (s : State) (x : LaneSide) : (State.lockEvent s x).fixed = s.fixed := by
  unfold State.lockEvent
  dsimp only
  (repeat' split) <;> simp

@[simp] theorem State.unlockEvent_fixed (s : State) (x : LaneSide) : (State.unlockEvent s x).fixed = s.fixed := by
  unfold State.unlockEvent
  dsimp only
  (repeat' split) <;> simp

@[simp] theorem State.lockTimerExpire_fixed (s : State) (l : LegId) :
    (State.lockTimerExpire s l).fixed = s.fixed := by
  unfold State.lockTimerExpire
  dsimp only
  (repeat' split) <;> simp

@[simp] theorem State.takeIntent_fixed (s : State) (l : LegId) : (State.takeIntent s l).fixed = s.fixed := rfl

@[simp] theorem State.parkByTask_fixed (s : State) (l : LegId) : (State.parkByTask s l).fixed = s.fixed := by
  unfold State.parkByTask
  dsimp only
  (repeat' split) <;> simp

@[simp] theorem State.parkByPower_fixed (s : State) (l : LegId) : (State.parkByPower s l).fixed = s.fixed := by
  unfold State.parkByPower
  split <;> simp

@[simp] theorem State.retune_fixed (s : State) (l : LegId) (named : List Side) :
    (State.retune s l named).fixed = s.fixed := by
  simp [State.retune]

@[simp] theorem State.formFrame_fixed (s : State) (x : LaneSide) : (State.formFrame s x).fixed = s.fixed := rfl

@[simp] theorem State.framePeriod_fixed (s : State) (x : LaneSide) : (State.framePeriod s x).fixed = s.fixed := by
  unfold State.framePeriod
  dsimp only
  (repeat' split) <;> simp

@[simp] theorem State.badFrame_fixed (s : State) (x : LaneSide) : (State.badFrame s x).fixed = s.fixed := rfl

@[simp] theorem State.takeReply_fixed (s : State) (x : LaneSide) (f : RxFrame) :
    (State.takeReply s x f).fixed = s.fixed := by
  unfold State.takeReply
  split <;> simp

@[simp] theorem State.takeAgreement_fixed (s : State) (x : LaneSide) (content : Bool) :
    (State.takeAgreement s x content).fixed = s.fixed := by
  unfold State.takeAgreement
  dsimp only
  (repeat' split) <;> simp

@[simp] theorem State.goodFrame_fixed (s : State) (x : LaneSide) (f : RxFrame) :
    (State.goodFrame s x f).fixed = s.fixed := by
  simp [State.goodFrame]

@[simp] theorem State.receiveFrame_fixed (s : State) (x : LaneSide) (frame : Vector Byte 8) :
    (State.receiveFrame s x frame).fixed = s.fixed := by
  unfold State.receiveFrame
  dsimp only
  (repeat' split) <;> simp

@[simp] theorem State.adjustRate_fixed (s : State) (l : LegId) (rate : RateClass) :
    (State.adjustRate s l rate).fixed = s.fixed := by
  unfold State.adjustRate
  split <;> simp

@[simp] theorem State.runLegSetup_fixed (s : State) (l : LegId) (e : Entry) :
    (State.runLegSetup s l e).fixed = s.fixed := by
  unfold State.runLegSetup
  (repeat' split) <;> simp

@[simp] theorem State.launch_fixed (s : State) (l : LegId) (e : Entry) : (State.launch s l e).fixed = s.fixed := by
  unfold State.launch
  split <;> simp

@[simp] theorem State.runLegStart_fixed (s : State) (l : LegId) (e : Entry) :
    (State.runLegStart s l e).fixed = s.fixed := by
  unfold State.runLegStart
  (repeat' split) <;> simp

@[simp] theorem State.runLegPark_fixed (s : State) (l : LegId) (e : Entry) :
    (State.runLegPark s l e).fixed = s.fixed := by
  simp [State.runLegPark]

theorem State.runLegRetune_fixed (s : State) (l : LegId) (e : Entry) (t : State)
    (h : State.runLegRetune s l e = some t) :
    t.fixed = s.fixed := by
  unfold State.runLegRetune at h
  repeat' split at h
  all_goals first
    | (injection h with h; subst h; simp)
    | cases h

@[simp] theorem State.maskPair_fixed (s : State) (i : LaneId) : (State.maskPair s i).fixed = s.fixed := rfl

@[simp] theorem State.setFunction_fixed (s : State) (i : LaneId) (f : LaneFunction) :
    (State.setFunction s i f).fixed = s.fixed := by
  unfold State.setFunction
  split <;> simp

@[simp] theorem State.runLaneFunction_fixed (s : State) (l : LegId) (e : Entry) :
    (State.runLaneFunction s l e).fixed = s.fixed := by
  unfold State.runLaneFunction
  (repeat' split) <;> simp

theorem State.runSetTaps_fixed (s : State) (l : LegId) (e : Entry) (t : State) (h : State.runSetTaps s l e = some t) :
    t.fixed = s.fixed := by
  unfold State.runSetTaps at h
  repeat' split at h
  all_goals first
    | (injection h with h; subst h; simp)
    | cases h

@[simp] theorem State.startScan_fixed (s : State) (l : LegId) (slot : SlotId) (p : PageId) (side : Side) (i : LaneId)
    (dwell : Nat) :
    (State.startScan s l slot p side i dwell).fixed = s.fixed :=
  rfl
theorem State.runEyeScan_fixed (s : State) (l : LegId) (e : Entry) (t : State) (h : State.runEyeScan s l e = some t) :
    t.fixed = s.fixed := by
  unfold State.runEyeScan at h
  repeat' split at h
  all_goals first
    | (injection h with h; subst h; simp)
    | cases h

@[simp] theorem State.runSnapshot_fixed (s : State) (l : LegId) (e : Entry) :
    (State.runSnapshot s l e).fixed = s.fixed := by
  unfold State.runSnapshot
  (repeat' split) <;> simp

@[simp] theorem State.moveSwitchLane_fixed (old s : State) (sw : LaneId) :
    (State.moveSwitchLane old s sw).fixed = s.fixed := by
  unfold State.moveSwitchLane
  dsimp only
  (repeat' split) <;> simp

@[simp] theorem State.applyMap_fixed (s : State) (map : Vector MapEntry 8) :
    (State.applyMap s map).fixed = s.fixed := by
  unfold State.applyMap
  rw [foldl_keeps State.fixed _ (fun t i => State.maskPair_fixed t i),
    foldl_keeps State.fixed _ (fun t sw => State.moveSwitchLane_fixed s t sw)]
  simp

@[simp] theorem State.runRemap_fixed (s : State) (e : Entry) : (State.runRemap s e).fixed = s.fixed := by
  unfold State.runRemap
  dsimp only
  (repeat' split) <;> simp

theorem State.runLegTask_fixed (s : State) (l : LegId) (e : Entry) (t : State) (h : State.runLegTask s l e = some t) :
    t.fixed = s.fixed := by
  unfold State.runLegTask at h
  repeat' split at h
  all_goals first
    | exact State.runLegRetune_fixed s l e t h
    | exact State.runSetTaps_fixed s l e t h
    | exact State.runEyeScan_fixed s l e t h
    | (injection h with h; subst h; simp)

@[simp] theorem State.deferAt_fixed (s : State) (l : LegId) (k : Nat) : (State.deferAt s l k).fixed = s.fixed := rfl

theorem State.attemptAt_fixed (s : State) (l : LegId) (k : Nat) (e : Entry) (t : State)
    (h : State.attemptAt s l k e = some t) :
    t.fixed = s.fixed := by
  rw [State.runLegTask_fixed _ l e t h, State.setQueue_fixed]

@[simp] theorem State.passEntries_fixed (l : LegId) (n : Nat) (s : State) :
    (State.passEntries l n s).fixed = s.fixed := by
  induction n generalizing s with
  | zero => rfl
  | succ n ih =>
    unfold State.passEntries
    split
    · split
      · split
        · next h => rw [ih, State.attemptAt_fixed _ _ _ _ _ h]
        · exact State.deferAt_fixed s l 1
      · rfl
    · rfl

@[simp] theorem State.supersedeAwaited_fixed (s : State) (l : LegId) (es : List Entry) :
    (State.supersedeAwaited s l es).fixed = s.fixed :=
  foldl_keeps State.fixed _ (fun s e => State.endTask_fixed s e _ .superseded) _ s

@[simp] theorem State.supersedePosted_fixed (s : State) (es : List Entry) :
    (State.supersedePosted s es).fixed = s.fixed := by
  unfold State.supersedePosted
  dsimp only
  rw [State.fixed_update, foldl_keeps State.fixed _ (fun s e => State.endTask_fixed s e [] .superseded)]

theorem State.passPark_fixed (s : State) (l : LegId) (t : State) (h : State.passPark s l = some t) :
    t.fixed = s.fixed := by
  unfold State.passPark at h
  repeat' split at h
  all_goals first
    | (injection h with h; subst h; simp)
    | cases h

@[simp] theorem State.examineRounds_fixed (l : LegId) (n : Nat) (s : State) :
    (State.examineRounds l n s).fixed = s.fixed := by
  induction n generalizing s with
  | zero => rfl
  | succ n ih =>
    unfold State.examineRounds
    split
    · rfl
    · split
      · next h => rw [ih, State.attemptAt_fixed _ _ _ _ _ h]
      · dsimp only
        split
        · next h => rw [ih, State.passPark_fixed _ _ _ h, State.passEntries_fixed, State.deferAt_fixed]
        · rw [State.passEntries_fixed, State.deferAt_fixed]

@[simp] theorem State.examineLeg_fixed (s : State) (l : LegId) : (State.examineLeg s l).fixed = s.fixed := by
  simp [State.examineLeg]

@[simp] theorem State.examineLegs_fixed (s : State) : (State.examineLegs s).fixed = s.fixed := by
  unfold State.examineLegs
  dsimp only
  rw [foldl_keeps State.fixed _ (fun s l => State.examineLeg_fixed s l), State.fixed_update]

@[simp] theorem State.supersedeDeferred_fixed (s : State) : (State.supersedeDeferred s).fixed = s.fixed := by
  unfold State.supersedeDeferred
  dsimp only
  rw [State.supersedePosted_fixed, foldl_keeps State.fixed _ (fun s l => by simp)]

@[simp] theorem State.giveUpEntry_fixed (s : State) (l : LegId) (k : Nat) (e : Entry) :
    (State.giveUpEntry s l k e).fixed = s.fixed := by
  simp [State.giveUpEntry]

@[simp] theorem State.cancelInLeg_fixed (s : State) (n : SlotId) (l : LegId) :
    (State.cancelInLeg s n l).fixed = s.fixed := by
  unfold State.cancelInLeg
  (repeat' split) <;> simp

@[simp] theorem State.takeCancel_fixed (s : State) (n : SlotId) : (State.takeCancel s n).fixed = s.fixed := by
  unfold State.takeCancel
  dsimp only
  (repeat' split) <;> simp

@[simp] theorem State.finishPowerWait_fixed (s : State) (st : Status) :
    (State.finishPowerWait s st).fixed = s.fixed := by
  unfold State.finishPowerWait
  rw [foldl_keeps State.fixed _ (fun t n => State.endAwaited_fixed t n _ _), State.fixed_update]

@[simp] theorem State.powerLow_fixed (s : State) (waitStatus : Status) :
    (State.powerLow s waitStatus).fixed = s.fixed := by
  unfold State.powerLow
  dsimp only
  rw [State.examineLegs_fixed, State.raise_fixed, State.finishPowerWait_fixed, State.supersedeDeferred_fixed,
    foldl_keeps State.fixed _ (fun s l => State.parkByPower_fixed s l), State.modAllLanes_fixed, State.fixed_update]

@[simp] theorem State.tryRise_fixed (s : State) : (State.tryRise s).fixed = s.fixed := by
  unfold State.tryRise
  split <;> simp

@[simp] theorem State.riseLeg_fixed (s : State) (l : LegId) : (State.riseLeg s l).fixed = s.fixed := by
  unfold State.riseLeg
  split <;> simp

@[simp] theorem State.completeRise_fixed (s : State) : (State.completeRise s).fixed = s.fixed := by
  unfold State.completeRise
  dsimp only
  rw [State.examineLegs_fixed, State.finishPowerWait_fixed, 
    foldl_keeps State.fixed _ (fun s l => State.riseLeg_fixed s l), State.raise_fixed, State.fixed_update]

@[simp] theorem State.runPower_fixed (s : State) (e : Entry) : (State.runPower s e).fixed = s.fixed := by
  unfold State.runPower
  dsimp only
  (repeat' split) <;> simp

@[simp] theorem State.runDeviceTask_fixed (s : State) (e : Entry) : (State.runDeviceTask s e).fixed = s.fixed := by
  unfold State.runDeviceTask
  (repeat' split) <;> simp

@[simp] theorem State.examineDeviceRounds_fixed (n : Nat) (s : State) :
    (State.examineDeviceRounds n s).fixed = s.fixed := by
  induction n generalizing s with
  | zero => rfl
  | succ n ih =>
    unfold State.examineDeviceRounds
    split
    · rfl
    · rw [ih, State.runDeviceTask_fixed, State.fixed_update]

@[simp] theorem State.examineDevice_fixed (s : State) : (State.examineDevice s).fixed = s.fixed := by
  simp [State.examineDevice]

@[simp] theorem State.autostartLeg_fixed (s : State) (l : LegId) : (State.autostartLeg s l).fixed = s.fixed := by
  unfold State.autostartLeg
  dsimp only
  (repeat' split) <;> simp

@[simp] theorem State.leaveList_fixed (s : State) (n : SlotId) : (State.leaveList s n).fixed = s.fixed := rfl

@[simp] theorem State.takeSlot_fixed (s : State) (n : SlotId) (awaited : Bool) :
    (State.takeSlot s n awaited).fixed = s.fixed := by
  unfold State.takeSlot
  split <;> simp

@[simp] theorem State.takeTask_fixed (s : State) (n : SlotId) (k : TaskKind) (t : Target) :
    (State.takeTask s n k t).fixed = s.fixed := by
  unfold State.takeTask
  split <;> simp

@[simp] theorem State.refuseSlot_fixed (s : State) (n : SlotId) (st : Status) :
    (State.refuseSlot s n st).fixed = s.fixed := by
  unfold State.refuseSlot
  dsimp only
  (repeat' split) <;> simp

@[simp] theorem State.considerSlot_fixed (s : State) (n : SlotId) : (State.considerSlot s n).fixed = s.fixed := by
  unfold State.considerSlot
  (repeat' split) <;> simp

@[simp] theorem State.intakePass_fixed (s : State) (ns : List SlotId) : (State.intakePass s ns).fixed = s.fixed :=
  foldl_keeps State.fixed _ (fun s n => by
    split
    · rfl
    · exact State.considerSlot_fixed s n) ns s

@[simp] theorem State.intakeRounds_fixed (n : Nat) (s : State) : (State.intakeRounds n s).fixed = s.fixed := by
  induction n generalizing s with
  | zero => rfl
  | succ n ih =>
    unfold State.intakeRounds
    split
    · rfl
    · dsimp only
      split
      · rw [ih, State.intakePass_fixed]
      · exact State.intakePass_fixed s _

@[simp] theorem State.intake_fixed (s : State) : (State.intake s).fixed = s.fixed := by
  simp [State.intake]

/-! ### An event at a leg engine -/

/-- With an empty leg queue no check can be put off. -/
theorem State.headCanStart_nil {s : State} {l : LegId} (h : (s.engine l).queue = []) : s.headCanStart l = false := by
  simp [State.headCanStart, h]

/-- A head that has not waited is checked in the event. -/
theorem State.headCanStart_fresh {s : State} {l : LegId} {e : Entry} {q : List Entry} (h : (s.engine l).queue = e :: q)
    (hd : e.deferred = false) : s.headCanStart l = false := by
  simp [State.headCanStart, h, hd]

/-- R89, R117, R146: all an event at a leg engine can do: the examination and then the intake, or, with a head that
waited and can start, its check put off. -/
theorem State.engineEvent_cases (s : State) (l : LegId) :
    (s.headCanStart l = false ∧ s.engineEvent l = (s.examineLeg l).intake) ∨
    (s.headCanStart l = true ∧ Config.freeChoice s.freeCount % 2 ≠ 1 ∧
      s.engineEvent l = ({ s with freeCount := s.freeCount + 1 }.examineLeg l).intake) ∨
    (s.headCanStart l = true ∧ Config.freeChoice s.freeCount % 2 = 1 ∧
      s.engineEvent l = { s with freeCount := s.freeCount + 1 }.putOff l) := by
  unfold State.engineEvent
  cases s.headCanStart l with
  | false => exact .inl ⟨rfl, rfl⟩
  | true =>
    by_cases h : Config.freeChoice s.freeCount % 2 = 1
    · exact .inr (.inr ⟨rfl, h, by simp [h]⟩)
    · exact .inr (.inl ⟨rfl, h, by simp [h]⟩)

/-- An event at a leg engine keeps the fixed registers, or adds the leg to the checks put off and keeps the others. -/
theorem State.engineEvent_fixed (s : State) (l : LegId) :
    (s.engineEvent l).fixed = s.fixed ∨ (s.engineEvent l).fixed = (s.putOff l).fixed := by
  obtain ⟨-, h⟩ | ⟨-, -, h⟩ | ⟨-, -, h⟩ := s.engineEvent_cases l <;> rw [h]
  · exact .inl (by simp)
  · exact .inl (by simp)
  · exact .inr rfl

/-- Likewise at the end of operations that keep them. -/
theorem State.engineEvent_fixed_of {s t : State} (h : t.fixed = s.fixed) (l : LegId) :
    (t.engineEvent l).fixed = s.fixed ∨ (t.engineEvent l).fixed = (s.putOff l).fixed := by
  have h' : (t.putOff l).fixed = (s.putOff l).fixed := by
    have e (u : State) : (u.putOff l).fixed =
        { u.fixed with owed := if l ∈ u.fixed.owed then u.fixed.owed else u.fixed.owed ++ [l] } := rfl
    rw [e, e, h]
  rw [← h, ← h']
  exact t.engineEvent_fixed l

/-- So it is after an event of one leg. -/
theorem State.afterLegEvent_fixed (s before : State) (l : LegId) :
    (s.afterLegEvent before l).fixed = s.fixed ∨ (s.afterLegEvent before l).fixed = (s.putOff l).fixed := by
  unfold State.afterLegEvent
  split
  · exact .inl rfl
  · exact s.engineEvent_fixed l

/-- The checks put off are all made, and the other fixed registers kept. -/
@[simp] theorem State.makeOwedChecks_fixed (s : State) : s.makeOwedChecks.fixed = { s.fixed with owed := [] } := by
  unfold State.makeOwedChecks
  rw [State.intake_fixed, foldl_keeps State.fixed _ (fun s l => State.examineLeg_fixed s l)]
  rfl

@[simp] theorem State.writeHandOver_fixed (s : State) (n : SlotId) (v : Byte) :
    (State.writeHandOver s n v).fixed = s.fixed := by
  unfold State.writeHandOver
  (repeat' split) <;> simp

@[simp] theorem State.writePage_fixed (s : State) (p : PageId) (v : Byte) :
    (State.writePage s p v).fixed = s.fixed := by
  unfold State.writePage
  (repeat' split) <;> simp

/-- The end of a scan is an event at the engine of its leg. -/
theorem State.completeCell_fixed (s : State) (p : PageId) (slot : SlotId) (errors : Nat) :
    (s.completeCell p slot errors).fixed = s.fixed ∨
    (s.completeCell p slot errors).fixed = (s.putOff (s.page p).leg).fixed := by
  unfold State.completeCell
  generalize (if 255 < errors then 255 else errors) = count
  dsimp only
  split
  · exact State.engineEvent_fixed_of (by simp) _
  · split
    · exact State.engineEvent_fixed_of (by simp) _
    · exact .inl (by simp)

end Sys2Proof.Machine
end

