-- ==== Sys2Proof/Laws/HandOver.lean ====
section
/-! SUPPORT. No event at a lane side, a leg, a queue or a task changes the hand-over order list: one lemma for each
operation. And from it, what the intake does with the one slot of a list. -/

namespace Sys2Proof.Machine

@[simp] theorem State.reportFault_handOver (s : State) (r : FaultRecord) :
    (State.reportFault s r).handOver = s.handOver := by
  unfold State.reportFault
  split <;> simp

@[simp] theorem State.releaseFaults_handOver (s : State) : (State.releaseFaults s).handOver = s.handOver := rfl

@[simp] theorem State.endPosted_handOver (s : State) (slot : SlotId) (kind leg label0 label1 : Byte) (st : Status) :
    (State.endPosted s slot kind leg label0 label1 st).handOver = s.handOver := by
  unfold State.endPosted
  split <;> simp

@[simp] theorem State.slotMisuse_handOver (s : State) (n : SlotId) (v : Byte) :
    (State.slotMisuse s n v).handOver = s.handOver := by
  simp [State.slotMisuse]

@[simp] theorem State.pageMisuse_handOver (s : State) (p : PageId) (v : Byte) :
    (State.pageMisuse s p v).handOver = s.handOver := by
  simp [State.pageMisuse]

@[simp] theorem State.endTask_handOver (s : State) (e : Entry) (result : List Byte) (st : Status) :
    (State.endTask s e result st).handOver = s.handOver := by
  unfold State.endTask
  split <;> simp

@[simp] theorem State.modTuner_handOver (s : State) (x : LaneSide) (f : Tuner → Tuner) :
    (State.modTuner s x f).handOver = s.handOver :=
  rfl
@[simp] theorem State.modClimb_handOver (s : State) (x : LaneSide) (f : Climb → Climb) :
    (State.modClimb s x f).handOver = s.handOver :=
  rfl
@[simp] theorem State.issue_handOver (s : State) (x : LaneSide) (k : RequestKind) :
    (State.issue s x k).handOver = s.handOver :=
  rfl
@[simp] theorem State.startReading_handOver (s : State) (x : LaneSide) :
    (State.startReading s x).handOver = s.handOver :=
  rfl
@[simp] theorem State.endClimb_handOver (s : State) (x : LaneSide) : (State.endClimb s x).handOver = s.handOver := by
  unfold State.endClimb
  dsimp only
  (repeat' split) <;> simp

@[simp] theorem State.trialCheck_handOver (s : State) (x : LaneSide) :
    (State.trialCheck s x).handOver = s.handOver := by
  unfold State.trialCheck
  dsimp only
  (repeat' split) <;> simp

@[simp] theorem State.passDecision_handOver (s : State) (x : LaneSide) :
    (State.passDecision s x).handOver = s.handOver := by
  unfold State.passDecision
  dsimp only
  (repeat' split) <;> simp

@[simp] theorem State.climbReply_handOver (s : State) (x : LaneSide) (o : ReplyOutcome) :
    (State.climbReply s x o).handOver = s.handOver := by
  unfold State.climbReply
  dsimp only
  (repeat' split) <;> simp

@[simp] theorem State.climbReading_handOver (s : State) (x : LaneSide) (m : Nat) :
    (State.climbReading s x m).handOver = s.handOver := by
  unfold State.climbReading
  dsimp only
  (repeat' split) <;> simp

@[simp] theorem State.endScan_handOver (s : State) (p : PageId) (slot : SlotId) (o : ScanOutcome) (st : Status) :
    (State.endScan s p slot o st).handOver = s.handOver := by
  rw [State.endScan, State.endAwaited_handOver, State.modLane_handOver, State.modPage_handOver]

@[simp] theorem State.interruptScan_handOver (s : State) (l : LegId) (p : PageId) :
    (State.interruptScan s l p).handOver = s.handOver := by
  unfold State.interruptScan
  (repeat' split) <;> simp

@[simp] theorem State.interruptScans_handOver (s : State) (l : LegId) :
    (State.interruptScans s l).handOver = s.handOver :=
  foldl_keeps State.handOver _ (fun s p => State.interruptScan_handOver s l p) _ s

@[simp] theorem State.reportOutcome_handOver (s : State) (l : LegId) (st : Status) :
    (State.reportOutcome s l st).handOver = s.handOver := by
  unfold State.reportOutcome
  split <;> simp

@[simp] theorem State.abandonSide_handOver (s : State) (l : LegId) (side : Side) :
    (State.abandonSide s l side).handOver = s.handOver := by
  unfold State.abandonSide
  split <;> simp

@[simp] theorem State.abandonSessions_handOver (s : State) (l : LegId) :
    (State.abandonSessions s l).handOver = s.handOver := by
  unfold State.abandonSessions
  split <;> simp

@[simp] theorem State.leaveCarrying_handOver (s : State) (l : LegId) :
    (State.leaveCarrying s l).handOver = s.handOver := by
  unfold State.leaveCarrying
  split <;> simp

@[simp] theorem State.parkLeg_handOver (s : State) (l : LegId) : (State.parkLeg s l).handOver = s.handOver := by
  simp [State.parkLeg]

@[simp] theorem State.giveUp_handOver (s : State) (l : LegId) : (State.giveUp s l).handOver = s.handOver := by
  simp [State.giveUp]

@[simp] theorem State.startSession_handOver (s : State) (l : LegId) (kind : SessionKind) (side : Side) :
    (State.startSession s l kind side).handOver = s.handOver := by
  simp [State.startSession]

@[simp] theorem State.standBySide_handOver (s : State) (l : LegId) (side : Side) :
    (State.standBySide s l side).handOver = s.handOver := by
  simp [State.standBySide]

@[simp] theorem State.enterTuneSide_handOver (s : State) (l : LegId) (kind : SessionKind) (named : List Side)
    (side : Side) :
    (State.enterTuneSide s l kind named side).handOver = s.handOver := by
  unfold State.enterTuneSide
  split <;> simp

@[simp] theorem State.enterTune_handOver (s : State) (l : LegId) (kind : SessionKind) (named : List Side) :
    (State.enterTune s l kind named).handOver = s.handOver := by
  simp [State.enterTune]

@[simp] theorem State.tryTune_handOver (s : State) (l : LegId) : (State.tryTune s l).handOver = s.handOver := by
  unfold State.tryTune
  split <;> simp

@[simp] theorem State.enterAcquire_handOver (s : State) (l : LegId) :
    (State.enterAcquire s l).handOver = s.handOver := by
  simp [State.enterAcquire]

@[simp] theorem State.enterDark_handOver (s : State) (l : LegId) : (State.enterDark s l).handOver = s.handOver := by
  unfold State.enterDark
  dsimp only
  (repeat' split) <;> simp

@[simp] theorem State.enterCarrying_handOver (s : State) (l : LegId) (grade : Grade) :
    (State.enterCarrying s l grade).handOver = s.handOver := by
  simp [State.enterCarrying]

@[simp] theorem State.sessionDone_handOver (s : State) (l : LegId) (side : Side) :
    (State.sessionDone s l side).handOver = s.handOver := by
  unfold State.sessionDone
  dsimp only
  (repeat' split) <;> simp

@[simp] theorem State.fallBack_handOver (s : State) (l : LegId) : (State.fallBack s l).handOver = s.handOver := by
  unfold State.fallBack
  dsimp only
  (repeat' split) <;> simp

@[simp] theorem State.abandonRunning_handOver (s : State) (l : LegId) (side : Side) :
    (State.abandonRunning s l side).handOver = s.handOver := by
  unfold State.abandonRunning
  split <;> simp

@[simp] theorem State.sessionFailed_handOver (s : State) (l : LegId) (side : Side) (cause : FailureCause) :
    (State.sessionFailed s l side cause).handOver = s.handOver := by
  simp [State.sessionFailed]

@[simp] theorem State.modRelay_handOver (s : State) (l : LegId) (watched : Side) (f : RelayDirection → RelayDirection)
    :
    (State.modRelay s l watched f).handOver = s.handOver :=
  rfl
@[simp] theorem State.relayExpire_handOver (s : State) (l : LegId) (watched : Side) :
    (State.relayExpire s l watched).handOver = s.handOver := by
  unfold State.relayExpire
  split <;> simp

@[simp] theorem State.relayStart_handOver (s : State) (l : LegId) (watched : Side) :
    (State.relayStart s l watched).handOver = s.handOver := by
  unfold State.relayStart
  dsimp only
  (repeat' split) <;> simp

@[simp] theorem State.relayTrigger_handOver (s : State) (l : LegId) (watched : Side) :
    (State.relayTrigger s l watched).handOver = s.handOver := by
  unfold State.relayTrigger
  dsimp only
  (repeat' split) <;> simp

@[simp] theorem State.relayRelease_handOver (s : State) (l : LegId) (watched : Side) :
    (State.relayRelease s l watched).handOver = s.handOver := by
  unfold State.relayRelease
  split <;> simp

@[simp] theorem State.legPresenceLoss_handOver (s : State) (l : LegId) :
    (State.legPresenceLoss s l).handOver = s.handOver := by
  unfold State.legPresenceLoss
  split <;> simp

@[simp] theorem State.legPresenceGain_handOver (s : State) (l : LegId) :
    (State.legPresenceGain s l).handOver = s.handOver := by
  unfold State.legPresenceGain
  split <;> simp

@[simp] theorem State.wakeWatch_handOver (s : State) (l : LegId) : (State.wakeWatch s l).handOver = s.handOver := by
  unfold State.wakeWatch
  split <;> simp

@[simp] theorem State.becomeAbsent_handOver (s : State) (x : LaneSide) :
    (State.becomeAbsent s x).handOver = s.handOver := by
  unfold State.becomeAbsent
  dsimp only
  (repeat' split) <;> simp

@[simp] theorem State.becomePresent_handOver (s : State) (x : LaneSide) :
    (State.becomePresent s x).handOver = s.handOver := by
  unfold State.becomePresent
  dsimp only
  (repeat' split) <;> simp

@[simp] theorem State.presenceEvent_handOver (s : State) (x : LaneSide) :
    (State.presenceEvent s x).handOver = s.handOver := by
  unfold State.presenceEvent
  dsimp only
  (repeat' split) <;> simp

@[simp] theorem State.lockEvent_handOver (s : State) (x : LaneSide) :
    (State.lockEvent s x).handOver = s.handOver := by
  unfold State.lockEvent
  dsimp only
  (repeat' split) <;> simp

@[simp] theorem State.unlockEvent_handOver (s : State) (x : LaneSide) :
    (State.unlockEvent s x).handOver = s.handOver := by
  unfold State.unlockEvent
  dsimp only
  (repeat' split) <;> simp

@[simp] theorem State.lockTimerExpire_handOver (s : State) (l : LegId) :
    (State.lockTimerExpire s l).handOver = s.handOver := by
  unfold State.lockTimerExpire
  dsimp only
  (repeat' split) <;> simp

@[simp] theorem State.takeIntent_handOver (s : State) (l : LegId) :
    (State.takeIntent s l).handOver = s.handOver :=
  rfl
@[simp] theorem State.parkByTask_handOver (s : State) (l : LegId) :
    (State.parkByTask s l).handOver = s.handOver := by
  unfold State.parkByTask
  dsimp only
  (repeat' split) <;> simp

@[simp] theorem State.parkByPower_handOver (s : State) (l : LegId) :
    (State.parkByPower s l).handOver = s.handOver := by
  unfold State.parkByPower
  split <;> simp

@[simp] theorem State.retune_handOver (s : State) (l : LegId) (named : List Side) :
    (State.retune s l named).handOver = s.handOver := by
  simp [State.retune]

@[simp] theorem State.formFrame_handOver (s : State) (x : LaneSide) :
    (State.formFrame s x).handOver = s.handOver :=
  rfl
@[simp] theorem State.framePeriod_handOver (s : State) (x : LaneSide) :
    (State.framePeriod s x).handOver = s.handOver := by
  unfold State.framePeriod
  dsimp only
  (repeat' split) <;> simp

@[simp] theorem State.badFrame_handOver (s : State) (x : LaneSide) : (State.badFrame s x).handOver = s.handOver := rfl

@[simp] theorem State.takeReply_handOver (s : State) (x : LaneSide) (f : RxFrame) :
    (State.takeReply s x f).handOver = s.handOver := by
  unfold State.takeReply
  split <;> simp

@[simp] theorem State.takeAgreement_handOver (s : State) (x : LaneSide) (content : Bool) :
    (State.takeAgreement s x content).handOver = s.handOver := by
  unfold State.takeAgreement
  dsimp only
  (repeat' split) <;> simp

@[simp] theorem State.goodFrame_handOver (s : State) (x : LaneSide) (f : RxFrame) :
    (State.goodFrame s x f).handOver = s.handOver := by
  simp [State.goodFrame]

@[simp] theorem State.receiveFrame_handOver (s : State) (x : LaneSide) (frame : Vector Byte 8) :
    (State.receiveFrame s x frame).handOver = s.handOver := by
  unfold State.receiveFrame
  dsimp only
  (repeat' split) <;> simp

@[simp] theorem State.adjustRate_handOver (s : State) (l : LegId) (rate : RateClass) :
    (State.adjustRate s l rate).handOver = s.handOver := by
  unfold State.adjustRate
  split <;> simp

@[simp] theorem State.runLegSetup_handOver (s : State) (l : LegId) (e : Entry) :
    (State.runLegSetup s l e).handOver = s.handOver := by
  unfold State.runLegSetup
  (repeat' split) <;> simp

@[simp] theorem State.launch_handOver (s : State) (l : LegId) (e : Entry) :
    (State.launch s l e).handOver = s.handOver := by
  unfold State.launch
  split <;> simp

@[simp] theorem State.runLegStart_handOver (s : State) (l : LegId) (e : Entry) :
    (State.runLegStart s l e).handOver = s.handOver := by
  unfold State.runLegStart
  (repeat' split) <;> simp

@[simp] theorem State.runLegPark_handOver (s : State) (l : LegId) (e : Entry) :
    (State.runLegPark s l e).handOver = s.handOver := by
  simp [State.runLegPark]

theorem State.runLegRetune_handOver (s : State) (l : LegId) (e : Entry) (t : State)
    (h : State.runLegRetune s l e = some t) :
    t.handOver = s.handOver := by
  unfold State.runLegRetune at h
  repeat' split at h
  all_goals first
    | (injection h with h; subst h; simp)
    | cases h

@[simp] theorem State.maskPair_handOver (s : State) (i : LaneId) : (State.maskPair s i).handOver = s.handOver := rfl

@[simp] theorem State.setFunction_handOver (s : State) (i : LaneId) (f : LaneFunction) :
    (State.setFunction s i f).handOver = s.handOver := by
  unfold State.setFunction
  split <;> simp

@[simp] theorem State.runLaneFunction_handOver (s : State) (l : LegId) (e : Entry) :
    (State.runLaneFunction s l e).handOver = s.handOver := by
  unfold State.runLaneFunction
  (repeat' split) <;> simp

theorem State.runSetTaps_handOver (s : State) (l : LegId) (e : Entry) (t : State)
    (h : State.runSetTaps s l e = some t) :
    t.handOver = s.handOver := by
  unfold State.runSetTaps at h
  repeat' split at h
  all_goals first
    | (injection h with h; subst h; simp)
    | cases h

@[simp] theorem State.startScan_handOver (s : State) (l : LegId) (slot : SlotId) (p : PageId) (side : Side)
    (i : LaneId) (dwell : Nat) :
    (State.startScan s l slot p side i dwell).handOver = s.handOver :=
  rfl
theorem State.runEyeScan_handOver (s : State) (l : LegId) (e : Entry) (t : State)
    (h : State.runEyeScan s l e = some t) :
    t.handOver = s.handOver := by
  unfold State.runEyeScan at h
  repeat' split at h
  all_goals first
    | (injection h with h; subst h; simp)
    | cases h

@[simp] theorem State.runSnapshot_handOver (s : State) (l : LegId) (e : Entry) :
    (State.runSnapshot s l e).handOver = s.handOver := by
  unfold State.runSnapshot
  (repeat' split) <;> simp

@[simp] theorem State.moveSwitchLane_handOver (old s : State) (sw : LaneId) :
    (State.moveSwitchLane old s sw).handOver = s.handOver := by
  unfold State.moveSwitchLane
  dsimp only
  (repeat' split) <;> simp

@[simp] theorem State.applyMap_handOver (s : State) (map : Vector MapEntry 8) :
    (State.applyMap s map).handOver = s.handOver := by
  unfold State.applyMap
  rw [foldl_keeps State.handOver _ (fun t i => State.maskPair_handOver t i),
    foldl_keeps State.handOver _ (fun t sw => State.moveSwitchLane_handOver s t sw)]

@[simp] theorem State.runRemap_handOver (s : State) (e : Entry) : (State.runRemap s e).handOver = s.handOver := by
  unfold State.runRemap
  dsimp only
  (repeat' split) <;> simp

theorem State.runLegTask_handOver (s : State) (l : LegId) (e : Entry) (t : State)
    (h : State.runLegTask s l e = some t) :
    t.handOver = s.handOver := by
  unfold State.runLegTask at h
  repeat' split at h
  all_goals first
    | exact State.runLegRetune_handOver s l e t h
    | exact State.runSetTaps_handOver s l e t h
    | exact State.runEyeScan_handOver s l e t h
    | (injection h with h; subst h; simp)

@[simp] theorem State.deferAt_handOver (s : State) (l : LegId) (k : Nat) :
    (State.deferAt s l k).handOver = s.handOver :=
  rfl
theorem State.attemptAt_handOver (s : State) (l : LegId) (k : Nat) (e : Entry) (t : State)
    (h : State.attemptAt s l k e = some t) :
    t.handOver = s.handOver := by
  rw [State.runLegTask_handOver _ l e t h, State.setQueue_handOver]

@[simp] theorem State.passEntries_handOver (l : LegId) (n : Nat) (s : State) :
    (State.passEntries l n s).handOver = s.handOver := by
  induction n generalizing s with
  | zero => rfl
  | succ n ih =>
    unfold State.passEntries
    split
    · split
      · split
        · next h => rw [ih, State.attemptAt_handOver _ _ _ _ _ h]
        · exact State.deferAt_handOver s l 1
      · rfl
    · rfl

@[simp] theorem State.supersedeAwaited_handOver (s : State) (l : LegId) (es : List Entry) :
    (State.supersedeAwaited s l es).handOver = s.handOver :=
  foldl_keeps State.handOver _ (fun s e => State.endTask_handOver s e _ .superseded) _ s

@[simp] theorem State.supersedePosted_handOver (s : State) (es : List Entry) :
    (State.supersedePosted s es).handOver = s.handOver := by
  unfold State.supersedePosted
  dsimp only
  rw [foldl_keeps State.handOver _ (fun s e => State.endTask_handOver s e [] .superseded)]

theorem State.passPark_handOver (s : State) (l : LegId) (t : State) (h : State.passPark s l = some t) :
    t.handOver = s.handOver := by
  unfold State.passPark at h
  repeat' split at h
  all_goals first
    | (injection h with h; subst h; simp)
    | cases h

@[simp] theorem State.examineRounds_handOver (l : LegId) (n : Nat) (s : State) :
    (State.examineRounds l n s).handOver = s.handOver := by
  induction n generalizing s with
  | zero => rfl
  | succ n ih =>
    unfold State.examineRounds
    split
    · rfl
    · split
      · next h => rw [ih, State.attemptAt_handOver _ _ _ _ _ h]
      · dsimp only
        split
        · next h => rw [ih, State.passPark_handOver _ _ _ h, State.passEntries_handOver, State.deferAt_handOver]
        · rw [State.passEntries_handOver, State.deferAt_handOver]

@[simp] theorem State.examineLeg_handOver (s : State) (l : LegId) :
    (State.examineLeg s l).handOver = s.handOver := by
  simp [State.examineLeg]

@[simp] theorem State.examineLegs_handOver (s : State) : (State.examineLegs s).handOver = s.handOver := by
  unfold State.examineLegs
  dsimp only
  rw [foldl_keeps State.handOver _ (fun s l => State.examineLeg_handOver s l)]

@[simp] theorem State.supersedeDeferred_handOver (s : State) :
    (State.supersedeDeferred s).handOver = s.handOver := by
  unfold State.supersedeDeferred
  dsimp only
  rw [State.supersedePosted_handOver, foldl_keeps State.handOver _ (fun s l => by simp)]

@[simp] theorem State.giveUpEntry_handOver (s : State) (l : LegId) (k : Nat) (e : Entry) :
    (State.giveUpEntry s l k e).handOver = s.handOver := by
  simp [State.giveUpEntry]

@[simp] theorem State.cancelInLeg_handOver (s : State) (n : SlotId) (l : LegId) :
    (State.cancelInLeg s n l).handOver = s.handOver := by
  unfold State.cancelInLeg
  (repeat' split) <;> simp

@[simp] theorem State.takeCancel_handOver (s : State) (n : SlotId) :
    (State.takeCancel s n).handOver = s.handOver := by
  unfold State.takeCancel
  dsimp only
  (repeat' split) <;> simp

@[simp] theorem State.finishPowerWait_handOver (s : State) (st : Status) :
    (State.finishPowerWait s st).handOver = s.handOver := by
  unfold State.finishPowerWait
  rw [foldl_keeps State.handOver _ (fun t n => State.endAwaited_handOver t n _ _)]

@[simp] theorem State.powerLow_handOver (s : State) (waitStatus : Status) :
    (State.powerLow s waitStatus).handOver = s.handOver := by
  unfold State.powerLow
  dsimp only
  rw [State.examineLegs_handOver, State.raise_handOver, State.finishPowerWait_handOver,
    State.supersedeDeferred_handOver,
    foldl_keeps State.handOver _ (fun s l => State.parkByPower_handOver s l), State.modAllLanes_handOver]

@[simp] theorem State.tryRise_handOver (s : State) : (State.tryRise s).handOver = s.handOver := by
  unfold State.tryRise
  split <;> simp

@[simp] theorem State.riseLeg_handOver (s : State) (l : LegId) : (State.riseLeg s l).handOver = s.handOver := by
  unfold State.riseLeg
  split <;> simp

@[simp] theorem State.completeRise_handOver (s : State) : (State.completeRise s).handOver = s.handOver := by
  unfold State.completeRise
  dsimp only
  rw [State.examineLegs_handOver, State.finishPowerWait_handOver, 
    foldl_keeps State.handOver _ (fun s l => State.riseLeg_handOver s l), State.raise_handOver]

@[simp] theorem State.runPower_handOver (s : State) (e : Entry) : (State.runPower s e).handOver = s.handOver := by
  unfold State.runPower
  dsimp only
  (repeat' split) <;> simp

@[simp] theorem State.runDeviceTask_handOver (s : State) (e : Entry) :
    (State.runDeviceTask s e).handOver = s.handOver := by
  unfold State.runDeviceTask
  (repeat' split) <;> simp

@[simp] theorem State.examineDeviceRounds_handOver (n : Nat) (s : State) :
    (State.examineDeviceRounds n s).handOver = s.handOver := by
  induction n generalizing s with
  | zero => rfl
  | succ n ih =>
    unfold State.examineDeviceRounds
    split
    · rfl
    · rw [ih, State.runDeviceTask_handOver]

@[simp] theorem State.examineDevice_handOver (s : State) : (State.examineDevice s).handOver = s.handOver := by
  simp [State.examineDevice]

/-! ### The intake -/

@[simp] theorem State.takeTask_handOver (s : State) (n : SlotId) (k : TaskKind) (t : Target) :
    (s.takeTask n k t).handOver = s.handOver.filter (fun m => m ≠ n) := by
  have h : ∀ a, (s.takeSlot n a).handOver = s.handOver.filter (fun m => m ≠ n) := by
    intro a
    cases a <;> rfl
  cases t <;> simp [State.takeTask, h]

@[simp] theorem State.refuseSlot_handOver (s : State) (n : SlotId) (st : Status) :
    (s.refuseSlot n st).handOver = s.handOver.filter (fun m => m ≠ n) := by
  unfold State.refuseSlot
  dsimp only
  split <;> simp [State.leaveList]

/-- R138: with no slot waiting the intake does nothing. -/
theorem State.intake_nil {s : State} (h : s.handOver = []) : s.intake = s := by
  simp [State.intake, State.intakeRounds, State.intakePass, h]

/-- R138: what the intake does with the one slot that waits, where that takes the slot out of the list. -/
theorem State.intake_single {s : State} {n : SlotId} (h : s.handOver = [n]) (hh : s.intakeHeld = false)
    (hc : (s.considerSlot n).handOver = []) : s.intake = s.considerSlot n := by
  simp [State.intake, State.intakeRounds, h, hh, hc, State.intakePass]

/-- R138, R139: the one slot that waits is taken when its header passes and the queue has room. -/
theorem State.intake_takes {s : State} {n : SlotId} {k : TaskKind} {t : Target} (h : s.handOver = [n])
    (hh : s.intakeHeld = false) (hc : s.checkSlot n = .ok (k, t)) (hr : s.hasRoom t = true) :
    s.intake = s.takeTask n k t := by
  have e : s.considerSlot n = s.takeTask n k t := by
    simp [State.considerSlot, hc, hr, State.olderWaits, h]
  rw [State.intake_single h hh (by rw [e]; simp [h]), e]

/-- R138: the one slot that waits is refused when its header fails a check. -/
theorem State.intake_refuses {s : State} {n : SlotId} {st : Status} (h : s.handOver = [n])
    (hh : s.intakeHeld = false) (hc : s.checkSlot n = .error st) : s.intake = s.refuseSlot n st := by
  have e : s.considerSlot n = s.refuseSlot n st := by simp [State.considerSlot, hc]
  rw [State.intake_single h hh (by rw [e]; simp [h]), e]

end Sys2Proof.Machine
end

