-- ==== Sys2Proof/Laws/Line.lean ====
section
/-! SUPPORT. What a whole write transaction of the management line does: its start, its offset, its stored bytes and its
action bytes (R130, R133). -/

namespace Sys2Proof.Machine

variable {s : State}

/-- A line interface that is free answers. -/
theorem State.LineFree.listens (h : s.LineFree) : s.listens = true := by
  obtain ⟨h1, h2, -, -⟩ := h
  simp [State.listens, h1, h2]

/-- With no transaction open, an end changes nothing. -/
theorem State.endTransaction_of_none (hw : s.writeOpen = none) (hr : s.readOpen = none) : s.endTransaction = s := by
  simp [State.endTransaction, State.endWrite, State.endRead, hw, hr]

/-- R129, R130: a write transaction to the part's own address opens. -/
theorem State.startWrite_of_free (h : s.LineFree) :
    s.startWrite Config.targetAddress = { s with acknowledged := true, writeOpen := some ⟨none, false, []⟩ } := by
  simp [State.startWrite, State.endTransaction_of_none h.2.2.1 h.2.2.2, h.listens]

/-- R130: the two offset bytes of a write transaction set the current offset. -/
theorem State.sendBytes_offset (a : Nat) (data : List Byte) :
    State.sendBytes { s with acknowledged := true, writeOpen := some ⟨none, false, []⟩ } (offsetBytes a ++ data) =
      State.sendBytes
        { s with
          acknowledged := true, offset := BitVec.ofNat 16 a
          writeOpen := some ⟨some (BitVec.ofNat 8 (a / 256)), true, []⟩ }
        data := by
  have h : BitVec.ofNat 8 (a / 256) ++ BitVec.ofNat 8 a = BitVec.ofNat 16 a := by
    apply BitVec.eq_of_toNat_eq
    rw [BitVec.toNat_append, ← Nat.shiftLeft_add_eq_or_of_lt (BitVec.isLt _)]
    simp only [BitVec.toNat_ofNat, Nat.shiftLeft_eq]
    omega
  simp [State.sendBytes, offsetBytes, State.receiveByte, h]

/-- A host write is its data sent from the offset on, and the end of the transaction. -/
theorem State.hostWrite_eq (h : s.LineFree) (a : Nat) (data : List Byte) :
    s.hostWrite a data = (State.sendBytes
      { s with
          acknowledged := true, offset := BitVec.ofNat 16 a
          writeOpen := some ⟨some (BitVec.ofNat 8 (a / 256)), true, []⟩ }
      data).endTransaction := by
  rw [State.hostWrite, State.transact, State.startWrite_of_free h, State.sendBytes_offset]

/-- R133: a host write of one action byte acts on it, with the line interface after the transaction. -/
theorem State.hostWrite_action (h : s.LineFree) (a : Nat) (v : Byte) (ha : isActionOffset a = true) (hlt : a < 0x2000)
    (hr : a < 0x400 ∨ s.device ≠ .exchangeResetting) :
    s.hostWrite a [v] = State.endRead
      (State.act { s with acknowledged := true, offset := BitVec.ofNat 16 a + 1, writeOpen := none } (a, v)) := by
  have hm : a % 65536 = a := Nat.mod_eq_of_lt (by omega)
  have hn : ¬(0x400 ≤ a ∧ s.device = .exchangeResetting) := by
    rintro ⟨h1, h2⟩
    rcases hr with h3 | h3
    · omega
    · exact h3 h2
  rw [State.hostWrite_eq h]
  simp [State.sendBytes, State.receiveByte, State.receiveData, BitVec.toNat_ofNat, hm, ha, hn, addAction,
    State.endTransaction, State.endWrite]

/-- R133: a data byte at an offset that is no action byte is stored or ignored at once. -/
theorem State.receiveData_stored (t : WriteTransaction) (v : Byte) (ha : isActionOffset s.offset.toNat = false) :
    s.receiveData t v = State.storeByte { s with offset := s.offset + 1 } s.offset.toNat v := by
  simp [State.receiveData, ha]

/-- R142 and R143: while an exchange reset is in progress a slot's or a page's byte acts on nothing. -/
theorem State.receiveData_ignored (t : WriteTransaction) (v : Byte) (h : 0x400 ≤ s.offset.toNat)
    (ha : isActionOffset s.offset.toNat = true) (hd : s.device = .exchangeResetting) :
    s.receiveData t v = { s with offset := s.offset + 1 } := by
  simp [State.receiveData, ha, h, hd]

/-- A line interface that does not answer ignores a whole host write: it leaves only the failed acknowledgement. -/
theorem State.hostWrite_of_deaf (a : Nat) (data : List Byte) (hl : s.listens = false) (hw : s.writeOpen = none)
    (hr : s.readOpen = none) : s.hostWrite a data = { s with acknowledged := false } := by
  have h0 : ∀ (xs : List Byte) (t : State), t.writeOpen = none → State.sendBytes t xs = t := by
    intro xs
    induction xs with
    | nil => intro t _; rfl
    | cons x xs ih =>
      intro t ht
      have hx : t.receiveByte x = t := by simp [State.receiveByte, ht]
      rw [State.sendBytes, List.foldl_cons, hx]
      exact ih t ht
  rw [State.hostWrite, State.transact, State.startWrite, State.endTransaction_of_none hw hr]
  simp only [hl, Bool.false_eq_true, false_and, if_false]
  rw [h0 _ { s with acknowledged := false } hw]
  exact State.endTransaction_of_none (s := { s with acknowledged := false }) hw hr

/-! ### The bytes of a slot -/

/-- Offset k of slot n is in the slot area, is offset k of that slot, and is an action byte exactly at 0x0F. -/
theorem slotOffset (n : SlotId) (k : Nat) (h : k < 0x100) :
    (slotBase n + k - 0x400) / 0x100 = n.val ∧ (slotBase n + k - 0x400) % 0x100 = k ∧ 0x400 ≤ slotBase n + k ∧
    slotBase n + k < 0x1000 ∧ isActionOffset (slotBase n + k) = decide (k = 0x0F) := by
  have hn := n.isLt
  refine ⟨by simp only [slotBase]; omega, by simp only [slotBase]; omega, by simp only [slotBase]; omega,
    by simp only [slotBase]; omega, ?_⟩
  rw [Bool.eq_iff_iff]
  simp only [isActionOffset, Bool.or_eq_true, Bool.and_eq_true, decide_eq_true_eq, beq_iff_eq]
  simp only [slotBase]
  omega

/-- R135: a byte for a stored field of an EMPTY slot is stored. -/
theorem State.receiveByte_slot (t : WriteTransaction) (n : SlotId) (k : Nat) (v : Byte) (hw : s.writeOpen = some t)
    (ht : t.offsetSet = true) (ho : s.offset = BitVec.ofNat 16 (slotBase n + k))
    (hk : k < 6 ∨ (0x10 ≤ k ∧ k < 0x20)) (hd : s.device ≠ .exchangeResetting) (hs : (s.slot n).state = .empty) :
    s.receiveByte v =
      { s with offset := BitVec.ofNat 16 (slotBase n + (k + 1)), mem := s.mem.write (slotBase n + k) v } := by
  obtain ⟨h1, h2, h3, h4, h5⟩ := slotOffset n k (by omega)
  have hm : s.offset.toNat = slotBase n + k := by rw [ho, BitVec.toNat_ofNat]; omega
  have hn : s.offset + 1 = BitVec.ofNat 16 (slotBase n + (k + 1)) := by
    apply BitVec.eq_of_toNat_eq
    rw [BitVec.toNat_add, hm, BitVec.toNat_ofNat]
    rfl
  have hf : Fin.ofNat 12 n.val = n := Fin.ext (Nat.mod_eq_of_lt n.isLt)
  have hi : isStoredSlotOffset k = true := by
    simp only [isStoredSlotOffset, Bool.or_eq_true, Bool.and_eq_true, decide_eq_true_eq]; omega
  have hs' : (State.slot { s with offset := BitVec.ofNat 16 (slotBase n + (k + 1)) } n).state = .empty := hs
  have hb : ¬(0x14 ≤ slotBase n + k ∧ slotBase n + k < 0x18) := by omega
  rw [State.receiveByte, hw]
  simp only [ht, if_true]
  rw [State.receiveData_stored t v (by rw [hm, h5]; exact decide_eq_false (by omega)), hm, hn]
  simp only [State.storeByte, hb, if_false, h1, h2, h3, h4, hf, hi, hs', hd, ne_eq, not_false_eq_true,
    and_self, if_true]
  simp only [hw]

/-- R132, R176: a byte for a field of a slot that the host does not write, or that no table lists, is ignored. -/
theorem State.receiveByte_slot_ignored (t : WriteTransaction) (n : SlotId) (k : Nat) (v : Byte)
    (hw : s.writeOpen = some t) (ht : t.offsetSet = true) (ho : s.offset = BitVec.ofNat 16 (slotBase n + k))
    (hk : 6 ≤ k ∧ k < 0x0F ∨ (0x20 ≤ k ∧ k < 0x100)) :
    s.receiveByte v = { s with offset := BitVec.ofNat 16 (slotBase n + (k + 1)) } := by
  obtain ⟨h1, h2, h3, h4, h5⟩ := slotOffset n k (by omega)
  have hm : s.offset.toNat = slotBase n + k := by rw [ho, BitVec.toNat_ofNat]; omega
  have hn : s.offset + 1 = BitVec.ofNat 16 (slotBase n + (k + 1)) := by
    apply BitVec.eq_of_toNat_eq
    rw [BitVec.toNat_add, hm, BitVec.toNat_ofNat]
    rfl
  have hi : isStoredSlotOffset k = false := by
    simp only [isStoredSlotOffset, Bool.or_eq_false_iff, Bool.and_eq_false_iff, decide_eq_false_iff_not]; omega
  have hb : ¬(0x14 ≤ slotBase n + k ∧ slotBase n + k < 0x18) := by omega
  rw [State.receiveByte, hw]
  simp only [ht, if_true]
  rw [State.receiveData_stored t v (by rw [hm, h5]; exact decide_eq_false (by omega)), hm, hn]
  simp [State.storeByte, hb, h2, hi, hw]

/-- R133: the hand-over byte of a slot waits for the end of the transaction. -/
theorem State.receiveByte_handOver (t : WriteTransaction) (n : SlotId) (v : Byte) (hw : s.writeOpen = some t)
    (ht : t.offsetSet = true) (ho : s.offset = BitVec.ofNat 16 (slotBase n + 0x0F))
    (hd : s.device ≠ .exchangeResetting) :
    s.receiveByte v =
      { s with
        offset := BitVec.ofNat 16 (slotBase n + 0x10)
        writeOpen := some { t with actions := addAction (slotBase n + 0x0F) v t.actions } } := by
  obtain ⟨h1, h2, h3, h4, h5⟩ := slotOffset n 0x0F (by omega)
  have hm : s.offset.toNat = slotBase n + 0x0F := by rw [ho, BitVec.toNat_ofNat]; omega
  have hn : s.offset + 1 = BitVec.ofNat 16 (slotBase n + 0x10) := by
    apply BitVec.eq_of_toNat_eq
    rw [BitVec.toNat_add, hm, BitVec.toNat_ofNat]
    rfl
  rw [State.receiveByte, hw]
  simp only [ht, if_true, State.receiveData, hm, hn, h5, hd, and_false, if_false, decide_true]

/-- Bytes for stored fields of an EMPTY slot, at successive offsets, are stored one after the other. -/
theorem State.sendBytes_stored (t : WriteTransaction) (n : SlotId) (ht : t.offsetSet = true) (bs : List Byte) :
    ∀ (k : Nat) (s : State), s.writeOpen = some t → s.offset = BitVec.ofNat 16 (slotBase n + k) →
      (k + bs.length ≤ 6 ∨ (0x10 ≤ k ∧ k + bs.length ≤ 0x20)) → s.device ≠ .exchangeResetting →
      (s.slot n).state = .empty →
      s.sendBytes bs =
        { s with
          offset := BitVec.ofNat 16 (slotBase n + (k + bs.length)), mem := s.mem.writeBytes (slotBase n + k) bs } := by
  induction bs with
  | nil => intro k s _ ho _ _ _; simp [State.sendBytes, Memory.writeBytes, ← ho]
  | cons v bs ih =>
    intro k s hw ho hk hd hs
    rw [List.length_cons] at hk
    rw [State.sendBytes, List.foldl_cons, State.receiveByte_slot t n k v hw ht ho (by omega) hd hs]
    have := ih (k + 1) { s with
      offset := BitVec.ofNat 16 (slotBase n + (k + 1)), mem := s.mem.write (slotBase n + k) v } hw rfl (by omega) hd hs
    rw [State.sendBytes] at this
    rw [this]
    simp [Memory.writeBytes, Nat.add_assoc, Nat.add_comm 1]

/-- Bytes for fields of a slot that the host does not write, at successive offsets, are ignored. -/
theorem State.sendBytes_ignored (t : WriteTransaction) (n : SlotId) (ht : t.offsetSet = true) (bs : List Byte) :
    ∀ (k : Nat) (s : State), s.writeOpen = some t → s.offset = BitVec.ofNat 16 (slotBase n + k) →
      (6 ≤ k ∧ k + bs.length ≤ 0x0F ∨ (0x20 ≤ k ∧ k + bs.length ≤ 0x100)) →
      s.sendBytes bs = { s with offset := BitVec.ofNat 16 (slotBase n + (k + bs.length)) } := by
  induction bs with
  | nil => intro k s _ ho _; simp [State.sendBytes, ← ho]
  | cons v bs ih =>
    intro k s hw ho hk
    rw [List.length_cons] at hk
    rw [State.sendBytes, List.foldl_cons, State.receiveByte_slot_ignored t n k v hw ht ho (by omega)]
    have := ih (k + 1) { s with offset := BitVec.ofNat 16 (slotBase n + (k + 1)) } hw rfl (by omega)
    rw [State.sendBytes] at this
    rw [this]
    simp [Nat.add_assoc, Nat.add_comm 1]

/-- Bytes sent in two parts. -/
theorem State.sendBytes_append (xs ys : List Byte) : s.sendBytes (xs ++ ys) = (s.sendBytes xs).sendBytes ys :=
  List.foldl_append

/-- A task handed over in an EMPTY slot: its header and arguments are stored, then the hand-over byte acts. -/
theorem State.handOverTask_eq (n : SlotId) (k : TaskKind) (h : TaskHeader) (args : List Byte) (hf : s.LineFree)
    (hr : s.device ≠ .exchangeResetting) (hs : (s.slot n).state = .empty) (hl : args.length ≤ 0x10) :
    s.handOverTask n k h args = State.endRead (State.act
      { s with
        acknowledged := true, offset := BitVec.ofNat 16 (slotBase n + (0x10 + args.length)), writeOpen := none
        mem := (s.mem.writeBytes (slotBase n) [k.code, h.cls, h.leg, h.patience, h.label0, h.label1]).writeBytes
          (slotBase n + 0x10) args } (slotBase n + 0x0F, 1)) := by
  let t : WriteTransaction := ⟨some (BitVec.ofNat 8 (slotBase n / 256)), true, []⟩
  let t' : WriteTransaction := { t with actions := [(slotBase n + 0x0F, 1)] }
  let header : List Byte := [k.code, h.cls, h.leg, h.patience, h.label0, h.label1]
  let zeros : List Byte := [0, 0, 0, 0, 0, 0, 0, 0, 0]
  have hb : taskBytes k h args = header ++ (zeros ++ ([1] ++ args)) := rfl
  let s0 : State := { s with acknowledged := true, offset := BitVec.ofNat 16 (slotBase n), writeOpen := some t }
  let s1 : State := { s0 with
    offset := BitVec.ofNat 16 (slotBase n + 6), mem := s.mem.writeBytes (slotBase n) header }
  let s2 : State := { s1 with offset := BitVec.ofNat 16 (slotBase n + 0x0F) }
  let s3 : State := { s2 with offset := BitVec.ofNat 16 (slotBase n + 0x10), writeOpen := some t' }
  let s4 : State := { s3 with
    offset := BitVec.ofNat 16 (slotBase n + (0x10 + args.length)), mem := s3.mem.writeBytes (slotBase n + 0x10) args }
  have e1 : s0.sendBytes header = s1 := State.sendBytes_stored t n rfl header 0 s0 rfl rfl (.inl (Nat.le_refl 6)) hr hs
  have e2 : s1.sendBytes zeros = s2 := State.sendBytes_ignored t n rfl zeros 6 s1 rfl rfl (.inl ⟨by decide, by decide⟩)
  have e3 : s2.sendBytes [1] = s3 := State.receiveByte_handOver (s := s2) t n 1 rfl rfl rfl hr
  have e4 : s3.sendBytes args = s4 :=
    State.sendBytes_stored t' n rfl args 0x10 s3 rfl rfl (.inr ⟨by decide, by omega⟩) hr hs
  rw [State.handOverTask, State.hostWrite_eq hf, hb]
  show (s0.sendBytes _).endTransaction = _
  rw [State.sendBytes_append, State.sendBytes_append, State.sendBytes_append, e1, e2, e3, e4]
  rfl

/-- R133: the action byte of a slot's hand-over byte. -/
theorem State.act_handOver (n : SlotId) (v : Byte) : s.act (slotBase n + 0x0F, v) = s.writeHandOver n v := by
  obtain ⟨h1, -, h3, h4, -⟩ := slotOffset n 0x0F (by omega)
  have hf : Fin.ofNat 12 n.val = n := Fin.ext (Nat.mod_eq_of_lt n.isLt)
  have e1 : ¬slotBase n + 0x0F < 0x14 := by omega
  have e2 : slotBase n + 0x0F ≠ 0x18 := by omega
  have e3 : slotBase n + 0x0F ≠ 0x5F := by omega
  simp only [State.act, e1, e2, e3, h1, h4, hf, if_false, if_true]

/-- R136: FILLED written to an EMPTY slot puts it into the list, and the intake examines the list. -/
theorem State.writeHandOver_fills (n : SlotId) (hr : s.device ≠ .exchangeResetting) (hs : (s.slot n).state = .empty) :
    s.writeHandOver n 1 =
      (State.modSlot { s with handOver := s.handOver ++ [n] } n (fun c => { c with state := .filled })).intake := by
  have h1 : (1 : Byte).toNat = 1 := rfl
  simp only [State.writeHandOver, hr, if_false, hs, h1]

/-- The state in which a task stands in its slot, FILLED, before the intake examines the list. -/
def State.filledTask (s : State) (n : SlotId) (k : TaskKind) (h : TaskHeader) (args : List Byte) : State :=
  { s with
    acknowledged := true, offset := BitVec.ofNat 16 (slotBase n + (0x10 + args.length)), writeOpen := none
    mem := (s.mem.writeBytes (slotBase n) [k.code, h.cls, h.leg, h.patience, h.label0, h.label1]).writeBytes
      (slotBase n + 0x10) args
    handOver := s.handOver ++ [n] }.modSlot n (fun c => { c with state := .filled })

/-- A task handed over in an EMPTY slot is an examination of the list by the intake, with the task's slot at its end. -/
theorem State.handOverTask_intake (n : SlotId) (k : TaskKind) (h : TaskHeader) (args : List Byte) (hf : s.LineFree)
    (hr : s.device ≠ .exchangeResetting) (hs : (s.slot n).state = .empty) (hl : args.length ≤ 0x10) :
    s.handOverTask n k h args = (s.filledTask n k h args).intake := by
  rw [State.handOverTask_eq n k h args hf hr hs hl, State.act_handOver]
  refine (congrArg State.endRead (State.writeHandOver_fills n ?_ ?_)).trans ?_
  · exact hr
  · exact hs
  show State.endRead (s.filledTask n k h args).intake = _
  have h0 : (s.filledTask n k h args).intake.readOpen = none :=
    (State.readOpen_of_fixed (State.intake_fixed _)).trans hf.2.2.2
  rw [State.endRead, h0]

end Sys2Proof.Machine
end

