-- ==== Sys2Proof/Laws/Memory.lean ====
section
/-! SUPPORT. The laws of the byte memory: a read after a write gives what was written, every other byte keeps, and every
operation keeps the canonical form. -/

namespace Sys2Proof.Machine

/-- The canonical form of a list with a first entry. -/
theorem Memory.wf_cons (c : Host.Cell) (m : Memory) :
    Memory.wf (c :: m) = true ↔ c.2 ≠ 0 ∧ (∀ d ∈ m, c.1 < d.1) ∧ Memory.wf m = true := by
  simp [Memory.wf, and_assoc]

/-- A byte below every listed offset reads 0. -/
theorem Memory.read_of_lt (m : Memory) (a : Nat) (h : ∀ d ∈ m, a < d.1) : Memory.read m a = 0 := by
  induction m with
  | nil => rfl
  | cons c m ih =>
    have hc := h c (by simp)
    simp only [Memory.read]
    rw [if_neg (by omega), ih (fun d hd => h d (by simp [hd]))]

/-- The offsets that a write leaves listed: the old ones and the one written. -/
theorem Memory.mem_write (m : Memory) (a : Nat) (v : Byte) (d : Host.Cell) (h : d ∈ Memory.write m a v) :
    d ∈ m ∨ d = (a, v) := by
  induction m with
  | nil =>
    simp only [Memory.write] at h
    split at h <;> simp_all
  | cons c m ih =>
    simp only [Memory.write] at h
    split at h
    · split at h
      · exact .inl h
      · simp at h ⊢; tauto
    · split at h
      · split at h
        · exact .inl (by simp [h])
        · simp at h ⊢; tauto
      · simp at h ⊢
        rcases h with h | h
        · exact .inl (.inl h)
        · rcases ih h with h | h
          · exact .inl (.inr h)
          · exact .inr h

/-- A write keeps the canonical form. -/
theorem Memory.wf_write (m : Memory) (a : Nat) (v : Byte) (h : Memory.wf m = true) :
    Memory.wf (Memory.write m a v) = true := by
  induction m with
  | nil =>
    simp only [Memory.write]
    split
    · rfl
    · simpa [Memory.wf] using ‹¬v = 0›
  | cons c m ih =>
    obtain ⟨h0, h1, h2⟩ := (Memory.wf_cons c m).mp h
    by_cases hac : a < c.1
    · by_cases hv : v = 0
      · simp [Memory.write, hac, hv, h]
      · simp only [Memory.write, hac, hv, if_true, if_false]
        refine (Memory.wf_cons _ _).mpr ⟨hv, ?_, h⟩
        intro d hd
        rcases List.mem_cons.mp hd with rfl | hd
        · exact hac
        · exact Nat.lt_trans hac (h1 d hd)
    · by_cases hae : a = c.1
      · by_cases hv : v = 0
        · simp [Memory.write, hae, hv, h2]
        · simp only [Memory.write, hae, hv, if_true, if_false, Nat.lt_irrefl]
          exact (Memory.wf_cons _ _).mpr ⟨hv, h1, h2⟩
      · simp only [Memory.write, hac, hae, if_false]
        refine (Memory.wf_cons _ _).mpr ⟨h0, ?_, ih h2⟩
        intro d hd
        rcases Memory.mem_write m a v d hd with hd | rfl
        · exact h1 d hd
        · simp; omega

/-- A read after a write: the byte written, or, elsewhere, the byte as it was. -/
theorem Memory.read_write (m : Memory) (a b : Nat) (v : Byte) (h : Memory.wf m = true) :
    Memory.read (Memory.write m a v) b = if b = a then v else Memory.read m b := by
  induction m with
  | nil =>
    by_cases hv : v = 0
    · subst hv; simp [Memory.write, Memory.read]
    · simp only [Memory.write, if_neg hv, Memory.read]
      by_cases hb : b = a
      · rw [if_pos hb.symm, if_pos hb]
      · rw [if_neg (Ne.symm hb), if_neg hb]
  | cons c m ih =>
    obtain ⟨h0, h1, h2⟩ := (Memory.wf_cons c m).mp h
    by_cases hac : a < c.1
    · by_cases hv : v = 0
      · subst hv
        simp only [Memory.write, hac, if_true]
        by_cases hb : b = a
        · subst hb
          rw [if_pos rfl]
          refine Memory.read_of_lt _ _ ?_
          intro d hd
          rcases List.mem_cons.mp hd with rfl | hd
          · exact hac
          · exact Nat.lt_trans hac (h1 d hd)
        · rw [if_neg hb]
      · simp only [Memory.write, hac, hv, if_true, if_false]
        by_cases hb : b = a
        · simp [Memory.read, hb]
        · rw [if_neg hb, Memory.read, if_neg (Ne.symm hb)]
    · by_cases hae : a = c.1
      · by_cases hv : v = 0
        · subst hv
          simp only [Memory.write, hae, Nat.lt_irrefl, if_true, if_false]
          by_cases hb : b = c.1
          · subst hb
            rw [if_pos rfl]; exact Memory.read_of_lt _ _ h1
          · rw [if_neg hb, Memory.read, if_neg (Ne.symm hb)]
        · simp only [Memory.write, hae, hv, Nat.lt_irrefl, if_true, if_false]
          by_cases hb : b = c.1
          · simp [Memory.read, hb]
          · rw [if_neg hb, Memory.read, if_neg (Ne.symm hb), Memory.read, if_neg (Ne.symm hb)]
      · simp only [Memory.write, hac, hae, if_false, Memory.read, ih h2]
        by_cases hc : c.1 = b
        · rw [if_pos hc, if_pos hc, if_neg (by omega)]
        · rw [if_neg hc, if_neg hc]

/-- Successive writes keep the canonical form. -/
theorem Memory.wf_writeBytes (bs : List Byte) (m : Memory) (a : Nat) (h : Memory.wf m = true) :
    Memory.wf (Memory.writeBytes m a bs) = true := by
  induction bs generalizing m a with
  | nil => exact h
  | cons v vs ih => exact ih _ _ (Memory.wf_write m a v h)

/-- A read after successive writes. -/
theorem Memory.read_writeBytes (bs : List Byte) (m : Memory) (a b : Nat) (h : Memory.wf m = true) :
    Memory.read (Memory.writeBytes m a bs) b =
      if a ≤ b ∧ b < a + bs.length then bs.getD (b - a) 0 else Memory.read m b := by
  induction bs generalizing m a with
  | nil => simp [Memory.writeBytes]
  | cons v vs ih =>
    rw [Memory.writeBytes, ih _ _ (Memory.wf_write m a v h), Memory.read_write m a b v h]
    by_cases hb : b = a
    · subst hb; simp
    · rw [if_neg hb]
      by_cases hr : a ≤ b ∧ b < a + (v :: vs).length
      · have : b - a = (b - (a + 1)) + 1 := by omega
        rw [if_pos hr, if_pos (by simp at hr ⊢; omega), this]; simp
      · rw [if_neg hr, if_neg (by simp at hr ⊢; omega)]

/-- Dropping listed bytes keeps the canonical form. -/
theorem Memory.wf_filter (p : Host.Cell → Bool) (m : Memory) (h : Memory.wf m = true) :
    Memory.wf (m.filter p) = true := by
  induction m with
  | nil => rfl
  | cons c m ih =>
    obtain ⟨h0, h1, h2⟩ := (Memory.wf_cons c m).mp h
    simp only [List.filter_cons]
    split
    · exact (Memory.wf_cons _ _).mpr ⟨h0, fun d hd => h1 d (List.mem_of_mem_filter hd), ih h2⟩
    · exact ih h2

/-- Clearing keeps the canonical form. -/
theorem Memory.wf_clear (m : Memory) (a n : Nat) (h : Memory.wf m = true) : Memory.wf (m.clear a n) = true :=
  Memory.wf_filter _ m h

/-- A read after clearing: 0 in the range cleared, elsewhere the byte as it was. -/
theorem Memory.read_clear (m : Memory) (a n b : Nat) :
    Memory.read (m.clear a n) b = if a ≤ b ∧ b < a + n then 0 else Memory.read m b := by
  induction m with
  | nil => simp [Memory.clear, Memory.read]
  | cons c m ih =>
    simp only [Memory.clear, List.filter_cons] at ih ⊢
    by_cases hc : a ≤ c.1 ∧ c.1 < a + n
    · rw [if_neg (by simp [hc])]
      rw [ih]
      by_cases hb : c.1 = b
      · subst hb; rw [if_pos hc, if_pos hc]
      · simp only [Memory.read, if_neg hb]
    · rw [if_pos (by simp; omega)]
      simp only [Memory.read]
      rw [ih]
      by_cases hb : c.1 = b
      · subst hb; rw [if_pos rfl, if_pos rfl, if_neg hc]
      · rw [if_neg hb, if_neg hb]

end Sys2Proof.Machine
end

