-- ==== Sys2Proof/Laws/Reset.lean ====
section
/-! SUPPORT. What the assertion of RESET_L leaves of the pages' cells (R115, R173). -/

namespace Sys2Proof.Machine

/-- A byte after one page's clearing: 0 in its cells if its scan ran, elsewhere as it was. -/
theorem State.read_clearStopped (s : State) (m : Memory) (p : PageId) (b : Nat) :
    Memory.read (s.clearStopped m p) b =
      match (s.page p).state with
      | .busy _ _ => if pageBase p + 0x200 ≤ b ∧ b < pageBase p + 0x400 then 0 else Memory.read m b
      | _ => Memory.read m b := by
  unfold State.clearStopped
  cases (s.page p).state <;> simp [Memory.read_clear, Nat.add_assoc]

/-- Clearing the cells of stopped scans keeps the canonical form. -/
theorem State.wf_clearStopped (s : State) (ps : List PageId) (m : Memory) (h : m.wf = true) :
    (ps.foldl s.clearStopped m).wf = true := by
  induction ps generalizing m with
  | nil => exact h
  | cons p ps ih =>
    refine ih _ ?_
    unfold State.clearStopped
    split
    · exact Memory.wf_clear m _ _ h
    · exact h

/-- A byte in no cell of a running scan's page stays as it was. -/
theorem State.read_clearStopped_elsewhere (s : State) (ps : List PageId) (m : Memory) (b : Nat)
    (h : ∀ p slot left, (s.page p).state = .busy slot left → ¬(pageBase p + 0x200 ≤ b ∧ b < pageBase p + 0x400)) :
    Memory.read (ps.foldl s.clearStopped m) b = Memory.read m b := by
  induction ps generalizing m with
  | nil => rfl
  | cons p ps ih =>
    rw [List.foldl_cons, ih, State.read_clearStopped]
    split
    · next slot left hp => rw [if_neg (h p slot left hp)]
    · rfl

/-- A byte that reads 0 still reads 0 after any clearing. -/
theorem State.read_clearStopped_of_zero (s : State) (ps : List PageId) (m : Memory) (b : Nat) (h : Memory.read m b = 0) :
    Memory.read (ps.foldl s.clearStopped m) b = 0 := by
  induction ps generalizing m with
  | nil => exact h
  | cons p ps ih =>
    refine ih _ ?_
    rw [State.read_clearStopped]
    split
    · simp [h]
    · exact h

/-- A byte in a cell of a running scan's page reads 0. -/
theorem State.read_clearStopped_cell (s : State) (ps : List PageId) (m : Memory) (b : Nat) (p : PageId) (hp : p ∈ ps)
    (slot : SlotId) (left : Nat) (hb : (s.page p).state = .busy slot left)
    (hr : pageBase p + 0x200 ≤ b ∧ b < pageBase p + 0x400) : Memory.read (ps.foldl s.clearStopped m) b = 0 := by
  induction ps generalizing m with
  | nil => cases hp
  | cons q ps ih =>
    rcases List.mem_cons.mp hp with rfl | hp
    · exact State.read_clearStopped_of_zero s ps _ b (by rw [State.read_clearStopped, hb]; simp [hr])
    · exact ih _ hp

/-- RESET_L_ASSERT keeps the canonical form of the memory. -/
theorem State.holdReset_wf (s : State) (h : s.mem.wf = true) : s.holdReset.mem.wf = true :=
  State.wf_clearStopped s allPages s.mem h

/-- RESET_L_ASSERT leaves 0 in the cells of a page whose scan it stops. -/
theorem State.holdReset_cell (s : State) (p : PageId) (slot : SlotId) (left b : Nat)
    (hb : (s.page p).state = .busy slot left) (hr : pageBase p + 0x200 ≤ b ∧ b < pageBase p + 0x400) :
    s.holdReset.mem.read b = 0 :=
  State.read_clearStopped_cell s allPages s.mem b p ((by decide : ∀ q : PageId, q ∈ allPages) p) slot left hb hr

/-- RESET_L_ASSERT keeps every other byte. -/
theorem State.holdReset_elsewhere (s : State) (b : Nat)
    (h : ∀ p slot left, (s.page p).state = .busy slot left → ¬(pageBase p + 0x200 ≤ b ∧ b < pageBase p + 0x400)) :
    s.holdReset.mem.read b = s.mem.read b :=
  State.read_clearStopped_elsewhere s allPages s.mem b h

end Sys2Proof.Machine
end

