-- ==== Sys2Proof/Tests/Slice0.lean ====
section
/-! SUPPORT. Tests: the spec's worked cases, one or two small steps for each family of commands, an ill-formed term for
each check of WellFormed, and for every statement that has hypotheses a state and operands that meet them. Each test is
one step on a small state; the expected values are the spec's, named in the comment. -/

namespace Sys2Proof.Tests

open Sys2Proof Sys2Proof.Machine

/-! ### Small states -/

/-- The state after a command. -/
def after (c : Instr) (s : State) : State :=
  match exec c s with
  | .next t => t
  | .fault _ => s
  | .refused _ => s

/-- Right after initialization, power ACTIVE, profile FULL (one leg of eight lanes). -/
def ready : State := { State.reset with device := .ready, initTimer := none }

/-- Leg 0 in a state. -/
def inState (st : LegState) (s : State) : State := s.modLeg 0 (fun g => { g with state := st })

/-- Every receiver PRESENT and LOCKED. -/
def lit (s : State) : State := s.modAllLanes (fun v => { v with presence := ⟨true, true, none⟩, locked := true })

/-- One lane side changed. -/
def laneAt (x : LaneSide) (f : LaneState → LaneState) (s : State) : State := s.modLane x f

/-- Line lane L0 and switch lane S0. -/
def l0 : LaneSide := ⟨.line, 0⟩
def s0 : LaneSide := ⟨.switch, 0⟩

/-- An awaited task for Leg 0, and one for the device queue; a posted one for Leg 0. -/
def awaited : TaskHeader := ⟨0, 0, 3, 0xAA, 0xBB⟩
def deviceHeader : TaskHeader := ⟨0, 0xFF, 3, 0, 0⟩
def posted : TaskHeader := ⟨1, 0, 3, 0xAA, 0xBB⟩

/-- The default setup values of Table 2-2 as argument bytes. -/
def defaults : Vector Byte 16 := #v[0, 1, 1, 0, 1, 5, 40, 3, 1, 0, 1, 4, 2, 8, 0, 0]

/-! ### WellFormed refuses an ill-formed term of each check -/

theorem test_wf_class : (Instr.eyeScan 0 ⟨1, 0, 0, 0, 0⟩ 0 0 0 1).wellFormed = false := by decide
theorem test_wf_leg : (Instr.legStart 0 ⟨0, 4, 0, 0, 0⟩).wellFormed = false := by decide
theorem test_wf_patience : (Instr.legStart 0 ⟨0, 0, 4, 0, 0⟩).wellFormed = false := by decide
theorem test_wf_device_leg : (Instr.power 0 ⟨0, 5, 0, 0, 0⟩ 1).wellFormed = false := by decide
theorem test_wf_setup_code : (Instr.legSetup 0 awaited (defaults.set 0 3)).wellFormed = false := by decide
theorem test_wf_setup_number : (Instr.legSetup 0 awaited (defaults.set 5 21)).wellFormed = false := by decide
theorem test_wf_sides : (Instr.legRetune 0 awaited 3).wellFormed = false := by decide
theorem test_wf_function : (Instr.laneFunction 0 awaited 0 4).wellFormed = false := by decide
theorem test_wf_lane : (Instr.setTaps 0 awaited 0 8 0 48 0).wellFormed = false := by decide
theorem test_wf_dwell : (Instr.eyeScan 0 awaited 0 0 0 3).wellFormed = false := by decide
theorem test_wf_clear_after : (Instr.snapshot 0 awaited 0 2).wellFormed = false := by decide
theorem test_wf_sources : (Instr.remap 0 deviceHeader #v[0, 0, 2, 3, 4, 5, 6, 7] 0 0).wellFormed = false := by decide
theorem test_wf_requested : (Instr.power 0 deviceHeader 2).wellFormed = false := by decide
theorem test_wf_summary_bits : (Instr.attentionSummaryClear 1).wellFormed = false := by decide
theorem test_wf_enable_bits : (Instr.noticeEnablesWrite 0x1000).wellFormed = false := by decide
theorem test_wf_release : (Instr.faultLogRelease 0).wellFormed = false := by decide
theorem test_wf_page_value : (Instr.pageStateWrite 0 1).wellFormed = false := by decide
theorem test_wf_control_bits : (Instr.exchangeControlWrite 4).wellFormed = false := by decide
theorem test_wf_summary_read : (Instr.attentionSummaryRead (.whole 0x3A 0x11 4)).wellFormed = false := by decide
theorem test_wf_good : (Instr.legSetup 0 awaited defaults).wellFormed = true := by decide

/-! ### Section 4: the worked cases of Tables 4-5 to 4-9 -/

theorem test_nudge_fixed_clipped :
    nudge .fixed .rcC ⟨-4, 44, -11⟩ .post (-3) = (.clipped, ⟨-4, 44, -12⟩) := by decide
theorem test_nudge_fixed_pinned : nudge .fixed .rcC ⟨-4, 44, -12⟩ .main 1 = (.pinned, ⟨-4, 44, -12⟩) := by decide
theorem test_nudge_fixed_floor : nudge .fixed .rcC ⟨-16, 30, -3⟩ .post (-3) = (.clipped, ⟨-16, 30, -4⟩) := by decide
theorem test_nudge_fixed_range : nudge .fixed .rcC ⟨-6, 42, -1⟩ .post 3 = (.clipped, ⟨-6, 42, 0⟩) := by decide
theorem test_nudge_balanced_applied :
    nudge .balanced .rcC ⟨-4, 44, -11⟩ .post (-3) = (.applied, ⟨-4, 42, -14⟩) := by decide
theorem test_nudge_balanced_clipped :
    nudge .balanced .rcC ⟨-7, 36, -17⟩ .post (-3) = (.clipped, ⟨-7, 35, -18⟩) := by decide
theorem test_nudge_balanced_main_is_fixed :
    nudge .balanced .rcC ⟨-7, 35, -18⟩ .main 1 = (.pinned, ⟨-7, 35, -18⟩) := by decide
theorem test_nudge_pre_in_rcA : nudge .balanced .rcA ⟨0, 48, -12⟩ .pre (-1) = (.pinned, ⟨0, 48, -12⟩) := by decide
theorem test_saturate_first_row : saturate .rcC ⟨-20, 58, -10⟩ = ⟨-16, 34, -8⟩ := by decide
theorem test_saturate_second_row : saturate .rcB ⟨-16, 25, -24⟩ = ⟨-10, 20, 0⟩ := by decide
theorem test_saturate_rcA_row : saturate .rcA ⟨-5, 50, -20⟩ = ⟨0, 40, -20⟩ := by decide
theorem test_saturate_fifth_row : saturate .rcC ⟨0, 12, -30⟩ = ⟨0, 20, -10⟩ := by decide

/-! ### Section 11.7: the frame of the example -/

theorem test_frame_example :
    FrameFields.bytes ⟨1, 1, 2, 1, ⟨0, .applied⟩, false, ⟨-6, 42, -12⟩, 7⟩ =
      [0x25, 0x01, 0x01, 0xFA, 0x2A, 0xF4, 0x07, 0xB9] := by decide
theorem test_frame_example_is_good : frameGood #v[0x25, 0x01, 0x01, 0xFA, 0x2A, 0xF4, 0x07, 0xB9] = true := by decide
theorem test_frame_example_decodes :
    decodeFrame #v[0x25, 0x01, 0x01, 0xFA, 0x2A, 0xF4, 0x07, 0xB9] =
      ⟨1, 1, 2, 1, 0, some .applied, false, 7⟩ := by decide

/-! ### Sections 10 and 1: start-up, power, presence, lock -/

theorem test_powerOn_low : (after (.powerOn ⟨3, 3, true⟩ true false 0 0) ready).effective = .low := by decide
theorem test_powerOn_rate_three_is_rcC :
    ((after (.powerOn ⟨3, 3, true⟩ true false 0 0) ready).leg 2).setup.rate = .rcC := by decide
theorem test_resetLAssert_squelches : (after .resetLAssert ready).transmit l0 = .squelched := by decide
theorem test_resetLRelease_cause :
    (after (.resetLRelease ⟨0, 0, false⟩) { ready with resetHeld := true, releaseCause := .resetPin }).lastCause =
      .resetPin := by decide
theorem test_initializationComplete_autostart :
    ((after .initializationComplete { State.reset with straps := ⟨0, 0, true⟩ }).leg 0).state = .dark := by decide
theorem test_lowpwrAssert_parks : ((after .lowpwrAssert (inState .dark ready)).leg 0).state = .parked := by decide
theorem test_lowpwrRelease_rises :
    (after .lowpwrRelease { ready with lowpwr := true, effective := .low }).riseTimer = some 10000 := by decide
theorem test_riseCompletion_notice :
    (after .riseCompletion { ready with effective := .rising }).summary = 0x02000000 := by decide
theorem test_rawDetect_starts_1ms :
    ((after (.rawDetectChange l0 true) ready).lane l0).presence.timer = some 1000 := by decide
theorem test_rawDetect_starts_50us :
    ((after (.rawDetectChange l0 false) (lit ready)).lane l0).presence.timer = some 50 := by decide

/-- L0 lost its signal 50 µs ago. -/
def fading (s : State) : State := laneAt l0 (fun v => { v with presence := ⟨false, true, some 0⟩ }) (lit s)

theorem test_presence_loss_counts :
    ((after (.qualificationTimerExpiry l0) (fading ready)).lane l0).counters.presenceDrops = 1 := by decide
theorem test_presence_loss_enters_dark :
    ((after (.qualificationTimerExpiry l0) (fading (inState .carrying ready))).leg 0).state = .dark := by decide
theorem test_mask_expiry_notice :
    (after (.maskTimerExpiry l0)
      ((laneAt l0 (fun v => { v with mask := ⟨some 0, true⟩ }) ready).modLeg 0
        (fun g => { g with setup := { g.setup with wakeWatch := true } }))).summary = 0x00010000 := by decide

/-- Leg 0 in ACQUIRE with every lane but L0 LOCKED. -/
def lastLock : State := laneAt l0 (fun v => { v with locked := false }) (lit (inState .acquire ready))

theorem test_last_lock_enters_tune : ((after (.receiverLock l0) lastLock).leg 0).state = .tune := by decide
theorem test_last_lock_preset_request :
    ((after (.receiverLock l0) lastLock).lane s0).tuner.outstanding = some ⟨0, .preset 1⟩ := by decide
theorem test_unlock_enters_acquire :
    ((after (.receiverUnlock l0) (lit (inState .carrying ready))).leg 0).state = .acquire := by decide
theorem test_lock_timer_third_attempt_gives_up :
    ((after (.lockTimerExpiry 0) ((inState .acquire ready).modLeg 0
      (fun g => { g with lockTimer := some 0, attempts := 2, intent := true }))).leg 0).givenUp = true := by decide

/-! ### Section 2.8: the relay -/

/-- Leg 0 carries in PULSE mode, the direction that watches LINE delayed. -/
def relayed : State :=
  (inState .carrying ready).modLeg 0 (fun g =>
    { g with setup := { g.setup with relayMode := .pulse }, line := { g.line with relay := ⟨false, some 0, some 0, true⟩ } })

theorem test_relay_delay_squelches_other_side :
    (after (.relayDelayExpiry 0 .line) relayed).transmit s0 = .squelched := by decide
theorem test_relay_delay_pulse_width :
    ((after (.relayDelayExpiry 0 .line) relayed).leg 0).line.relay.pulse = some 4000 := by decide
theorem test_relay_pulse_end : (after (.relayPulseEnd 0 .line) relayed).transmit s0 = .data := by decide

/-! ### Sections 1.3 to 1.5: the data path -/

/-- L0 takes S1 with the switch side INVERTED, L1 takes S0 in a function. -/
def crossed (f : LaneFunction) (s : State) : State :=
  { s with map := (s.map.set 0 ⟨1, .inverted, .normal, .carry⟩).set 1 ⟨0, .normal, .inverted, f⟩ }

/-- A byte of its own at each receiver: 0x10 and the lane at LINE, 0x20 and the lane at SWITCH. -/
def standing : Signals := fun x =>
  match x.side with
  | .line => [0x10 + BitVec.ofNat 8 x.lane.val]
  | .switch => [0x20 + BitVec.ofNat 8 x.lane.val]

theorem test_data_line_sends_its_source :
    (crossed .carry (inState .carrying ready)).output standing l0 = some [0xDE] ∧
      (crossed .carry (inState .carrying ready)).output standing ⟨.switch, 1⟩ = some [0xEF] := by decide
theorem test_loop_sends_its_own_receiver :
    (crossed .loopFar (lit ready)).output standing ⟨.line, 1⟩ = some [0x11] ∧
      (crossed .loopNear (lit ready)).output standing s0 = some [0x20] ∧
      (crossed .loopNear ready).output standing s0 = none ∧
      (crossed .loopFar (lit ready)).output standing s0 = none := by decide

/-! ### Section 3: the exchange -/

/-- Leg 0 in TUNE, both sides running, the partner's mark 7 known on L0. -/
def tuning : State :=
  laneAt l0 (fun v => { v with tuner := { v.tuner with phase := .climbing, partnerMark := some 7 } })
    ((lit (inState .tune ready)).modLeg 0 (fun g =>
      { g with intent := true, line := { g.line with session := .running, timer := some 0 },
               switch := { g.switch with session := .running, timer := some 0 } }))

/-- L0's tuner changed. -/
def tunerAt (f : Tuner → Tuner) (s : State) : State := laneAt l0 (fun v => { v with tuner := f v.tuner }) s

/-- A request waits at frame 128 of the limit 128. -/
def waiting : State := tunerAt (fun t => { t with outstanding := some ⟨0, .preset 1⟩, waitCount := 127 }) tuning

/-- Good frames of mark 7: one without a request and with CONTENT, one with a NUDGE of POST by +1 under tag 1, one with
CONTENT clear; and one of mark 9. -/
def contentFrame : Vector Byte 8 := #v[0, 0, 8, 0, 48, 0xF4, 7, 204]
def nudgeFrame : Vector Byte 8 := #v[0x25, 0x01, 0x01, 0xFA, 0x2A, 0xF4, 0x07, 0xB9]
def idleFrame : Vector Byte 8 := #v[0, 0, 0, 0, 48, 0xF4, 7, 212]
def restartFrame : Vector Byte 8 := #v[0, 0, 0, 0, 48, 0xF4, 9, 210]

theorem test_frame_sent_in_tune : ((after (.tuningFrameSent l0) tuning).lane l0).frame.isSome = true := by decide
theorem test_request_wait_fails_session :
    ((after (.requestWaitTimeout l0) waiting).leg 0).cause = .noReply := by decide
theorem test_session_timer_cause :
    ((after (.sessionTimerExpiry 0 .switch) tuning).leg 0).cause = .tuneTimeout := by decide
theorem test_nudge_is_applied :
    ((after (.tuningFrameReceived l0 nudgeFrame) tuning).lane l0).taps = ⟨0, 48, -11⟩ := by decide
theorem test_nudge_is_replied :
    ((after (.tuningFrameReceived l0 nudgeFrame) tuning).lane l0).tuner.reply = ⟨1, .applied⟩ := by decide

/-- The last lane side holds 15 frames; the switch side is DONE. -/
def lastHold : State :=
  tunerAt (fun t => { t with phase := .holding, hold := 15 })
    (((tuning.modAllLanes (fun v => { v with tuner := { v.tuner with phase := .agreed, partnerMark := some 7 } }))).modLeg 0
      (fun g => { g with switch := { g.switch with session := .done } }))

theorem test_first_side_done_stays_in_tune :
    ((after (.tuningFrameReceived l0 contentFrame) (lastHold.modLeg 0 (fun g =>
      { g with switch := { g.switch with session := .running } }))).leg 0).state = .tune := by decide
theorem test_sixteenth_frame_carries :
    ((after (.tuningFrameReceived l0 contentFrame) lastHold).leg 0).state = .carrying := by decide

/-! ### Sections 5 and 6 -/

/-- L0 reads its margin at a stage of the climb, best margin 33, threshold 2 (R104). -/
def reading (stage : ClimbStage) : State :=
  laneAt l0 (fun v => { v with
    monitor := .reading 0, climb := { v.climb with stage := stage, best := some 33, direction := .up } }) tuning

theorem test_reading_35_is_kept :
    ((after (.marginReadingComplete l0 35) (reading .measuring)).lane l0).climb.best = some 35 := by decide
theorem test_reading_34_is_reverted :
    ((after (.marginReadingComplete l0 34) (reading .measuring)).lane l0).climb.stage = .reverting := by decide

/-- Page 2 is BUSY with a scan of L0 for slot 3, this many cells done. -/
def scanning (cells : Nat) : State :=
  ((laneAt l0 (fun v => { v with monitor := .scanning }) (inState .carrying ready)).modPage 2 (fun _ =>
    ⟨.busy 3 0, 0, .line, 0, 1, cells, .none⟩)).modSlot 3 (fun _ => ⟨.taken, .inProgress, false⟩)

theorem test_cell_count_stops_at_255 :
    (after (.scanCellComplete 2 300) (scanning 5)).readByte 0x1A05 = 255 := by decide
theorem test_last_cell_reads_512 : (after (.scanCellComplete 2 0) (scanning 511)).readByte 0x1807 = 2 := by decide
theorem test_reset_assertion_clears_the_cells :
    (after .resetLAssert { scanning 1 with mem := [(0x410, 7), (0x1A00, 9), (0x1E00, 5)] }).mem =
      [(0x410, 7), (0x1E00, 5)] := by decide

/-! ### Section 8: patience -/

/-- A deferred awaited LEG_RETUNE of slot 5 at the head of Leg 0's queue. -/
def retuneEntry : Entry := ⟨.legRetune, true, 5, 4, 0, 0, 0, 0, [], true, some 0⟩

/-- A posted SET_TAPS behind it. -/
def postedEntry : Entry := ⟨.setTaps, false, 6, 6, 0, 0, 1, 2, [], true, some 0⟩

/-- An awaited LEG_START of slot 7, unchecked behind it. -/
def startEntry : Entry := ⟨.legStart, true, 7, 2, 0, 3, 0, 0, [], false, none⟩

/-- Leg 0's queue, slot 5 TAKEN. -/
def queued (q : List Entry) (s : State) : State :=
  (s.setQueue 0 q).modSlot 5 (fun _ => ⟨.taken, .inProgress, false⟩)

theorem test_patience_gives_up :
    ((after (.patienceExpiry 0 0) (queued [retuneEntry] ready)).slot 5).status = .gaveUp := by decide
theorem test_superseded_start_shows_the_parked_leg :
    (after (.legPark 0 awaited) ((queued [retuneEntry, startEntry] (inState .dark ready)).modLeg 0
      (fun g => { g with attempts := 2 }))).mem.filter (fun c => 0x480 < c.1) = [(0xB82, 2)] := by decide
theorem test_posted_patience_is_a_fault :
    (after (.patienceExpiry 0 1) (queued [retuneEntry, postedEntry] ready)).faultRecord =
      some ⟨.posted, .gaveUp, 6, 6, 0, 1, 2, 0, 0⟩ := by decide

/-- A deferred awaited EYE_SCAN of slot 5 alone in Leg 0's queue: LINE side, L0, page 1, 1 ms; its check owed or not. -/
def scanEntry : Entry := ⟨.eyeScan, true, 5, 7, 0, 3, 0, 0, [], true, none⟩
def scanWaiting (owed : List LegId) (s : State) : State :=
  queued [scanEntry] { s with mem := [(0x912, 1), (0x913, 1)], owed := owed }

/-- Page 1 with that scan just begun (R118). -/
def scanPage : Page := ⟨.busy 5 1000, 0, .line, 0, 1, 0, .none⟩

theorem test_entry_lets_the_scan_start : (scanWaiting [] (inState .carrying ready)).headCanStart 0 = true := by decide
theorem test_owed_check_starts_the_scan : ((scanWaiting [0] (inState .carrying ready)).idle.page 1) = scanPage := by decide
theorem test_loss_before_the_owed_check :
    ((after (.qualificationTimerExpiry l0) (scanWaiting [0] (fading (inState .carrying ready)))).idle.engine 0).queue =
      [scanEntry] := by decide
theorem test_owed_check_executes_setTaps :
    ({ queued [{ postedEntry with args := [0, 0, 0, 40, 0] }] ready with owed := [0] }.idle.lane l0).taps =
      ⟨0, 40, 0⟩ := by decide

/-! ### Sections 7 and 9: the host's writes and reads -/

/-- A slot in a state. -/
def slotIn (n : SlotId) (st : SlotState) (s : State) : State := s.modSlot n (fun c => { c with state := st })

/-- A fault record. -/
def record : FaultRecord := ⟨.posted, .badArgument, 1, 1, 0, 0, 0, 0, 0⟩

/-- The fault log holds a record. -/
def faulted (s : State) : State := { s with faultRecord := some record, summary := 0x01000000 }

theorem test_handOver_of_unknown_kind : (after (.slotHandOver 4) ready).readByte 0x80C = 0x13 := by decide
theorem test_handOver_of_filled_is_misuse :
    (after (.slotHandOver 4) (slotIn 4 .filled ready)).faultRecord = some ⟨.misuse, .inProgress, 4, 0, 0, 0, 0, 1, 1⟩ := by
  decide
theorem test_retract : ((after (.slotRetract 4) (slotIn 4 .filled { ready with handOver := [4] })).handOver) = [] := by
  decide
theorem test_release_clears_the_bit :
    (after (.slotRelease 4) (slotIn 4 .done { ready with summary := 0x30 })).summary = 0x20 := by decide
theorem test_cancel_in_flight :
    ((after (.slotCancel 4) (slotIn 4 .taken (ready.modEngine 0 (fun e => { e with inFlight := some 4 })))).slot 4) =
      ⟨.done, .cancelled, true⟩ := by decide
theorem test_summary_clear_spares_the_done_bits :
    (after (.attentionSummaryClear 0xFFFFFFFF) { ready with summary := 0x030F0FFF }).summary = 0x01000FFF := by decide
theorem test_summary_read :
    (after (.attentionSummaryRead (.whole 0x3A 0x10 4)) { ready with summary := 0x03000102 }).readData =
      [0x02, 0x01, 0x00, 0x03] := by decide
theorem test_enables_keep_unimplemented_0 :
    (after (.noticeEnablesWrite 0xFFFFFFFF) { ready with enables := 0 }).enables = 0x030F0FFF := by decide
theorem test_fault_release : (after (.faultLogRelease 1) (faulted ready)).summary = 0 := by decide
theorem test_page_free :
    ((after (.pageStateWrite 1 0) (ready.modPage 1 (fun c => { c with state := .held, cellsDone := 512 }))).page 1) =
      Page.reset := by decide
theorem test_control_write : (after (.exchangeControlWrite 3) ready).readByte 0x18 = 3 := by decide
theorem test_exchange_reset : (after (.exchangeReset true false) (faulted ready)).faultRecord = none := by decide
theorem test_exchange_reset_complete :
    (after .exchangeResetComplete { ready with device := .exchangeResetting }).readByte 0x08 = 1 := by decide
theorem test_register_write_ignores_a_filled_slot :
    (after (.registerWrite (.whole 0x3A [0x04, 0x10, 0x55])) (slotIn 0 .filled ready)).mem.read 0x410 = 0 := by decide
theorem test_register_write_stores_in_an_empty_slot :
    (after (.registerWrite (.whole 0x3A [0x04, 0x10, 0x55])) ready).mem.read 0x410 = 0x55 := by decide
theorem test_register_write_ignores_an_unlisted_byte :
    (after (.registerWrite (.whole 0x3A [0x04, 0x1F, 0x55, 0x66])) ready).mem = [(0x41F, 0x55)] := by decide

/-! ### Tasks -/

theorem test_setup_clamps_and_adjusts :
    (after (.legSetup 0 awaited (defaults.set 6 200)) ready).readByte 0x486 = 80 ∧
    (after (.legSetup 0 awaited (defaults.set 6 200)) ready).readByte 0x490 = 1 := by decide
theorem test_start_goes_dark : ((after (.legStart 0 awaited) ready).leg 0).state = .dark := by decide
theorem test_start_held_low :
    (after (.legStart 0 awaited) { ready with effective := .low }).readByte 0x40C = 0x04 := by decide
theorem test_park_result_is_the_state_before :
    (after (.legPark 0 awaited) (inState .carrying ready)).readByte 0x480 = 4 := by decide
theorem test_retune_waits_while_parked : (after (.legRetune 0 awaited 2) ready).readByte 0x40F = 2 := by decide
theorem test_retune_keeps_the_unnamed_side :
    ((after (.legRetune 0 awaited 0) (inState .carrying ready)).leg 0).switch.session = .done := by decide
theorem test_laneFunction_result : (after (.laneFunction 0 awaited 3 2) ready).readByte 0x481 = 2 := by decide
theorem test_laneFunction_masks :
    ((after (.laneFunction 0 awaited 3 2) ready).lane ⟨.switch, 3⟩).mask.timer = some 2000 := by decide
theorem test_setTaps_loads :
    ((after (.setTaps 0 awaited 0 0 0xFB 50 0xEC) ready).lane l0).taps = ⟨0, 40, -20⟩ := by decide
theorem test_setTaps_adjusted : (after (.setTaps 0 awaited 0 0 0xFB 50 0xEC) ready).readByte 0x486 = 1 := by decide
theorem test_eyeScan_starts :
    ((after (.eyeScan 0 awaited 0 0 3 4) (inState .carrying ready)).page 3).state = .busy 0 4000 := by decide
theorem test_snapshot_little_endian :
    (after (.snapshot 0 awaited 0 1)
      (laneAt l0 (fun v => { v with counters := ⟨0x102, 0, 0, 0⟩ }) ready)).readByte 0x481 = 1 := by decide
theorem test_remap_swaps :
    ((after (.remap 0 deviceHeader #v[1, 0, 2, 3, 4, 5, 6, 7] 0 1) ready).entry 0) =
      ⟨1, .normal, .inverted, .carry⟩ := by decide
theorem test_remap_result :
    (after (.remap 0 deviceHeader #v[1, 0, 2, 3, 4, 5, 6, 7] 0 0) ready).readByte 0x480 = 3 := by decide
theorem test_power_low : (after (.power 0 deviceHeader 0) ready).effective = .low := by decide
theorem test_power_active_waits :
    (after (.power 0 deviceHeader 1) { ready with effective := .low, requested := .low }).powerWait = [0] := by decide
theorem test_snapshot_is_not_postable :
    (after (.snapshot 2 posted 0 0) ready).faultRecord =
      some ⟨.posted, .notPostable, 2, 8, 0, 0xAA, 0xBB, 0, 0⟩ := by decide
theorem test_park_passes_the_deferred_retune :
    ((after (.legPark 0 awaited) (queued [retuneEntry] ready)).slot 5).status = .superseded := by decide

/-- R150: with passing on, a posted task behind a deferred awaited head is executed. -/
theorem test_posted_task_passes :
    ((after (.setTaps 0 posted 0 0 0 40 0)
      (queued [retuneEntry] (ready.modLeg 0 (fun g => { g with setup := { g.setup with passing := true } })))).lane
        l0).taps = ⟨0, 40, 0⟩ := by decide

/-! ### Witnesses: for every statement with hypotheses, a state and operands that meet them, clause by clause -/

theorem witness_EmptyQueueLetsTimePass :
    State.reset.pending = [] ∧ State.reset.resetHeld = false ∧ State.reset.owed = [] ∧
      ({ State.reset with resetHeld := true }).pending = [] ∧ ({ ready with owed := [0] }).owed ≠ [] ∧
      ({ ready with owed := [0] }).NoWork := by
  unfold State.NoWork; decide

/-- RESET_L held, and each guard that fails while it is not. -/
theorem witness_EventsThatCannotOccurChangeNothing :
    ({ ready with resetHeld := true }).resetHeld = true ∧ ready.resetHeld = false ∧ ready.device ≠ .initializing ∧
      ready.effective ≠ .rising ∧ ready.device ≠ .exchangeResetting ∧ (ready.lane l0).presence.timer = none ∧
      (ready.lane l0).mask.timer = none ∧ (ready.lane l0).presence.qualified = false ∧
      ((lit ready).lane l0).locked = true ∧ (ready.lane l0).locked = false ∧
      (ready.leg (ready.legOf l0)).state = .parked ∧ (ready.lane l0).tuner.outstanding = none ∧
      (ready.lane l0).monitor = .idle ∧ (ready.leg 0).lockTimer = none ∧ (ready.leg 0).line.relay.delay = none ∧
      (ready.leg 0).line.relay.pulse = none ∧ (ready.leg 0).line.timer = none ∧ (ready.engine 0).queue = [] ∧
      (ready.page 0).state = .free := by decide

/-- With a scan running in a page, and none in another. -/
theorem witness_ResetAssertionStopsThePart :
    (scanning 5).resetHeld = false ∧ ((scanning 5).page 2).state = .busy 3 0 ∧ ((scanning 5).page 1).state = .free := by
  decide

theorem witness_ResetReleaseStartsTheInitialization : ({ ready with resetHeld := true }).resetHeld = true := by decide

/-- Not strapped, and strapped. -/
theorem witness_InitializationCompletes : ∀ strapped : Bool,
    let s : State := { State.reset with straps := ⟨0, 0, strapped⟩ }
    s.resetHeld = false ∧ s.device = .initializing ∧ s.NoWork ∧ (∀ l, (s.leg l).state = .parked) ∧
      s.straps.autostart = strapped ∧ s.used 0 = true ∧ s.used 1 = false := by
  unfold State.NoWork; decide

/-- With a leg out of PARKED and its task in flight, and a POWER task that waits for the rise. -/
theorem witness_LowpwrAssertionTakesThePartLow :
    let s : State := { (inState .carrying ready).modEngine 0 (fun e => { e with inFlight := some 4 }) with
      powerWait := [5] }
    s.resetHeld = false ∧ s.lowpwr = false ∧ s.effective ≠ .low ∧ s.NoWork ∧ (s.leg 0).state ≠ .parked ∧
      (s.engine 0).inFlight = some 4 ∧ 4 ∉ s.powerWait ∧ 5 ∈ s.powerWait ∧ (∀ p, (s.page p).state = .free) := by
  unfold State.NoWork; decide

/-- At the release, ACTIVE requested and LOW requested; at the completion, a leg with intent 1, legs without, and a POWER
task that waits. -/
theorem witness_PowerRisesToActive :
    (∀ r ∈ [RequestedPower.active, RequestedPower.low],
      let s : State := { ready with lowpwr := true, effective := .low, requested := r }
      s.resetHeld = false ∧ s.lowpwr = true ∧ s.NoWork ∧ s.effective = .low ∧ s.requested = r) ∧
    (let s : State := { (ready.modLeg 0 (fun g => { g with intent := true })) with
      effective := .rising, powerWait := [4] }
     s.resetHeld = false ∧ s.effective = .rising ∧ s.NoWork ∧
      (∀ (d : Fin 2) (i : LaneId), (s.lane ⟨if d = 0 then .line else .switch, i⟩).locked = false) ∧
      s.used 0 = true ∧ (s.leg 0).state = .parked ∧ (s.leg 0).intent = true ∧ (s.leg 1).intent = false ∧
      s.powerWait = [4]) := by
  unfold State.NoWork; decide

/-- A signal that comes, one that goes, and a mask that ends with a net change. -/
theorem witness_DetectAndMaskTimersAct :
    let s := laneAt l0 (fun v => { v with mask := ⟨some 0, true⟩ }) ready
    ready.resetHeld = false ∧ (ready.lane l0).presence.raw ≠ true ∧ ((lit ready).lane l0).presence.raw ≠ false ∧
      s.resetHeld = false ∧ (s.lane l0).mask.timer.isSome = true ∧
      (s.lane l0).presence.qualified ≠ (s.lane l0).mask.start := by
  decide

/-- A loss, and a gain. -/
theorem witness_QualificationOnAParkedLeg :
    let s := laneAt l0 (fun v => { v with presence := ⟨true, false, some 0⟩ }) ready
    s.resetHeld = false ∧ (s.lane l0).presence.timer.isSome = true ∧
      (s.lane l0).presence.raw ≠ (s.lane l0).presence.qualified ∧ (s.leg (s.legOf l0)).state = .parked ∧
      ((fading ready).lane l0).presence.timer.isSome = true ∧
      ((fading ready).lane l0).presence.raw ≠ ((fading ready).lane l0).presence.qualified ∧
      ((fading ready).leg ((fading ready).legOf l0)).state = .parked := by decide

/-- L0 found its signal 1 ms ago, every other lane PRESENT. -/
def returning (s : State) : State :=
  laneAt l0 (fun v => { v with presence := ⟨true, false, some 0⟩, locked := false }) (lit s)

/-- A loss and a gain in every state but PARKED, the gain with every other lane PRESENT and with one ABSENT. -/
theorem witness_PresenceEventsMoveTheLeg :
    (∀ st ∈ [LegState.dark, LegState.acquire, LegState.tune, LegState.carrying],
      ∀ s ∈ [fading (inState st ready), returning (inState st ready)],
        s.resetHeld = false ∧ s.MapPermutes ∧ s.NoWork ∧ (s.lane l0).presence.timer.isSome = true ∧
          (s.lane l0).presence.raw ≠ (s.lane l0).presence.qualified ∧
          ((s.lane l0).presence.qualified = false → (s.lane l0).locked = false) ∧
          (s.leg (s.legOf l0)).state = st ∧ st ≠ .parked) ∧
      (let s := returning (inState .dark ready)
       ∀ y ∈ s.allMemberSides (s.legOf l0), y ≠ l0 → (s.lane y).presence.qualified = true) ∧
      (let s := laneAt s0 (fun v => { v with presence := ⟨false, false, none⟩ }) (returning (inState .dark ready))
       s0 ∈ s.allMemberSides (s.legOf l0) ∧ (s.lane s0).presence.qualified = false) := by
  unfold State.NoWork State.MapPermutes; decide

/-- The last lock in ACQUIRE, and a lock of a PARKED leg's receiver. -/
theorem witness_LastLockStartsTheSessions : ∀ st ∈ [LegState.acquire, LegState.parked],
    let s := laneAt l0 (fun v => { v with locked := false }) (lit (inState st ready))
    s.resetHeld = false ∧ s.MapPermutes ∧ s.NoWork ∧ s.effective = .active ∧
      (s.lane l0).presence.qualified = true ∧ (s.lane l0).locked = false ∧ (s.leg (s.legOf l0)).state = st ∧
      (∀ y ∈ s.allMemberSides (s.legOf l0), y ≠ l0 → (s.lane y).locked = true) := by
  unfold State.NoWork State.MapPermutes; decide

/-- A lock in ACQUIRE with S0 still UNLOCKED. -/
theorem witness_LastLockStartsTheSessions_not_last :
    let s := laneAt s0 (fun v => { v with locked := false })
      (laneAt l0 (fun v => { v with locked := false }) (lit (inState .acquire ready)))
    s.resetHeld = false ∧ s.MapPermutes ∧ s.NoWork ∧ s.effective = .active ∧
      (s.lane l0).presence.qualified = true ∧ (s.lane l0).locked = false ∧
      (s.leg (s.legOf l0)).state = .acquire ∧
      (∃ y ∈ s.allMemberSides (s.legOf l0), y ≠ l0 ∧ (s.lane y).locked = false) := by
  unfold State.NoWork State.MapPermutes; decide

/-- In each state of the leg. -/
theorem witness_LockLossSendsTheLegToAcquire :
    ∀ st ∈ [LegState.parked, LegState.dark, LegState.acquire, LegState.tune, LegState.carrying],
    let s := lit (inState st ready)
    s.resetHeld = false ∧ s.MapPermutes ∧ s.NoWork ∧ (s.lane l0).locked = true ∧ (s.leg (s.legOf l0)).state = st := by
  unfold State.NoWork State.MapPermutes; decide

/-- At attempt count 1, below the limit 3, and at 2, which reaches it. -/
theorem witness_LockTimerExpiryCountsAnAttempt : ∀ k ∈ [1, 2],
    let s := (inState .acquire ready).modLeg 0 (fun g => { g with lockTimer := some 0, attempts := k })
    s.resetHeld = false ∧ s.NoWork ∧ (s.leg 0).lockTimer.isSome = true ∧ (s.leg 0).state = .acquire ∧
      ((s.leg 0).attempts + 1 < (s.leg 0).setup.attemptLimit ↔ k = 1) := by
  unfold State.NoWork; decide

/-- A relay mode and a relay delay for Leg 0. -/
def relayMode (m : RelayMode) (delay : Nat) (s : State) : State :=
  s.modLeg 0 (fun g => { g with setup := { g.setup with relayMode := m, relayDelay := delay } })

/-- A trigger and a release in each mode, with a delay of 0 and of 7 ms; and, without effect, on a PARKED leg and with
another lane of the side ABSENT. -/
theorem witness_RelayTriggersAndReleases :
    (∀ m ∈ [RelayMode.off, .follow, .pulse], ∀ d ∈ [0, 7],
      ∀ s ∈ [fading (relayMode m d (inState .carrying ready)), returning (relayMode m d (inState .dark ready))],
        s.resetHeld = false ∧ s.MapPermutes ∧ s.NoWork ∧ (s.lane l0).presence.timer.isSome = true ∧
          (s.lane l0).presence.raw ≠ (s.lane l0).presence.qualified ∧
          ((s.lane l0).presence.qualified = false → (s.lane l0).locked = false) ∧
          (s.leg (s.legOf l0)).setup.relayMode = m ∧ (s.leg (s.legOf l0)).setup.relayDelay = d) ∧
      (let s := returning (inState .dark ready)
       ∀ y ∈ s.memberSides (s.legOf l0) .line, y ≠ l0 → (s.lane y).presence.qualified = true) ∧
      ((fading ready).leg ((fading ready).legOf l0)).state = .parked ∧
      (let s := laneAt ⟨.line, 7⟩ (fun v => { v with presence := ⟨false, false, none⟩ }) (returning ready)
       ⟨.line, 7⟩ ∈ s.memberSides (s.legOf l0) .line ∧ (s.lane ⟨.line, 7⟩).presence.qualified = false) := by
  unfold State.NoWork State.MapPermutes; decide

/-- In each mode, in FOLLOW with the watched side incomplete and complete. -/
theorem witness_RelayTimersSquelchAndRelease :
    (∀ m ∈ [RelayMode.off, .follow, .pulse], ∀ s ∈ [relayMode m 1 relayed, relayMode m 1 (lit relayed)],
      s.resetHeld = false ∧ ((s.leg 0).side .line).relay.pulse.isSome = true ∧
        ((s.leg 0).side .line).relay.delay.isSome = true ∧ (s.leg 0).setup.relayMode = m ∧
        (s.leg 0).state ≠ .parked ∧ s.used 0 = true ∧ (0 : LaneId) ∈ s.members 0 ∧ s.MapPermutes) ∧
      (∃ x ∈ relayed.memberSides 0 .line, (relayed.lane x).presence.qualified = false) ∧
      ∀ x ∈ (lit relayed).memberSides 0 .line, ((lit relayed).lane x).presence.qualified = true := by
  unfold State.MapPermutes; decide

/-- Held; not ACTIVE; squelched by the relay; carrying; parked with a loop. -/
theorem witness_TransmitStateFollowsTheTable :
    ({ ready with resetHeld := true }).resetHeld = true ∧ ({ ready with effective := .rising }).effective ≠ .active ∧
      ready.resetHeld = false ∧ ready.effective = .active ∧ (relayed.leg (relayed.legOf s0)).state ≠ .parked ∧
      ((relayed.leg (relayed.legOf s0)).side (otherSide .switch)).relay.squelching = true ∧
      ((relayed.leg (relayed.legOf l0)).side (otherSide .line)).relay.squelching = false ∧
      (ready.leg (ready.legOf l0)).state = .parked := by decide

/-- Leg 0 PARKED with line lane 0 in a function. -/
def functionAt (f : LaneFunction) (s : State) : State := { s with map := s.map.set 0 ⟨0, .inverted, .normal, f⟩ }

/-- DATA in both directions, each loop with its receiver PRESENT and ABSENT, FRAMES, and SQUELCHED. -/
theorem witness_DataPathFollowsTheMap :
    (inState .carrying ready).MapPermutes ∧ (inState .carrying ready).transmit l0 = .data ∧
      (inState .carrying ready).transmit ⟨.switch, ((inState .carrying ready).entry 0).source⟩ = .data ∧
      (functionAt .loopFar ready).MapPermutes ∧ (functionAt .loopFar ready).transmit l0 = .loop ∧
      ((functionAt .loopFar ready).lane l0).presence.qualified = false ∧
      (lit (functionAt .loopFar ready)).transmit l0 = .loop ∧
      ((lit (functionAt .loopFar ready)).lane l0).presence.qualified = true ∧
      (functionAt .loopNear ready).transmit s0 = .loop ∧ (inState .dark ready).transmit l0 = .frames ∧
      ready.transmit l0 = .squelched := by
  unfold State.MapPermutes; decide

theorem witness_FrameDecodesToItsFields :
    (#v[0x25, 0x01, 0x01, 0xFA, 0x2A, 0xF4, 0x07, 0xB9] : Vector Byte 8).toList =
      FrameFields.bytes ⟨1, 1, 2, 1, ⟨0, .applied⟩, false, ⟨-6, 42, -12⟩, 7⟩ := by decide

/-- In DARK and in ACQUIRE; in TUNE at a wait count two short of the limit, with a request, and with none. -/
theorem witness_FrameCarriesTheRecord :
    (∀ st ∈ [LegState.dark, LegState.acquire],
      (inState st ready).resetHeld = false ∧ ((inState st ready).leg ((inState st ready).legOf l0)).state = st) ∧
    ∀ r ∈ [none, some (⟨0, .preset 1⟩ : Request), some ⟨3, .nudge .post (-1)⟩],
      let s := tunerAt (fun t => { t with outstanding := r, waitCount := 126 }) tuning
      s.resetHeld = false ∧ (s.leg (s.legOf l0)).state = .tune ∧ (s.lane l0).tuner.outstanding = r ∧
        (s.leg (s.legOf l0)).setup.requestWait.limit = some 128 ∧ (s.lane l0).tuner.waitCount + 1 < 128 := by decide

theorem witness_TimeoutsFailTheSession :
    waiting.resetHeld = false ∧ waiting.NoWork ∧ (waiting.leg 0).state = .tune ∧
      ((waiting.leg 0).side .line).session = .running ∧ ((waiting.leg 0).side .line).timer.isSome = true ∧
      waiting.legOf l0 = 0 ∧ (waiting.lane l0).tuner.outstanding.isSome = true ∧
      (waiting.leg 0).setup.requestWait.limit = some 128 ∧ 128 ≤ (waiting.lane l0).tuner.waitCount + 1 ∧
      waiting.transmit l0 = .frames := by
  unfold State.NoWork; decide

/-- What every statement about a good frame asks. -/
def GoodIn (s : State) (frame : Vector Byte 8) : Prop :=
  s.resetHeld = false ∧ s.MapPermutes ∧ (s.leg (s.legOf l0)).state = .tune ∧ (s.lane l0).locked = true ∧
    frameGood (s.afterPolarity l0 frame) = true

/-- A good frame of mark 7 with a request of tag 1: kind, tap and argument. -/
def requestFrame (kind tap : BitVec 2) (arg : Byte) : Vector Byte 8 :=
  let head : Byte := 1 + 4 * kind.setWidth 8 + 16 * tap.setWidth 8
  #v[head, arg, 0, 0, 48, 0xF4, 7, 255 - (head + arg + 0x2B)]

/-- The premises of NewRequestIsAnswered, for a phase and a request of a kind, tap and argument. -/
def NewRequestIn (ph : TunerPhase) (q : BitVec 2 × BitVec 2 × Byte) : Prop :=
  let s := tunerAt (fun t => { t with phase := ph }) tuning
  let f := decodeFrame (s.afterPolarity l0 (requestFrame q.1 q.2.1 q.2.2))
  GoodIn s (requestFrame q.1 q.2.1 q.2.2) ∧ (s.lane l0).tuner.partnerMark = some f.mark ∧ f.reqKind = q.1 ∧
    f.reqKind ≠ 0 ∧ f.reqTap = q.2.1 ∧ f.reqArg = q.2.2 ∧ (s.lane l0).tuner.lastAnswered ≠ some f.reqTag ∧
    (s.lane l0).tuner.outstanding = none ∧ (s.lane l0).tuner.phase = ph

/-- On a CLIMBING lane side and on a FAILED one: the fourth kind, a NUDGE of the fourth tap. -/
theorem witness_NewRequestIsAnswered :
    NewRequestIn .climbing (3, 0, 0) ∧ NewRequestIn .climbing (1, 3, 1) ∧
      NewRequestIn .failed (3, 0, 0) ∧ NewRequestIn .failed (1, 3, 1) := by
  unfold NewRequestIn GoodIn State.MapPermutes; decide

/-- A NUDGE by a step of 0, of 4 and of −4. -/
theorem witness_NewRequestIsAnswered_bad_step :
    NewRequestIn .climbing (1, 0, 0) ∧ NewRequestIn .climbing (1, 0, 4) ∧
      NewRequestIn .failed (1, 0, 0xFC) := by
  unfold NewRequestIn GoodIn State.MapPermutes; decide

/-- One of each tap, by a step of 3 and of −3. -/
theorem witness_NewRequestIsAnswered_nudge :
    NewRequestIn .climbing (1, 0, 3) ∧ NewRequestIn .climbing (1, 1, 3) ∧
      NewRequestIn .failed (1, 2, 0xFD) := by
  unfold NewRequestIn GoodIn State.MapPermutes; decide

/-- A PRESET of 4, and of 5. -/
theorem witness_NewRequestIsAnswered_preset :
    NewRequestIn .climbing (2, 0, 4) ∧ NewRequestIn .failed (2, 0, 5) := by
  unfold NewRequestIn GoodIn State.MapPermutes; decide

/-- A new request, and a repeated one, with the session DONE. -/
theorem witness_AgreedLaneIsFrozen : ∀ last ∈ [none, some (1 : BitVec 2)],
    let s := (tunerAt (fun t => { t with phase := .agreed, lastAnswered := last }) tuning).modLeg 0
      (fun g => { g with line := { g.line with session := .done } })
    let f := decodeFrame (s.afterPolarity l0 nudgeFrame)
    GoodIn s nudgeFrame ∧ ((s.leg (s.legOf l0)).side .line).session = .done ∧ (s.lane l0).tuner.phase = .agreed ∧
      (s.lane l0).tuner.outstanding = none ∧ (s.lane l0).tuner.partnerMark = some f.mark ∧ f.reqKind ≠ 0 ∧
      (s.lane l0).tuner.lastAnswered = last ∧ f.reqTag = 1 := by
  unfold GoodIn State.MapPermutes; decide

/-- The session RUNNING, another lane side CLIMBING. -/
theorem witness_AgreedLaneIsFrozen_running :
    let s := laneAt ⟨.line, 1⟩ (fun v => { v with tuner := { v.tuner with phase := .climbing } })
      (tunerAt (fun t => { t with phase := .agreed }) tuning)
    GoodIn s nudgeFrame ∧ ((s.leg (s.legOf l0)).side .line).session = .running ∧
      (s.lane l0).tuner.phase = .agreed ∧ (s.lane l0).tuner.outstanding = none ∧
      (∃ y ∈ s.memberSides (s.legOf l0) .line, (s.lane y).tuner.phase ≠ .agreed) := by
  unfold GoodIn State.MapPermutes; decide

/-- A frame whose sum is wrong, and one of another mark. -/
theorem witness_BadFramesAndRestarts :
    let f := decodeFrame (tuning.afterPolarity l0 restartFrame)
    tuning.resetHeld = false ∧ (tuning.leg (tuning.legOf l0)).state = .tune ∧ (tuning.lane l0).locked = true ∧
      tuning.polarity l0 = .normal ∧ (#v[0, 0, 8, 0, 48, 0xF4, 7, 203] : Vector Byte 8).toList.sum ≠ 255 ∧
      GoodIn tuning restartFrame ∧ (tuning.lane l0).tuner.partnerMark = some 7 ∧ 7 ≠ f.mark ∧ f.reqKind = 0 ∧
      (tuning.lane l0).tuner.replyIn f = none ∧ f.content = false ∧ (tuning.lane l0).tuner.phase ≠ .agreed := by
  unfold GoodIn State.MapPermutes; decide

/-- The first good frame of a session, on a CLIMBING lane side and on a HOLDING one. -/
theorem witness_BadFramesAndRestarts_first : ∀ ph ∈ [TunerPhase.climbing, .holding],
    let s := tunerAt (fun t => { t with phase := ph, partnerMark := none }) tuning
    let f := decodeFrame (s.afterPolarity l0 idleFrame)
    GoodIn s idleFrame ∧ (s.lane l0).tuner.partnerMark = none ∧ f.reqKind = 0 ∧
      (s.lane l0).tuner.replyIn f = none ∧ f.content = false ∧ (s.lane l0).tuner.phase = ph := by
  unfold GoodIn State.MapPermutes; decide

/-- The last lane side of 15 frames; one of 14 frames, with CONTENT and without; and one of 15 beside another that is not
AGREED. -/
theorem witness_LastAgreementEntersCarrying :
    let f := decodeFrame (lastHold.afterPolarity l0 contentFrame)
    GoodIn lastHold contentFrame ∧ lastHold.NoWork ∧ (lastHold.lane l0).tuner.partnerMark = some f.mark ∧
      f.reqKind = 0 ∧ f.content = true ∧ (lastHold.lane l0).tuner.outstanding = none ∧
      (lastHold.lane l0).tuner.phase = .holding ∧ (lastHold.lane l0).tuner.hold = 15 ∧
      (∀ y ∈ lastHold.memberSides (lastHold.legOf l0) .line, y ≠ l0 → (lastHold.lane y).tuner.phase = .agreed) ∧
      ((lastHold.leg (lastHold.legOf l0)).side .line).session = .running ∧
      ((lastHold.leg (lastHold.legOf l0)).side (otherSide .line)).session = .done := by
  unfold GoodIn State.NoWork State.MapPermutes; decide

/-- With an EYE_SCAN of L0 for page 1 waiting. -/
theorem witness_LastAgreementEntersCarrying_waiting :
    let s := scanWaiting [] lastHold
    GoodIn s contentFrame ∧ s.ScanWaits (s.legOf l0) scanEntry 1 scanPage ∧ s.handOver = [] ∧
      (s.page 1).state = .free ∧ (s.lane (s.sideOf scanPage.lane scanPage.side)).monitor ≠ .scanning ∧
      (s.engine (s.legOf l0)).inFlight ≠ some scanEntry.slot ∧ (s.lane l0).tuner.hold = 15 := by
  unfold GoodIn State.ScanWaits State.MapPermutes; decide

theorem witness_LastAgreementEntersCarrying_counting : ∀ hold ∈ [0, 14, 15],
    let s := tunerAt (fun t => { t with phase := .holding, hold := hold }) tuning
    (∀ content : Bool, GoodIn s (if content then contentFrame else idleFrame) ∧
      (decodeFrame (s.afterPolarity l0 (if content then contentFrame else idleFrame))).content = content ∧
      (decodeFrame (s.afterPolarity l0 (if content then contentFrame else idleFrame))).reqKind = 0 ∧
      (decodeFrame (s.afterPolarity l0 (if content then contentFrame else idleFrame))).mark = 7) ∧
      (s.lane l0).tuner.partnerMark = some 7 ∧ (s.lane l0).tuner.outstanding = none ∧
      (s.lane l0).tuner.phase = .holding ∧ (s.lane l0).tuner.hold = hold := by
  unfold GoodIn State.MapPermutes; decide

/-- The last lane side of 15 frames with the other side's session RUNNING. -/
theorem witness_LastAgreementEntersCarrying_first_side :
    let s := lastHold.modLeg 0 (fun g => { g with switch := { g.switch with session := .running } })
    let f := decodeFrame (s.afterPolarity l0 contentFrame)
    GoodIn s contentFrame ∧ (s.lane l0).tuner.partnerMark = some f.mark ∧ f.reqKind = 0 ∧ f.content = true ∧
      (s.lane l0).tuner.outstanding = none ∧ (s.lane l0).tuner.phase = .holding ∧ (s.lane l0).tuner.hold = 15 ∧
      (∀ y ∈ s.memberSides (s.legOf l0) .line, y ≠ l0 → (s.lane y).tuner.phase = .agreed) ∧
      ((s.leg (s.legOf l0)).side .line).session = .running ∧
      ((s.leg (s.legOf l0)).side (otherSide .line)).session ≠ .done := by
  unfold GoodIn State.MapPermutes; decide

theorem witness_LastAgreementEntersCarrying_not_last :
    ∃ y ∈ tuning.memberSides (tuning.legOf l0) .line, y ≠ l0 ∧ (tuning.lane y).tuner.phase ≠ .agreed := by decide

theorem witness_NudgeTakesTheFirstQualifyingCandidate : (-3 : Int) ≠ 0 := by decide

/-- Of the start reading with frozen seen and not, of a trial kept and undone, with 2 and with 1 of the requests remaining;
and of no climb. -/
theorem witness_MarginReadingMovesTheClimb : ∀ frozen : Bool, ∀ k ∈ [30, 31],
    ∀ stage ∈ [ClimbStage.baseline, .measuring, .inactive],
    let s := laneAt l0 (fun v => { v with climb := { v.climb with frozenSeen := frozen, answered := k } })
      (reading stage)
    s.resetHeld = false ∧ (s.lane l0).monitor = .reading 0 ∧ (s.lane l0).climb.stage = stage ∧
      (s.lane l0).climb.frozenSeen = frozen ∧ (s.lane l0).climb.best = some 33 ∧ (s.lane l0).climb.answered = k ∧
      33 + (s.lane l0).climb.threshold ≤ (35 : Fin 64).val ∧ (34 : Fin 64).val < 33 + (s.lane l0).climb.threshold := by
  decide

/-- A good frame of mark 7 with a reply of tag 2, with CONTENT or without. -/
def replyFrame (o : ReplyOutcome) (content : Bool) : Vector Byte 8 :=
  let b := FrameFields.bytes ⟨0, 0, 0, 0, ⟨2, o⟩, content, ⟨0, 48, -12⟩, 7⟩
  Vector.ofFn (fun i => b[i.val]!)

/-- L0 is CLIMBING with a request of tag 2 outstanding, in a stage of the climb. -/
def asking (stage : ClimbStage) (tag : BitVec 2) : State :=
  laneAt l0 (fun v => { v with
    climb := { v.climb with stage := stage }, tuner := { v.tuner with outstanding := some ⟨tag, .nudge .post 1⟩ } })
    tuning

/-- Each outcome in each stage that waits for a reply, and a reply of another tag. -/
theorem witness_RepliesMoveTheClimb :
    (∀ stage ∈ [ClimbStage.presetting, .trial, .reverting], ∀ o ∈ [ReplyOutcome.applied, .pinned, .frozen],
      ∀ content : Bool,
      let s := asking stage 2
      let f := decodeFrame (s.afterPolarity l0 (replyFrame o content))
      GoodIn s (replyFrame o content) ∧ (s.lane l0).tuner.partnerMark = some f.mark ∧ f.reqKind = 0 ∧
        (s.lane l0).tuner.phase = .climbing ∧ (s.lane l0).tuner.hold = 0 ∧
        (s.lane l0).tuner.outstanding = some ⟨2, .nudge .post 1⟩ ∧ f.repTag = 2 ∧ f.outcome = some o ∧
        o ≠ .none ∧ (s.lane l0).climb.stage = stage ∧ f.content = content) ∧
      (let s := asking .trial 1
       let f := decodeFrame (s.afterPolarity l0 (replyFrame .applied false))
       GoodIn s (replyFrame .applied false) ∧ (s.lane l0).tuner.outstanding = some ⟨1, .nudge .post 1⟩ ∧
         f.repTag ≠ 1) := by
  unfold GoodIn State.MapPermutes; decide

/-- Short of the last cell and at it, with no cancel asked and with one. -/
theorem witness_ScanCellsFillThePage : ∀ cells ∈ [0, 510, 511], ∀ asked : Bool,
    let s := (scanning cells).modSlot 3 (fun c => { c with cancelAsked := asked })
    s.resetHeld = false ∧ s.mem.wf = true ∧ s.NoWork ∧ (s.page 2).state = .busy 3 0 ∧ (s.page 2).cellsDone = cells ∧
      (s.page 2).cellsDone < 512 ∧ (s.slot 3).cancelAsked = asked := by
  unfold State.NoWork; decide

/-- The last cell of a scan of L0 in page 2, with an EYE_SCAN of L0 for page 1 waiting. -/
theorem witness_ScanCellsFillThePage_waiting :
    let s := scanWaiting [] (scanning 511)
    s.resetHeld = false ∧ s.mem.wf = true ∧ (s.page 2).state = .busy 3 0 ∧ (s.page 2).cellsDone = 511 ∧
      s.ScanWaits 0 scanEntry 1 scanPage ∧ s.handOver = [] ∧ (s.page 2).leg = 0 ∧
      s.sideOf (s.page 2).lane (s.page 2).side = s.sideOf scanPage.lane scanPage.side ∧ (s.leg 0).state = .carrying ∧
      (s.page 1).state = .free ∧ (s.slot 3).cancelAsked = false ∧ scanEntry.slot ≠ 3 := by
  unfold State.ScanWaits; decide

/-- A scan of L0 in page 2 for slot 3, and what each of the five commands asks. -/
theorem witness_LeavingCarryingInterruptsTheScans :
    (let s := scanning 5
     s.resetHeld = false ∧ s.MapPermutes ∧ s.NoWork ∧ s.mem.wf = true ∧ (s.page 2).state = .busy 3 0 ∧
       (s.page 2).leg = 0 ∧ (s.leg 0).state = .carrying ∧ (∀ q, q ≠ 2 → (s.page q).state = .free) ∧
       (∀ m, (s.engine m).inFlight ≠ some 3) ∧ 3 ∉ s.powerWait ∧ s.lowpwr = false ∧ s.effective ≠ .low ∧
       s.legOf l0 = 0 ∧ s.AcceptsTask 0 ∧ s.AwaitedFor awaited 0 ∧ (0 : SlotId) ≠ 3 ∧ (2 : Byte).toNat ≤ 2) ∧
      ((lit (scanning 5)).lane l0).locked = true ∧ ((fading (scanning 5)).lane l0).presence = ⟨false, true, some 0⟩ := by
  unfold State.AcceptsTask State.AwaitedFor State.LineFree State.NoWork State.MapPermutes; decide

/-- An awaited head alone, a posted head alone, and a posted entry behind a LEG_RETUNE. -/
theorem witness_PatienceExpiryGivesUp :
    (∀ e ∈ [retuneEntry, postedEntry],
      (queued [e] ready).resetHeld = false ∧ (queued [e] ready).handOver = [] ∧ e.deferred = true ∧
        e.clock.isSome = true ∧ ((queued [e] ready).engine 0).queue = [e]) ∧
      retuneEntry.awaited = true ∧ postedEntry.awaited = false ∧
      ((queued [retuneEntry, postedEntry] ready).engine 0).queue = [retuneEntry, postedEntry] ∧
      retuneEntry.deferred = true ∧ retuneEntry.kind = .legRetune ∧ retuneEntry.patience.toNat ≤ 3 ∧
      ((queued [retuneEntry, postedEntry] ready).slotByte retuneEntry.slot 0x10).toNat ≤ 2 ∧
      ((queued [retuneEntry, postedEntry] ready).leg 0).state ≠ .carrying := by decide

/-- Held; an unknown kind taken at once; and a slot that is not EMPTY. -/
theorem witness_HandOverFillsTheSlot :
    let s : State := { faulted ready with holdIntake := true }
    s.LineFree ∧ s.device = .ready ∧ (s.slot 4).state = .empty ∧ s.holdIntake = true ∧ s.faultRecord ≠ none ∧
      ready.LineFree ∧ ready.device = .ready ∧ (ready.slot 4).state = .empty ∧ ready.holdIntake = false ∧
      ready.handOver = [] ∧ ready.slotByte 4 1 ≠ 1 ∧ ready.slotByte 4 0 ∉ [1, 2, 3, 4, 5, 6, 7, 8, 0x10, 0x11] ∧
      (slotIn 4 .filled ready).LineFree ∧ ((slotIn 4 .filled ready).slot 4).state ≠ .empty := by
  unfold State.LineFree; decide

theorem witness_EmptyWriteRetractsAndReleases :
    ∀ st ∈ [SlotState.empty, SlotState.filled, SlotState.taken, SlotState.done],
    (slotIn 4 st ready).LineFree ∧ (slotIn 4 st ready).device = .ready ∧ ((slotIn 4 st ready).slot 4).state = st := by
  unfold State.LineFree; decide

/-- In flight; queued; waiting for the rise; a running scan; and the other states of the slot. -/
theorem witness_CancelEndsTheTask :
    (∀ st ∈ [SlotState.empty, SlotState.filled, SlotState.taken, SlotState.done],
      (slotIn 5 st ready).LineFree ∧ (slotIn 5 st ready).device = .ready ∧ (slotIn 5 st ready).handOver = [] ∧
        (∀ l, ((slotIn 5 st ready).engine l).queue.length ≤ 1) ∧ ((slotIn 5 st ready).slot 5).state = st ∧
        ((slotIn 5 st ready).slot 5).cancelAsked = false ∧ 5 ∉ (slotIn 5 st ready).powerWait ∧
        (∀ l, ((slotIn 5 st ready).engine l).inFlight ≠ some 5 ∧ ((slotIn 5 st ready).engine l).queue = [])) ∧
      (let s := (slotIn 5 .taken ready).modEngine 0 (fun e => { e with inFlight := some 5 })
       (s.engine 0).inFlight = some 5 ∧ ∀ m, m ≠ 0 → (s.engine m).inFlight ≠ some 5 ∧ (s.engine m).queue = []) ∧
      (let s := queued [retuneEntry] ready
       (s.engine 0).queue = [retuneEntry] ∧ retuneEntry.awaited = true ∧ retuneEntry.slot = 5 ∧
         (∀ l, (s.engine l).queue.length ≤ 1) ∧ (s.slot 5).state = .taken ∧ (s.slot 5).cancelAsked = false ∧
         ∀ m, m ≠ 0 → (s.engine m).inFlight ≠ some 5 ∧ (s.engine m).queue = []) ∧
      5 ∈ ({ slotIn 5 .taken ready with powerWait := [5] }).powerWait := by
  unfold State.LineFree; decide

/-- Held; INITIALIZING; LEVEL and LATCHED at READY. -/
theorem witness_HeadWritesSetTheAttentionUnit :
    ({ ready with resetHeld := true }).resetHeld = true ∧ State.reset.device = .initializing ∧
      ready.resetHeld = false ∧ ready.device ≠ .initializing ∧ ready.latchedMode = false ∧
      ({ ready with latchedMode := true }).latchedMode = true ∧ ready.LineFree ∧ ready.handOver = [] ∧
      (3 : Byte).getLsbD 7 = false := by
  unfold State.LineFree; decide

/-- A read in progress, and none. -/
theorem witness_SummaryReadReleasesTheLine :
    ready.resetHeld = false ∧ ready.device ≠ .initializing ∧ ready.writeOpen = none ∧ ready.readOpen = none ∧
      ({ ready with readOpen := some ⟨[], true⟩ }).readOpen = some ⟨[], true⟩ ∧ (0x3B : BitVec 7) ≠ 0x3A := by decide

/-- A HELD page, a FREE one and a BUSY one at READY; and an exchange reset in progress. -/
theorem witness_ReleasesEmptyTheLogAndThePage :
    ready.LineFree ∧ ready.handOver = [] ∧ ready.device = .ready ∧ (ready.page 0).state = .free ∧
      ((ready.modPage 0 (fun c => { c with state := .held })).page 0).state = .held ∧
      (scanning 5).LineFree ∧ ((scanning 5).page 2).state = .busy 3 0 ∧
      ({ ready with device := .exchangeResetting }).LineFree ∧
      ({ ready with device := .exchangeResetting }).device ≠ .ready := by
  unfold State.LineFree; decide

theorem witness_ExchangeResetEmptiesTheExchange :
    let s : State := { ready with device := .exchangeResetting }
    ready.LineFree ∧ ready.device = .ready ∧ s.LineFree ∧ s.device = .exchangeResetting ∧ s.handOver = [] ∧
      s.resetHeld = false := by
  unfold State.LineFree; decide

/-- The first and the last listed argument byte of a slot, and the first and the last byte that no table lists. -/
theorem witness_RegisterWriteStoresInAnEmptySlot :
    ready.LineFree ∧ ready.device = .ready ∧ ready.mem.wf = true ∧ 0x10 + [(1 : Byte)].length ≤ 0x20 ∧
      0x1F + [(1 : Byte)].length ≤ 0x20 ∧ 0x20 + [(1 : Byte)].length ≤ 0x80 ∧ 0x7F + [(1 : Byte)].length ≤ 0x80 ∧
      (0x3B : BitVec 7) ≠ 0x3A := by
  unfold State.LineFree; decide

/-- A free line, an empty log and a record, a used leg and an unused one; and a read in progress, with a copy of the block
and with none. -/
theorem witness_ReadsShowTheState :
    ready.LineFree ∧ ready.resetHeld = false ∧ ready.device = .ready ∧ ready.faultRecord = none ∧
      (faulted ready).faultRecord = some record ∧ (faulted ready).LineFree ∧ ready.used 0 = true ∧
      ready.used 3 = false ∧
      (∀ r ∈ [(⟨[(0, List.replicate 64 0)], false⟩ : ReadTransaction), ⟨[], false⟩],
        let s : State := { ready with readOpen := some r }
        s.resetHeld = false ∧ s.device = .ready ∧ s.readOpen = some r ∧
          (r.copies.find? (fun c => c.1 = s.offset.toNat / 64)).isSome = !r.copies.isEmpty) := by
  unfold State.LineFree; decide

/-- What every statement about an awaited leg task asks, in each state of the leg. -/
theorem witness_AcceptsTask : ∀ st ∈ [LegState.parked, LegState.dark, LegState.acquire, LegState.tune, LegState.carrying],
    (inState st ready).AcceptsTask 0 ∧ (inState st ready).AwaitedFor awaited 0 ∧ ((inState st ready).leg 0).state = st ∧
      (inState st ready).MapPermutes := by
  unfold State.AcceptsTask State.AwaitedFor State.LineFree State.NoWork State.MapPermutes; decide

theorem witness_SetupLoadsTheValues :
    ready.AcceptsTask 0 ∧ ready.AwaitedFor awaited 0 ∧ goodSetupCodes (defaults.set 0 3) = false ∧
      goodSetupCodes defaults = true ∧ (ready.leg 0).state = .parked ∧
      ((inState .carrying ready).leg 0).state ≠ .parked := by
  unfold State.AcceptsTask State.AwaitedFor State.LineFree State.NoWork; decide

/-- A lane in another function; LOW power; ACTIVE power. -/
theorem witness_StartSendsTheLegOut :
    let s : State := { ready with map := ready.map.set 0 ⟨0, .normal, .normal, .squelch⟩ }
    s.AcceptsTask 0 ∧ s.AwaitedFor awaited 0 ∧ (s.leg 0).state = .parked ∧ 0 ∈ s.members 0 ∧
      (s.entry 0).function ≠ .carry ∧ ready.AcceptsTask 0 ∧ ready.AwaitedFor awaited 0 ∧
      (ready.leg 0).state = .parked ∧ (∀ i ∈ ready.members 0, (ready.entry i).function = .carry) ∧
      ready.effective = .active ∧ ({ ready with effective := .low }).AcceptsTask 0 := by
  unfold State.AcceptsTask State.AwaitedFor State.LineFree State.NoWork; decide

theorem witness_ParkTaskParksTheLeg :
    let s := (inState .tune ready).modEngine 0 (fun e => { e with inFlight := some 4 })
    s.AcceptsTask 0 ∧ s.AwaitedFor awaited 0 ∧ (s.leg 0).state ≠ .parked ∧ (s.engine 0).inFlight = some 4 ∧
      ready.AcceptsTask 0 ∧ (ready.leg 0).state = .parked := by
  unfold State.AcceptsTask State.AwaitedFor State.LineFree State.NoWork; decide

/-- The three codes of the sides, and one outside them; no page is BUSY. -/
theorem witness_RetuneStartsTheNamedSides :
    let s := inState .carrying ready
    s.AcceptsTask 0 ∧ s.AwaitedFor awaited 0 ∧ (s.leg 0).state = .carrying ∧ s.MapPermutes ∧
      (∀ p, (s.page p).state = .free) ∧ (2 : Byte).toNat ≤ 2 ∧ 2 < (3 : Byte).toNat ∧ (ready.leg 0).state ≠ .carrying := by
  unfold State.AcceptsTask State.AwaitedFor State.LineFree State.NoWork State.MapPermutes; decide

/-- A member lane at the ends of its range; intent 1 with a function other than CARRY; and a code outside the set. -/
theorem witness_LaneFunctionIsSet :
    let s := ready.modLeg 0 (fun g => { g with intent := true })
    s.AcceptsTask 0 ∧ s.AwaitedFor awaited 0 ∧ (s.leg 0).intent = true ∧ (s.leg 0).state = .parked ∧
      0 ∈ s.members 0 ∧ 7 ∈ s.members 0 ∧ (7 : LaneId).val = (7 : Byte).toNat ∧
      LaneFunction.loopNear.code = 3 ∧ LaneFunction.carry.code = 0 ∧ 3 < (4 : Byte).toNat ∧
      (∀ i ∈ s.members 0, i.val ≠ (8 : Byte).toNat) := by
  unfold State.AcceptsTask State.AwaitedFor State.LineFree State.NoWork; decide

/-- In each state of the leg, on both sides, and arguments outside their sets. -/
theorem witness_SetTapsLoadsTheSaturatedTriple :
    (∀ st ∈ [LegState.parked, LegState.dark, LegState.acquire, LegState.tune, LegState.carrying],
      let s := inState st ready
      s.AcceptsTask 0 ∧ s.AwaitedFor awaited 0 ∧ 0 ∈ s.members 0 ∧ (0 : LaneId).val = (0 : Byte).toNat ∧
        7 ∈ s.members 0 ∧ (7 : LaneId).val = (7 : Byte).toNat ∧ (s.leg 0).state = st ∧
        s0 = ⟨.switch, (s.entry 0).source⟩) ∧
      1 < (2 : Byte).toNat ∧ ∀ i ∈ ready.members 0, i.val ≠ (8 : Byte).toNat := by
  unfold State.AcceptsTask State.AwaitedFor State.LineFree State.NoWork; decide

/-- A FREE page and a HELD one; a monitor that is SCANNING; arguments outside their sets. -/
theorem witness_EyeScanStarts :
    let s := inState .carrying ready
    s.AcceptsTask 0 ∧ s.AwaitedFor awaited 0 ∧ (s.leg 0).state = .carrying ∧ 0 ∈ s.members 0 ∧
      (s.lane l0).monitor ≠ .scanning ∧ (s.page 3).state = .free ∧ (3 : PageId).val = (3 : Byte).toNat ∧
      (scanning 5).AcceptsTask 0 ∧ ((scanning 5).lane l0).monitor = .scanning ∧
      ((scanning 5).page 2).state ≠ .free ∧ 3 < (4 : Byte).toNat ∧ (3 : Byte) ≠ 1 ∧ (3 : Byte) ≠ 2 ∧ (3 : Byte) ≠ 4 := by
  unfold State.AcceptsTask State.AwaitedFor State.LineFree State.NoWork; decide

/-- A check put off on a CARRYING leg with page 1 FREE. -/
theorem witness_EyeScanStarts_put_off :
    let s := scanWaiting [0] (fading (inState .carrying ready))
    s.ScanWaits 0 scanEntry 1 scanPage ∧ s.handOver = [] ∧ s.owed = [0] ∧ s.resetHeld = false ∧ s.legOf l0 = 0 ∧
      s.MapPermutes ∧ (s.leg 0).state = .carrying ∧ (s.page 1).state = .free ∧
      (s.lane (s.sideOf scanPage.lane scanPage.side)).monitor ≠ .scanning ∧ (∀ q, (s.page q).state = .free) ∧
      (s.lane l0).locked = true ∧ (s.lane l0).presence = ⟨false, true, some 0⟩ ∧ s.pending = [] := by
  unfold State.ScanWaits State.MapPermutes; decide

/-- On a leg that does not carry, with page 1 HELD, and while another scan runs on L0. -/
theorem witness_EyeScanStarts_put_off_waits :
    ∀ s ∈ [scanWaiting [0] ready,
      (scanWaiting [0] (inState .carrying ready)).modPage 1 (fun c => { c with state := .held }),
      scanWaiting [0] (scanning 5)],
      s.ScanWaits 0 scanEntry 1 scanPage ∧ s.handOver = [] ∧ s.owed = [0] ∧ s.resetHeld = false ∧ s.pending = [] := by
  unfold State.ScanWaits; decide

theorem witness_SnapshotCopiesTheCounters :
    ready.AcceptsTask 0 ∧ ready.AwaitedFor awaited 0 ∧ (1 : Byte).toNat ≤ 1 ∧ 1 < (2 : Byte).toNat := by
  unfold State.AcceptsTask State.AwaitedFor State.LineFree State.NoWork; decide

/-- The entries of the swap of S0 and S1. -/
def swapped (i : LaneId) : MapEntry :=
  { ready.entry i with source := if i = 0 then 1 else if i = 1 then 0 else i }

/-- A permutation, on a PARKED leg and on a CARRYING one; and sources that are none. -/
theorem witness_RemapAppliesTheWholeMap :
    let v : Vector Byte 8 := #v[1, 0, 2, 3, 4, 5, 6, 7]
    ready.AcceptsTask 0 ∧ AwaitedForDevice deviceHeader ∧
      (∀ i : LaneId, (swapped i).source.val = v[i].toNat % 8 ∧ (swapped i).function = (ready.entry i).function ∧
        (swapped i).switchPolarity = (if (0 : Byte).getLsbD i.val then .inverted else .normal) ∧
        (swapped i).linePolarity = (if (0 : Byte).getLsbD i.val then .inverted else .normal)) ∧
      (∀ sw : LaneId, ∃ i : LaneId, v[i].toNat = sw.val) ∧ (∀ l, (ready.leg l).state = .parked) ∧
      swapped 0 ≠ (inState .carrying ready).entry 0 ∧
      ((inState .carrying ready).leg (legOfLine (inState .carrying ready).straps.profile 0)).state ≠ .parked ∧
      (∃ sw : LaneId, ∀ i : LaneId, (#v[0, 0, 2, 3, 4, 5, 6, 7] : Vector Byte 8)[i].toNat ≠ sw.val) := by
  unfold State.AcceptsTask AwaitedForDevice State.LineFree State.NoWork; decide

/-- In each effective power, LOWPWR released and asserted. -/
theorem witness_PowerTaskMovesThePower : ∀ (p : EffectivePower) (pin : Bool),
    ({ ready with effective := p, lowpwr := pin }).AcceptsTask 0 ∧ AwaitedForDevice deviceHeader := by
  intro p pin
  unfold State.AcceptsTask AwaitedForDevice State.LineFree State.NoWork
  cases p <;> cases pin <;> decide

/-- An unused leg, a posted task, and a posted LEG_PARK of a PARKED leg. -/
theorem witness_IntakeChecksTheHeader :
    ready.AcceptsTask 2 ∧ (∀ l : LegId, l.val = (1 : Byte).toNat → ready.used l = false) ∧ posted.cls = 1 ∧
      (0 : LegId).val = posted.leg.toNat ∧ ready.used 0 = true ∧ posted.patience.toNat ≤ 3 ∧
      (ready.leg 0).state = .parked := by
  unfold State.AcceptsTask State.LineFree State.NoWork; decide

/-- A LEG_PARK and a posted SET_TAPS behind a deferred LEG_RETUNE, passing on and off, PARKED and DARK; LOWPWR_ASSERT with
that head alone, with a posted deferred one, and with a LEG_START behind. -/
theorem witness_QueuedEntriesPassOrAreSuperseded : ∀ passing : Bool,
    ∀ st ∈ [LegState.parked, LegState.dark], ∀ rest ∈ [[], [startEntry]],
      let s := (queued (retuneEntry :: rest) (inState st ready)).modLeg 0
        (fun g => { g with setup := { g.setup with passing := passing } })
      s.LineFree ∧ s.device = .ready ∧ s.holdIntake = false ∧ (s.slot 0).state = .empty ∧ s.handOver = [] ∧
        s.mem.wf = true ∧ s.used 0 = true ∧ (s.engine 0).queue = retuneEntry :: rest ∧
        (s.slotByte retuneEntry.slot 0x10).toNat ≤ 2 ∧ (s.leg 0).state = st ∧
        (s.leg 0).setup.passing = passing ∧ 0 ∈ s.members 0 := by
  unfold State.LineFree; decide

theorem witness_QueuedEntriesPassOrAreSuperseded_terms :
    awaited.leg.toNat = (0 : LegId).val ∧ posted.leg.toNat = (0 : LegId).val ∧ awaited.patience.toNat ≤ 3 ∧
      posted.patience.toNat ≤ 3 ∧ awaited.cls ≠ 1 ∧ posted.cls = 1 ∧ retuneEntry.deferred = true ∧
      retuneEntry.awaited = true ∧ retuneEntry.kind = .legRetune ∧ retuneEntry.patience.toNat ≤ 3 ∧
      retuneEntry.slot ≠ 0 ∧ (0 : LaneId).val = (0 : Byte).toNat ∧ startEntry.deferred = false ∧
      startEntry.awaited = true ∧ startEntry.kind = .legStart ∧ startEntry.slot ≠ retuneEntry.slot ∧
      startEntry.slot ≠ 0 := by decide

theorem witness_QueuedEntriesPassOrAreSuperseded_low : ∀ e ∈ [retuneEntry, postedEntry],
    ∀ rest ∈ [[], [startEntry]],
      (queued (e :: rest) ready).resetHeld = false ∧ (queued (e :: rest) ready).lowpwr = false ∧
        (queued (e :: rest) ready).effective ≠ .low ∧ (queued (e :: rest) ready).handOver = [] ∧ e.deferred = true ∧
        (∀ m, m ≠ 0 → ((queued (e :: rest) ready).engine m).queue = []) ∧
        ((queued (e :: rest) ready).engine 0).queue = e :: rest ∧ e.slot ∉ (queued (e :: rest) ready).powerWait ∧
        (∀ g ∈ rest, g.deferred = false ∧ g.awaited = true ∧ g.kind = .legStart ∧ g.patience.toNat ≤ 3 ∧
          g.slot ≠ e.slot) ∧
        ∀ i ∈ (queued (e :: rest) ready).members 0, ((queued (e :: rest) ready).entry i).function = .carry := by
  decide

/-- A state that meets the premises of the invariants, READY with a command waiting. -/
def stepping : State := { ready with pending := [.legStart 0 awaited] }

/-- A page BUSY with a scan, one HELD after its last cell. -/
theorem witness_StepKeepsTheMemoryAndTheCells :
    stepping.mem.wf = true ∧ (∀ p, (stepping.page p).cellsDone = 0) ∧ stepping.mem = [] ∧ stepping.CellsSound ∧
      ∃ t, step stepping = .next t := by
  refine ⟨by decide, by decide, rfl, ?_, _, rfl⟩
  intro p
  have h : (stepping.page p).cellsDone = 0 ∧ (stepping.page p).state = .free := by revert p; decide
  exact ⟨by omega, fun slot left hb => absurd (h.2.symm.trans hb) (by simp), fun k _ _ => rfl⟩

/-- Nothing waiting; a FILLED slot in the list with a task in a queue, one in flight, one waiting for the rise and one
scanning. -/
theorem witness_StepKeepsTheTaskSlots :
    stepping.SlotsAccounted ∧ (∃ t, step stepping = .next t) ∧
      (let s := slotIn 1 .taken (slotIn 2 .taken (slotIn 4 .filled (queued [retuneEntry] (scanning 5))))
       State.SlotsAccounted { s.modEngine 0 (fun e => { e with inFlight := some 1 }) with
         handOver := [4], powerWait := [2] }) := by
  refine ⟨?_, ⟨_, rfl⟩, ?_⟩
  · unfold State.SlotsAccounted State.ListIsFilled; decide
  · unfold State.SlotsAccounted State.ListIsFilled; decide

theorem witness_StepKeepsMapAndTaps :
    stepping.MapPermutes ∧ stepping.TapsValid ∧ ∃ t, step stepping = .next t := by
  refine ⟨?_, ?_, _, rfl⟩
  · unfold State.MapPermutes; decide
  · rintro ⟨side, lane⟩
    revert lane
    cases side <;> decide

theorem witness_StepKeepsTheLegRules :
    stepping.ParkedWithoutPower ∧ stepping.UnusedParked ∧ stepping.CarryOutsideParked ∧
      ∃ t, step stepping = .next t := by
  refine ⟨?_, ?_, ?_, _, rfl⟩
  · unfold State.ParkedWithoutPower; decide
  · unfold State.UnusedParked; decide
  · unfold State.CarryOutsideParked State.NoWork; decide

theorem witness_StepKeepsTheRegistersInRange :
    stepping.QueuesBounded ∧ stepping.CountersBounded ∧ stepping.LegCountersBounded ∧ stepping.FaultLogSound ∧
      stepping.WordsImplemented ∧ ∃ t, step stepping = .next t := by
  refine ⟨?_, ?_, ?_, ?_, ?_, _, rfl⟩
  · unfold State.QueuesBounded; decide
  · rintro ⟨side, lane⟩
    revert lane
    cases side <;> decide
  · unfold State.LegCountersBounded; decide
  · unfold State.FaultLogSound; decide
  · unfold State.WordsImplemented; decide

end Sys2Proof.Tests
end

section
/-! The observed transmit state (R13): one equation for each case, in the order in which they apply. -/

namespace Sys2Proof.Machine

variable {s : State} {x : LaneSide}

/-- R13, first case: RESET_L held, or the power not ACTIVE. -/
theorem State.transmit_of_stopped (h : s.resetHeld = true ∨ s.effective ≠ .active) : s.transmit x = .squelched := by
  have hc : (s.resetHeld || decide (s.effective ≠ .active)) = true := by simpa using h
  rw [State.transmit, if_pos hc]

/-- R13, second case: the loss relay of a leg that is not PARKED holds the transmitter's side squelched. -/
theorem State.transmit_of_relay (hr : s.resetHeld = false) (he : s.effective = .active)
    (hp : (s.leg (s.legOf x)).state ≠ .parked)
    (hq : ((s.leg (s.legOf x)).side (otherSide x.side)).relay.squelching = true) : s.transmit x = .squelched := by
  simp [State.transmit, hr, he, hp, hq]

/-- R13 and Table 1-3: a leg that is not PARKED, its relay not squelching the side, sends DATA in CARRYING and frames
before. -/
theorem State.transmit_of_out (hr : s.resetHeld = false) (he : s.effective = .active)
    (hp : (s.leg (s.legOf x)).state ≠ .parked)
    (hq : ((s.leg (s.legOf x)).side (otherSide x.side)).relay.squelching = false) :
    s.transmit x = if (s.leg (s.legOf x)).state = .carrying then .data else .frames := by
  simp only [State.transmit, hr, he, hq]
  cases hg : (s.leg (s.legOf x)).state with
  | parked => exact absurd hg hp
  | dark | acquire | tune | carrying => simp

/-- R13 and Table 1-3, first row: on a PARKED leg the lane function decides. -/
theorem State.transmit_of_parked (hr : s.resetHeld = false) (he : s.effective = .active)
    (hp : (s.leg (s.legOf x)).state = .parked) :
    s.transmit x = parkedTransmit (s.entry (s.lineOf x)).function x.side := by
  simp [State.transmit, hr, he, hp]

/-- Settles O18, case by case of R13. -/
theorem transmitStateFollowsTheTable : Obligations.TransmitStateFollowsTheTable := by
  intro x s
  refine ⟨State.transmit_of_stopped, fun hr he => ⟨State.transmit_of_relay hr he, State.transmit_of_out hr he, ?_⟩⟩
  intro hp
  rw [State.transmit_of_parked hr he hp]
  cases x.side <;> cases (s.entry (s.lineOf x)).function <;> rfl

end Sys2Proof.Machine
end

section
/-! The hand-over of an awaited leg task that its engine executes at once: the intake takes it, it stands alone in the
queue of its leg, and its kind runs on the state in which its slot is TAKEN (R138, R139, R146). -/

namespace Sys2Proof.Machine

variable {s u v t : State} {n : SlotId} {k : TaskKind} {h : TaskHeader} {args : List Byte} {l : LegId}

/-! ### What the premises give -/

theorem State.AcceptsTask.wf (ha : s.AcceptsTask n) : s.mem.wf = true := by
  obtain ⟨-, -, -, -, -, hw⟩ := ha
  exact hw

theorem State.AcceptsTask.queue_nil (ha : s.AcceptsTask n) (l : LegId) : (s.engine l).queue = [] := by
  obtain ⟨-, -, -, -, ⟨-, hqueues, -⟩, -⟩ := ha
  exact hqueues l

theorem State.AwaitedFor.patience_le (hh : s.AwaitedFor h l) : h.patience.toNat ≤ 3 := by
  obtain ⟨-, -, -, hp⟩ := hh
  exact hp

/-! ### The task in its slot -/

/-- R139: the awaited task of slot n has been taken: its bytes stored, its result area 0, the line interface as the
transaction leaves it. -/
def State.takenTask (s : State) (n : SlotId) (k : TaskKind) (h : TaskHeader) (args : List Byte) : State :=
  { s with
    acknowledged := true, offset := BitVec.ofNat 16 (slotBase n + (0x10 + args.length)), writeOpen := none
    mem := ((s.mem.writeBytes (slotBase n) [k.code, h.cls, h.leg, h.patience, h.label0, h.label1]).writeBytes
      (slotBase n + 0x10) args).clear (slotBase n + 0x80) 0x80
    handOver := [] }.modSlot n (fun _ => ⟨.taken, .inProgress, false⟩)

/-- R145: the entry that an awaited task makes. -/
def awaitedEntry (n : SlotId) (k : TaskKind) (h : TaskHeader) : Entry :=
  ⟨k, true, n, k.code, h.leg, h.patience, h.label0, h.label1, [], false, none⟩

/-- Below its result area a slot holds the header and the arguments written, and elsewhere what stood there. -/
theorem State.filledTask_slotByte (hw : s.mem.wf = true) (i : Nat) :
    (s.filledTask n k h args).slotByte n i =
      if 0x10 ≤ i ∧ i < 0x10 + args.length then args.getD (i - 0x10) 0
      else if i < 6 then [k.code, h.cls, h.leg, h.patience, h.label0, h.label1].getD i 0
      else s.slotByte n i := by
  show Memory.read (Memory.writeBytes (Memory.writeBytes _ _ _) _ _) _ = _
  rw [Memory.read_writeBytes _ _ _ _ (Memory.wf_writeBytes _ _ _ hw), Memory.read_writeBytes _ _ _ _ hw]
  have h1 : (slotBase n + 0x10 ≤ slotBase n + i ∧ slotBase n + i < slotBase n + 0x10 + args.length) ↔
      (0x10 ≤ i ∧ i < 0x10 + args.length) := by omega
  have h2 : (slotBase n ≤ slotBase n + i ∧ slotBase n + i < slotBase n + 6) ↔ i < 6 := by omega
  have h3 : slotBase n + i - (slotBase n + 0x10) = i - 0x10 := by omega
  have h4 : slotBase n + i - slotBase n = i := by omega
  simp only [List.length_cons, List.length_nil, Nat.zero_add, Nat.reduceAdd, h1, h2, h3, h4, State.slotByte]

/-- The take clears nothing below the result area. -/
theorem State.takenTask_slotByte (i : Nat) (hi : i < 0x80) :
    (s.takenTask n k h args).slotByte n i = (s.filledTask n k h args).slotByte n i := by
  show Memory.read (Memory.clear _ _ _) _ = Memory.read _ _
  rw [Memory.read_clear, if_neg (by omega)]
  rfl

/-- R139: the result area of the task taken is 0. -/
theorem State.takenTask_resultByte (j : Nat) (hj : j < 0x80) :
    (s.takenTask n k h args).slotByte n (0x80 + j) = 0 := by
  show Memory.read (Memory.clear _ _ _) _ = 0
  rw [Memory.read_clear, if_pos (by omega)]

/-- The bytes outside the slot stand. -/
theorem State.takenTask_sameBytesOutside (hw : s.mem.wf = true) (hl : args.length ≤ 0x10) :
    s.SameBytesOutside (s.takenTask n k h args) n := by
  intro a ha
  show Memory.read (Memory.clear (Memory.writeBytes (Memory.writeBytes _ _ _) _ _) _ _) _ = _
  rw [Memory.read_clear, if_neg (by omega), Memory.read_writeBytes _ _ _ _ (Memory.wf_writeBytes _ _ _ hw),
    if_neg (by omega), Memory.read_writeBytes _ _ _ _ hw, if_neg]
  simp only [List.length_cons, List.length_nil]
  omega

/-- The memory of the task taken is canonical. -/
theorem State.takenTask_wf (hw : s.mem.wf = true) : (s.takenTask n k h args).mem.wf = true :=
  Memory.wf_clear _ _ _ (Memory.wf_writeBytes _ _ _ (Memory.wf_writeBytes _ _ _ hw))

/-- A state whose slot n is, below its result area, that of the task taken, holds the task. -/
theorem State.taskWritten_of_slotByte (hw : s.mem.wf = true)
    (ht : ∀ i, i < 0x80 → t.slotByte n i = (s.takenTask n k h args).slotByte n i) : s.TaskWritten t n k h args := by
  have hb : ∀ i, i < 0x80 → t.slotByte n i = (s.filledTask n k h args).slotByte n i := fun i hi =>
    (ht i hi).trans (State.takenTask_slotByte i hi)
  have hheader : ∀ i, i < 6 →
      t.slotByte n i = [k.code, h.cls, h.leg, h.patience, h.label0, h.label1].getD i 0 := fun i hi => by
    rw [hb i (by omega), State.filledTask_slotByte hw, if_neg (by omega), if_pos hi]
  refine ⟨hheader 0 (by decide), hheader 1 (by decide), hheader 2 (by decide), hheader 3 (by decide),
    hheader 4 (by decide), hheader 5 (by decide), fun i h6 hi => ?_⟩
  rw [hb i hi, State.filledTask_slotByte hw, if_neg (show ¬i < 6 by omega)]

/-- R145: an awaited entry reads its arguments in its slot. -/
theorem State.arg_takenTask (hw : s.mem.wf = true) (hl : args.length ≤ 0x10) (j : Nat) (hj : j < args.length) :
    (s.takenTask n k h args).arg (awaitedEntry n k h) j = args.getD j 0 := by
  show (s.takenTask n k h args).slotByte n (0x10 + j) = _
  rw [State.takenTask_slotByte _ (by omega), State.filledTask_slotByte hw, if_pos (by omega), Nat.add_sub_cancel_left]

/-! ### The take -/

/-- Table 11-8: a kind's code names it. -/
@[simp] theorem taskKind_code (k : TaskKind) : taskKind k.code = some k := by cases k <;> rfl

/-- A byte that is the number of a leg names it. -/
theorem decodeFin_of_toNat {m : Nat} {b : Byte} {i : Fin m} (hb : b.toNat = i.val) : decodeFin m b = some i := by
  simp [decodeFin, hb]

/-- R138: the header of an awaited leg task for a used leg passes the intake's checks. -/
theorem State.checkSlot_filledTask (hw : s.mem.wf = true) (hh : s.AwaitedFor h l) (hk : k.device = false) :
    (s.filledTask n k h args).checkSlot n = .ok (k, .leg l) := by
  obtain ⟨hcls, hleg, hused, -⟩ := hh
  replace hcls : h.cls ≠ 1#8 := hcls
  have hu : (s.filledTask n k h args).used l = true := hused
  have h0 : (s.filledTask n k h args).slotByte n 0 = k.code := by simp [State.filledTask_slotByte hw]
  have h1 : (s.filledTask n k h args).slotByte n 1 = h.cls := by simp [State.filledTask_slotByte hw]
  have h2 : (s.filledTask n k h args).slotByte n 2 = h.leg := by simp [State.filledTask_slotByte hw]
  simp [State.checkSlot, h0, h1, h2, hcls, hk, hu, decodeFin_of_toNat hleg]

/-- R139, R145: the entry of an awaited task. -/
theorem State.makeEntry_filledTask (hw : s.mem.wf = true) (hc : h.cls ≠ 1) :
    (s.filledTask n k h args).makeEntry n k = awaitedEntry n k h := by
  replace hc : h.cls ≠ 1#8 := hc
  simp [State.makeEntry, awaitedEntry, State.filledTask_slotByte hw, hc]

/-- R139: the take of the one slot that waits. -/
theorem State.takeSlot_filledTask (hho : s.handOver = []) :
    (s.filledTask n k h args).takeSlot n true = s.takenTask n k h args := by
  simp [State.takeSlot, State.leaveList, State.filledTask, State.takenTask, State.modSlot, hho]

/-- R138, R139: an awaited leg task handed over with nothing waiting is taken, and its engine examines a queue that
holds it alone. -/
theorem State.handOverTask_examines (ha : s.AcceptsTask n) (hh : s.AwaitedFor h l) (hk : k.device = false)
    (hl : args.length ≤ 0x10) :
    s.handOverTask n k h args = ((s.takenTask n k h args).setQueue l [awaitedEntry n k h]).examineLeg l := by
  obtain ⟨hf, hready, hheld, hempty, ⟨hlist, hqueues, -⟩, hw⟩ := ha
  have hq : ((s.filledTask n k h args).engine l).queue = [] := hqueues l
  have hq' : ((s.takenTask n k h args).engine l).queue = [] := hqueues l
  rw [State.handOverTask_intake n k h args hf (by simp [hready]) hempty hl,
    State.intake_takes (n := n) (k := k) (t := .leg l) (by simp [State.filledTask, hlist]) ?held
      (State.checkSlot_filledTask hw hh hk) (by simp [State.hasRoom, hq, Config.legQueueCapacity])]
  case held => rcases hheld with hc | hc <;> simp [State.intakeHeld, State.filledTask, hc]
  simp only [State.takeTask, State.makeEntry_filledTask hw hh.1]
  rw [show (awaitedEntry n k h).awaited = true from rfl, State.takeSlot_filledTask hlist, hq', List.nil_append]

/-! ### The execution -/

/-- R144: the end of an awaited task is in its slot. -/
theorem State.endTask_awaitedEntry (result : List Byte) (st : Status) :
    u.endTask (awaitedEntry n k h) result st = u.endAwaited n result st := rfl

/-- Putting back a queue that was replaced restores the state. -/
theorem State.setQueue_restore (q : List Entry) : (s.setQueue l q).setQueue l (s.engine l).queue = s := by
  have he : s.engines.set l { s.engines[l] with queue := s.engines[l].queue } = s.engines := Vector.set_getElem_self _
  simpa [State.setQueue, State.modEngine, State.engine] using congrArg (fun v => { s with engines := v }) he

/-- R146: a task alone in its queue that its engine executes or refuses leaves it empty, and the examination ends. -/
theorem State.examineLeg_single {e : Entry} (hq : (u.engine l).queue = []) (hrun : u.runLegTask l e = some t)
    (ht : (t.engine l).queue = []) : (u.setQueue l [e]).examineLeg l = t := by
  have hqe : ((u.setQueue l [e]).engine l).queue = [e] := by rw [State.engine_setQueue, if_pos rfl]
  have hd : (u.setQueue l [e]).setQueue l (dropAt [e] 0) = u := by
    simpa [dropAt, hq] using State.setQueue_restore (s := u) (l := l) [e]
  have hat : (u.setQueue l [e]).attemptAt l 0 e = some t := by rw [State.attemptAt, hqe, hd, hrun]
  simp [State.examineLeg, State.examineRounds, hqe, hat, ht]

/-- R138, R146: an awaited leg task handed over with nothing waiting, that its engine executes or refuses, does what
its kind does to the state in which it has been taken. -/
theorem State.handOverTask_runs (ha : s.AcceptsTask n) (hh : s.AwaitedFor h l) (hk : k.device = false)
    (hl : args.length ≤ 0x10) (hrun : (s.takenTask n k h args).runLegTask l (awaitedEntry n k h) = some t)
    (ht : (t.engine l).queue = []) : s.handOverTask n k h args = t := by
  have hq : ((s.takenTask n k h args).engine l).queue = [] := ha.queue_nil l
  rw [State.handOverTask_examines ha hh hk hl, State.examineLeg_single hq hrun ht]

/-! ### The end of a task that changes the map and the lane sides at most -/

/-- Only the lane map and the lane sides differ. -/
def State.SameButLanes (u v : State) : Prop :=
  ∃ map line switch, v = { u with map := map, lineSide := line, switchSide := switch }

theorem State.SameButLanes.refl (u : State) : u.SameButLanes u := ⟨u.map, u.lineSide, u.switchSide, rfl⟩

/-- The task, the line interface and the registers that no task changes, after the task's end. -/
theorem State.carried_endAwaited (ha : s.AcceptsTask n) (hv : (s.takenTask n k h args).SameButLanes v)
    (result : List Byte) (st : Status) : s.Carried (v.endAwaited n result st) n k h args := by
  obtain ⟨⟨-, -, -, hread⟩, -, -, -, ⟨-, -, hdev⟩, hw⟩ := ha
  obtain ⟨map, line, switch, rfl⟩ := hv
  have hbytes : s.TaskWritten (State.endAwaited { s.takenTask n k h args with
      map := map, lineSide := line, switchSide := switch } n result st) n k h args := by
    refine State.taskWritten_of_slotByte hw (fun i hi => ?_)
    show Memory.read (Memory.writeBytes _ _ _) _ = _
    rw [Memory.read_writeBytes _ _ _ _ (State.takenTask_wf hw), if_neg (by omega)]
    rfl
  exact ⟨hbytes, ⟨congrArg (BitVec.ofNat 16) (Nat.add_assoc ..).symm, rfl, hread, rfl, rfl⟩, ⟨rfl, rfl, rfl⟩,
    ⟨rfl, rfl, rfl, rfl, rfl, rfl⟩, ⟨rfl, rfl⟩, rfl, rfl, rfl, hdev, rfl⟩

/-- R140: the slot, its result area, its DONE bit and the empty queues after the task's end. -/
theorem State.taskDone_endAwaited (ha : s.AcceptsTask n) (hl : args.length ≤ 0x10)
    (hv : (s.takenTask n k h args).SameButLanes v) {result : List Byte} (hr : result.length ≤ 0x80) (st : Status) :
    s.TaskDone (v.endAwaited n result st) n st result := by
  obtain ⟨map, line, switch, rfl⟩ := hv
  have hslot (m : SlotId) :
      (s.takenTask n k h args).slot m = if m = n then ⟨.taken, .inProgress, false⟩ else s.slot m :=
    State.slot_modSlot _ n m _
  refine ⟨?_, rfl, fun m hm => ?_, fun j hj => ?_, fun a hout => ?_, ha.queue_nil⟩
  · rw [State.slot_endAwaited, if_pos rfl]
    exact congrArg (fun c : Slot => { c with state := .done, status := st }) ((hslot n).trans (if_pos rfl))
  · rw [State.slot_endAwaited, if_neg (by simpa using hm)]
    exact (hslot m).trans (if_neg (by simpa using hm))
  · show Memory.read (Memory.writeBytes _ _ _) _ = _
    rw [Memory.read_writeBytes _ _ _ _ (State.takenTask_wf ha.wf)]
    split
    · rw [show slotBase n + (0x80 + j) - (slotBase n + 0x80) = j by omega]
    · rw [List.getD_eq_default _ _ (by omega)]
      exact State.takenTask_resultByte j hj
  · show Memory.read (Memory.writeBytes _ _ _) _ = _
    rw [Memory.read_writeBytes _ _ _ _ (State.takenTask_wf ha.wf), if_neg (by omega)]
    exact State.takenTask_sameBytesOutside ha.wf hl a hout

/-- Nothing else of the part changes. -/
theorem State.sameOutsideLegs_endAwaited (hv : (s.takenTask n k h args).SameButLanes v) (result : List Byte)
    (st : Status) : s.SameOutsideLegs (v.endAwaited n result st) [] := by
  obtain ⟨map, line, switch, rfl⟩ := hv
  exact ⟨⟨rfl, rfl, rfl⟩, fun _ _ => rfl, rfl, rfl, fun _ _ => rfl, fun _ _ => rfl⟩

/-- A task that ends with no result bytes on the state in which it has been taken is refused. -/
theorem State.taskRefused_endAwaited (ha : s.AcceptsTask n) (hl : args.length ≤ 0x10) (st : Status) :
    s.TaskRefused ((s.takenTask n k h args).endAwaited n [] st) n st :=
  ⟨State.taskDone_endAwaited ha hl (.refl _) (Nat.zero_le _) st, State.sameOutsideLegs_endAwaited (.refl _) _ _,
    fun _ => rfl, fun _ _ => rfl⟩

end Sys2Proof.Machine
end

section
/-! LANE_FUNCTION (R20) and the masks of the lane pair it changes (R18). -/

namespace Sys2Proof.Machine

variable {s u : State} {n : SlotId} {h : TaskHeader} {lane function : Byte} {l : LegId} {i : LaneId} {f : LaneFunction}

/-! ### The operands -/

/-- The members of a leg are the line lanes that the profile gives it. -/
theorem State.mem_members : i ∈ s.members l ↔ legOfLine s.straps.profile i = l := by
  have hi : i ∈ allLanes := by revert i; decide
  simp [State.members, hi]

/-- A line lane argument names the member lane of its number. -/
theorem State.memberArg_eq_some {b : Byte} : s.memberArg l b = some i ↔ i ∈ s.members l ∧ i.val = b.toNat := by
  rw [State.mem_members, State.memberArg, decodeFin]
  constructor
  · intro hm
    split at hm
    · simp only [Option.bind_some, Option.ite_none_right_eq_some, Option.some.injEq] at hm
      obtain ⟨hm, rfl⟩ := hm
      exact ⟨hm, rfl⟩
    · cases hm
  · rintro ⟨hm, hb⟩
    rw [dif_pos (hb ▸ i.isLt)]
    simp [← hb, hm]

/-- Table 11-5: a byte decodes to the function whose code it is. -/
theorem decodeFunction_eq_some {b : Byte} : decodeFunction b = some f ↔ f.code = b := by
  cases f <;> revert b <;> decide

/-- Table 11-5: the codes above 3 name no function. -/
theorem decodeFunction_eq_none {b : Byte} : decodeFunction b = none ↔ 3 < b.toNat := by
  revert b
  decide

/-! ### The function set -/

/-- R20: to set a function is to change the map and the lane sides at most. -/
theorem State.setFunction_sameButLanes (u : State) (i : LaneId) (f : LaneFunction) :
    u.SameButLanes (u.setFunction i f) := by
  unfold State.setFunction
  split
  · exact .refl u
  · exact ⟨_, _, _, rfl⟩

/-- The function the entry already has is no change. -/
theorem State.setFunction_of_eq (hf : (s.entry i).function = f) : s.setFunction i f = s := by
  rw [State.setFunction, if_pos hf]

/-- The map after a function is set. -/
theorem State.entry_setFunction (j : LaneId) :
    (s.setFunction i f).entry j = if j = i then { s.entry i with function := f } else s.entry j := by
  unfold State.setFunction
  split
  · subst f
    split
    · next hj => rw [hj]
    · rfl
  · rw [State.maskPair, State.entry_modLanes]
    by_cases hj : j = i
    · subst hj; simp [State.entry]
    · simp [State.entry, hj, Fin.val_inj, Ne.symm hj]

/-- R18: a change of function masks the line lane and its source, and no other lane side. -/
theorem State.lane_setFunction_of_ne (hf : (s.entry i).function ≠ f) (x : LaneSide) :
    (s.setFunction i f).lane x =
      if x ∈ [(⟨.line, i⟩ : LaneSide), ⟨.switch, (s.entry i).source⟩] then (s.lane x).startMask else s.lane x := by
  have hsource : (State.entry { s with map := s.map.set i { s.entry i with function := f } } i).source =
      (s.entry i).source := by simp [State.entry]
  rw [State.setFunction, if_neg hf, State.maskPair]
  simp only [State.sideOf, hsource]
  split
  · next hx => exact State.lane_modLanes_of_mem _ _ _ _ hx (by simp)
  · next hx => exact State.lane_modLanes_of_notMem _ _ _ _ hx

/-! ### The task -/

/-- R20, first check: a line lane that is no member, or a code that names no function. -/
theorem State.runLaneFunction_badArgument {e : Entry}
    (hb : u.memberArg l (u.arg e 0) = none ∨ decodeFunction (u.arg e 1) = none) :
    u.runLaneFunction l e = u.endTask e [] .badArgument := by
  unfold State.runLaneFunction
  split
  · next hi hf => simp [hi, hf] at hb
  · rfl

/-- R20, second and third check: the leg is not PARKED, or holds intent 1 and the function is not CARRY. -/
theorem State.runLaneFunction_wrongState {e : Entry} (hi : u.memberArg l (u.arg e 0) = some i)
    (hf : decodeFunction (u.arg e 1) = some f)
    (hw : (u.leg l).state ≠ .parked ∨ (f ≠ .carry ∧ (u.leg l).intent = true)) :
    u.runLaneFunction l e = u.endTask e [] .wrongState := by
  simp only [State.runLaneFunction, hi, hf]
  split
  · rfl
  · next hp => rw [if_pos (hw.resolve_left hp)]

/-- R20, step 4: the function is set. -/
theorem State.runLaneFunction_sets {e : Entry} (hi : u.memberArg l (u.arg e 0) = some i)
    (hf : decodeFunction (u.arg e 1) = some f) (hp : (u.leg l).state = .parked)
    (hc : f = .carry ∨ (u.leg l).intent = false) :
    u.runLaneFunction l e = (u.setFunction i f).endTask e [(u.entry i).function.code, f.code] .ok := by
  have hn : ¬(f ≠ .carry ∧ (u.leg l).intent = true) := by
    rintro ⟨h1, h2⟩
    simp [h1, h2] at hc
  simp only [State.runLaneFunction, hi, hf, hp, hn, ne_eq, not_true_eq_false, if_false]

/-- R146: the engine executes or refuses a LANE_FUNCTION in every state of the leg. -/
theorem State.runLegTask_laneFunction (hp : h.patience.toNat ≤ 3) :
    u.runLegTask l (awaitedEntry n .laneFunction h) = some (u.runLaneFunction l (awaitedEntry n .laneFunction h)) := by
  have hg : (awaitedEntry n .laneFunction h).patienceGood = true := decide_eq_true hp
  rw [State.runLegTask, hg]
  rfl

/-- A LANE_FUNCTION handed over with nothing waiting ends as R20 ends it on the state in which it has been taken. -/
theorem exec_laneFunction_of_run {v : State} {result : List Byte} {st : Status} (ha : s.AcceptsTask n)
    (hh : s.AwaitedFor h l) (hv : (s.takenTask n .laneFunction h [lane, function]).SameButLanes v)
    (hrun : (s.takenTask n .laneFunction h [lane, function]).runLaneFunction l (awaitedEntry n .laneFunction h) =
      v.endTask (awaitedEntry n .laneFunction h) result st) :
    exec (.laneFunction n h lane function) s = .next (v.endAwaited n result st) := by
  have hqueue : ((v.endAwaited n result st).engine l).queue = [] := by
    obtain ⟨map, line, switch, rfl⟩ := hv
    exact ha.queue_nil l
  refine congrArg Host.Outcome.next (State.handOverTask_runs ha hh rfl (by simp) ?_ hqueue)
  rw [State.runLegTask_laneFunction hh.patience_le, hrun, State.endTask_awaitedEntry]

/-- The line lane argument of a LANE_FUNCTION taken names the member lane of its number. -/
theorem memberArg_laneFunction (ha : s.AcceptsTask n) :
    (s.takenTask n .laneFunction h [lane, function]).memberArg l
        ((s.takenTask n .laneFunction h [lane, function]).arg (awaitedEntry n .laneFunction h) 0) = some i ↔
      i ∈ s.members l ∧ i.val = lane.toNat := by
  rw [State.arg_takenTask ha.wf (by simp) 0 (by simp)]
  exact State.memberArg_eq_some

/-- The function argument of a LANE_FUNCTION taken. -/
theorem decodeFunction_laneFunction (ha : s.AcceptsTask n) :
    decodeFunction ((s.takenTask n .laneFunction h [lane, function]).arg (awaitedEntry n .laneFunction h) 1) =
      decodeFunction function := by
  rw [State.arg_takenTask ha.wf (by simp) 1 (by simp)]
  rfl

/-- R20, first check, for the command. -/
theorem exec_laneFunction_badArgument (ha : s.AcceptsTask n) (hh : s.AwaitedFor h l)
    (hb : (∀ i ∈ s.members l, i.val ≠ lane.toNat) ∨ 3 < function.toNat) :
    exec (.laneFunction n h lane function) s =
      .next ((s.takenTask n .laneFunction h [lane, function]).endAwaited n [] .badArgument) := by
  refine exec_laneFunction_of_run ha hh (.refl _)
    (State.runLaneFunction_badArgument (hb.imp (fun hm => ?_) fun hf => ?_))
  · refine Option.eq_none_iff_forall_ne_some.mpr (fun i hi => ?_)
    obtain ⟨hmem, hval⟩ := (memberArg_laneFunction ha).mp hi
    exact hm i hmem hval
  · exact (decodeFunction_laneFunction ha).trans (decodeFunction_eq_none.mpr hf)

/-- R20, second and third check, for the command. -/
theorem exec_laneFunction_wrongState (ha : s.AcceptsTask n) (hh : s.AwaitedFor h l) (hi : i ∈ s.members l)
    (hval : i.val = lane.toNat) (hf : f.code = function)
    (hw : (s.leg l).state ≠ .parked ∨ (f ≠ .carry ∧ (s.leg l).intent = true)) :
    exec (.laneFunction n h lane function) s =
      .next ((s.takenTask n .laneFunction h [lane, function]).endAwaited n [] .wrongState) :=
  exec_laneFunction_of_run ha hh (.refl _) (State.runLaneFunction_wrongState
    ((memberArg_laneFunction ha).mpr ⟨hi, hval⟩)
    ((decodeFunction_laneFunction ha).trans (decodeFunction_eq_some.mpr hf)) hw)

/-- R20, step 4, for the command. -/
theorem exec_laneFunction_sets (ha : s.AcceptsTask n) (hh : s.AwaitedFor h l) (hi : i ∈ s.members l)
    (hval : i.val = lane.toNat) (hf : f.code = function) (hp : (s.leg l).state = .parked)
    (hc : f = .carry ∨ (s.leg l).intent = false) :
    exec (.laneFunction n h lane function) s =
      .next (((s.takenTask n .laneFunction h [lane, function]).setFunction i f).endAwaited n
        [(s.entry i).function.code, f.code] .ok) :=
  exec_laneFunction_of_run ha hh (State.setFunction_sameButLanes _ i f)
    (State.runLaneFunction_sets ((memberArg_laneFunction ha).mpr ⟨hi, hval⟩)
      ((decodeFunction_laneFunction ha).trans (decodeFunction_eq_some.mpr hf)) hp hc)

/-- R18, R20: the map and the lane sides after a LANE_FUNCTION that is executed. -/
theorem State.lanes_laneFunction {u t : State} {result : List Byte}
    (ht : t = (u.setFunction i f).endAwaited n result .ok) :
    t.entry i = { u.entry i with function := f } ∧ (∀ j, j ≠ i → t.entry j = u.entry j) ∧
      ((u.entry i).function = f → u.SameLanesBut [] t) ∧
      ((u.entry i).function ≠ f → u.SameLanesBut [⟨.line, i⟩, ⟨.switch, (u.entry i).source⟩] t ∧
        ∀ x : LaneSide, x = ⟨.line, i⟩ ∨ x = ⟨.switch, (u.entry i).source⟩ → t.lane x = (u.lane x).startMask) := by
  subst ht
  simp only [State.SameLanesBut, State.entry_endAwaited, State.lane_endAwaited]
  refine ⟨by rw [State.entry_setFunction, if_pos rfl], fun j hj => by rw [State.entry_setFunction, if_neg hj],
    fun hf y _ => by rw [State.setFunction_of_eq hf], fun hf => ⟨fun y hy => ?_, fun x hx => ?_⟩⟩
  · rw [State.lane_setFunction_of_ne hf, if_neg hy]
  · rw [State.lane_setFunction_of_ne hf, if_pos (by simpa using hx)]

/-- R18: the mask that starts, by the timer's state. -/
theorem LaneState.startMask_eq (v : LaneState) : v.startMask =
    { v with mask := ⟨some 2000, if v.mask.timer = none then v.presence.qualified else v.mask.start⟩ } := by
  simp [LaneState.startMask, Config.maskTime]

/-- Settles O47, in the order of the checks of R20. -/
theorem laneFunctionIsSet : Obligations.LaneFunctionIsSet := by
  intro n h lane function l s ha hh
  have hl : [lane, function].length ≤ 0x10 := by simp
  by_cases hb : (∀ i ∈ s.members l, i.val ≠ lane.toNat) ∨ 3 < function.toNat
  case pos =>
    refine ⟨_, exec_laneFunction_badArgument ha hh hb, State.carried_endAwaited ha (.refl _) _ _,
      fun _ => State.taskRefused_endAwaited ha hl _, fun i f hi hval hf => absurd hb ?_⟩
    rw [← decodeFunction_eq_none, decodeFunction_eq_some.mpr hf]
    simpa using ⟨i, hi, hval⟩
  case neg =>
    obtain ⟨⟨i, hi, hval⟩, hcode⟩ : (∃ i ∈ s.members l, i.val = lane.toNat) ∧ decodeFunction function ≠ none := by
      simpa [decodeFunction_eq_none] using hb
    obtain ⟨f, hdecode⟩ := Option.ne_none_iff_exists'.mp hcode
    have hf : f.code = function := decodeFunction_eq_some.mp hdecode
    have huniq : ∀ (j : LaneId) (g : LaneFunction), j.val = lane.toNat → g.code = function → j = i ∧ g = f :=
      fun j g hj hg => ⟨Fin.ext (hj.trans hval.symm),
        Option.some.inj ((decodeFunction_eq_some.mpr hg).symm.trans hdecode)⟩
    by_cases hw : (s.leg l).state ≠ .parked ∨ (f ≠ .carry ∧ (s.leg l).intent = true)
    case pos =>
      refine ⟨_, exec_laneFunction_wrongState ha hh hi hval hf hw, State.carried_endAwaited ha (.refl _) _ _,
        fun hb' => absurd hb' hb, fun j g _ hj hg => ?_⟩
      obtain ⟨rfl, rfl⟩ := huniq j g hj hg
      refine ⟨fun _ => State.taskRefused_endAwaited ha hl _, fun hp hc => absurd hw ?_⟩
      rcases hc with hc | hc <;> simp [hp, hc]
    case neg =>
      obtain ⟨hp, hc⟩ : (s.leg l).state = .parked ∧ (f = .carry ∨ (s.leg l).intent = false) := by
        simpa [or_iff_not_imp_left] using hw
      refine ⟨_, exec_laneFunction_sets ha hh hi hval hf hp hc,
        State.carried_endAwaited ha (State.setFunction_sameButLanes _ i f) _ _, fun hb' => absurd hb' hb,
        fun j g _ hj hg => ?_⟩
      obtain ⟨rfl, rfl⟩ := huniq j g hj hg
      refine ⟨fun hw' => absurd hw' hw, fun _ _ => ?_⟩
      have hv := State.setFunction_sameButLanes (s.takenTask n .laneFunction h [lane, function]) j g
      refine ⟨State.taskDone_endAwaited ha hl hv (by simp) _, State.sameOutsideLegs_endAwaited hv _ _, ?_⟩
      simp only [← LaneState.startMask_eq]
      exact State.lanes_laneFunction (u := s.takenTask n .laneFunction h [lane, function]) rfl

end Sys2Proof.Machine
end

section
/-! An event of a leg with no task waiting (R146), and the outcome that a leg reports to its engine (R41, R155). -/

namespace Sys2Proof.Machine

variable {s : State} {l : LegId}

/-! ### An examination with nothing to examine -/

/-- R146: with an empty leg queue an examination does nothing. -/
theorem State.examineLeg_nil (hq : (s.engine l).queue = []) : s.examineLeg l = s := by
  simp [State.examineLeg, State.examineRounds, hq]

/-- R146: with no task waiting an event of a leg has no further effect. -/
theorem State.afterLegEvent_nil (before : State) (hq : (s.engine l).queue = []) (hh : s.handOver = []) :
    s.afterLegEvent before l = s := by
  have hevent : s.engineEvent l = s := by
    simp [State.engineEvent, State.headCanStart_nil hq, State.examineLeg_nil hq, State.intake_nil hh]
  rw [State.afterLegEvent, hevent, ite_self]

/-! ### One leg changed -/

/-- Two changes of a leg in a row are one change. -/
theorem State.modLeg_modLeg (s : State) (l : LegId) (f g : Leg → Leg) :
    (s.modLeg l f).modLeg l g = s.modLeg l (fun x => g (f x)) := by
  simp [State.modLeg]

/-- A change of one leg leaves the others. -/
theorem State.sameLegsBut_modLeg (s : State) (l : LegId) (f : Leg → Leg) : s.SameLegsBut [l] (s.modLeg l f) :=
  fun k hk => by rw [State.leg_modLeg, if_neg (by simpa using hk)]

/-- A change of one leg leaves everything but the lane sides and the leg controllers. -/
theorem State.sameOutside_modLeg (s : State) (l : LegId) (f : Leg → Leg) : s.SameOutside (s.modLeg l f) :=
  ⟨⟨rfl, rfl, rfl⟩, ⟨rfl, rfl, rfl⟩, ⟨rfl, rfl, rfl, rfl, rfl, rfl⟩, fun _ => rfl,
    ⟨fun _ => rfl, rfl, rfl, rfl, rfl⟩, fun _ _ => rfl, fun _ _ => rfl, fun _ => rfl, ⟨rfl, rfl, rfl, rfl, rfl⟩,
    ⟨rfl, rfl⟩, ⟨rfl, rfl, rfl, rfl, rfl⟩⟩

/-! ### An outcome reported -/

/-- R46: bit 16 + l is the notice bit of Leg l. -/
theorem getLsbD_legBit (l : LegId) : (legBit l).getLsbD (16 + l.val) = true := by
  revert l; decide

/-- R41: with no task in flight a report changes nothing. -/
theorem State.reportOutcome_of_none (hf : (s.engine l).inFlight = none) (st : Status) :
    s.reportOutcome l st = s := by
  rw [State.reportOutcome, hf]

/-- R41, R155: the task in flight leaves the set and finishes with the status. -/
theorem State.reportOutcome_of_some {n : SlotId} (hf : (s.engine l).inFlight = some n) (st : Status) :
    s.reportOutcome l st =
      (s.modEngine l (fun e => { e with inFlight := none })).endAwaited n (s.leg l).bringUpResult st := by
  rw [State.reportOutcome, hf]

/-- R41: a reported outcome changes the engines, the slots, the stored bytes and the attention unit at most. -/
theorem State.reportOutcome_eq_update (s : State) (l : LegId) (st : Status) :
    ∃ engines slots mem summary latchedLine, s.reportOutcome l st =
      { s with engines := engines, slots := slots, mem := mem, summary := summary, latchedLine := latchedLine } := by
  cases hf : (s.engine l).inFlight with
  | none => exact ⟨_, _, _, _, _, State.reportOutcome_of_none hf st⟩
  | some n => exact ⟨_, _, _, _, _, State.reportOutcome_of_some hf st⟩

@[simp] theorem State.leg_reportOutcome (s : State) (l : LegId) (st : Status) (k : LegId) :
    (s.reportOutcome l st).leg k = s.leg k := by
  obtain ⟨_, _, _, _, _, h⟩ := s.reportOutcome_eq_update l st
  rw [h]; rfl

/-- R155: after the report the in-flight set of the leg is empty. -/
theorem State.engine_reportOutcome (s : State) (l : LegId) (st : Status) (k : LegId) :
    (s.reportOutcome l st).engine k = if k = l then { s.engine l with inFlight := none } else s.engine k := by
  cases hf : (s.engine l).inFlight with
  | none =>
    rw [State.reportOutcome_of_none hf, ← hf]
    split
    case isTrue hk => rw [hk]
    case isFalse => rfl
  | some n => rw [State.reportOutcome_of_some hf, State.engine_endAwaited, State.engine_modEngine]

/-- R155: the slot of the task in flight becomes DONE with the status, and every other stays as it is. -/
theorem State.slot_reportOutcome (s : State) (l : LegId) (st : Status) (m : SlotId) :
    (s.reportOutcome l st).slot m =
      if (s.engine l).inFlight = some m then { s.slot m with state := .done, status := st } else s.slot m := by
  cases hf : (s.engine l).inFlight with
  | none => rw [State.reportOutcome_of_none hf, if_neg nofun]
  | some n =>
    rw [State.reportOutcome_of_some hf, State.slot_endAwaited]
    by_cases hm : m = n
    · subst hm; simp
    · simp [hm, Ne.symm hm]

/-- A report clears no bit of the summary. -/
theorem State.getLsbD_summary_reportOutcome {i : Nat} (h : s.summary.getLsbD i = true) (st : Status) :
    (s.reportOutcome l st).summary.getLsbD i = true := by
  cases hf : (s.engine l).inFlight with
  | none => rwa [State.reportOutcome_of_none hf]
  | some n => rw [State.reportOutcome_of_some hf]; simp [h]

end Sys2Proof.Machine
end

section
/-! LOCK_TIMER_EXPIRY (R33): the attempt counted, then the timer restarted or the leg given up. -/

namespace Sys2Proof.Machine

variable {s : State} {l : LegId}

/-! ### The leg given up (R33, R45) -/

/-- The items of a leg that gives up: PARKED, intent 0, given-up 1, its lock timer stopped and its relay ended. -/
def Leg.givenUpItems (g : Leg) : Leg :=
  { g.modSides (fun d => { d with relay := d.relay.ended }) with
    lockTimer := none, state := .parked, intent := false, givenUp := true }

/-- R45: either relay direction of a leg that gives up is ended. -/
theorem Leg.relay_givenUpItems (g : Leg) (d : Side) : (g.givenUpItems.side d).relay = (g.side d).relay.ended := by
  cases d <;> rfl

/-- R33: a leg that gives up in ACQUIRE has no session to abandon and no scan to interrupt. -/
theorem State.giveUp_of_acquire (ha : (s.leg l).state = .acquire) :
    s.giveUp l = ((s.modLeg l Leg.givenUpItems).legNotice l).reportOutcome l .bringUpFailed := by
  have habandon : s.abandonSessions l = s := by rw [State.abandonSessions, ha]; rfl
  have hleave : s.leaveCarrying l = s := by rw [State.leaveCarrying, ha]; rfl
  rw [State.giveUp, State.parkLeg, habandon, hleave, State.modLeg_modLeg]
  rfl

/-- R33: the leg that gives up, and every other as before. -/
theorem State.leg_giveUp_of_acquire (ha : (s.leg l).state = .acquire) (k : LegId) :
    (s.giveUp l).leg k = if k = l then (s.leg l).givenUpItems else s.leg k := by
  rw [State.giveUp_of_acquire ha, State.leg_reportOutcome, State.leg_legNotice, State.leg_modLeg]

/-- R33, R46: the notice of a leg that gives up. -/
theorem State.notice_giveUp_of_acquire (ha : (s.leg l).state = .acquire) :
    (s.giveUp l).summary.getLsbD (16 + l.val) = true := by
  rw [State.giveUp_of_acquire ha]
  exact State.getLsbD_summary_reportOutcome
    (by rw [State.legNotice_summary, BitVec.getLsbD_or, getLsbD_legBit, Bool.or_true]) _

/-- R33, R155: the in-flight set of a leg that gives up is emptied, its queue kept. -/
theorem State.engine_giveUp_of_acquire (ha : (s.leg l).state = .acquire) :
    (s.giveUp l).engine l = { s.engine l with inFlight := none } := by
  rw [State.giveUp_of_acquire ha, State.engine_reportOutcome, if_pos rfl]
  rfl

/-- R33, R155: the task in flight finishes with BRING_UP_FAILED, and no other slot changes. -/
theorem State.slot_giveUp_of_acquire (ha : (s.leg l).state = .acquire) (m : SlotId) :
    (s.giveUp l).slot m =
      if (s.engine l).inFlight = some m then { s.slot m with state := .done, status := .bringUpFailed }
      else s.slot m := by
  rw [State.giveUp_of_acquire ha]
  exact State.slot_reportOutcome _ l _ m

/-- R33: nothing but the legs, the engines, the slots, the stored bytes and the attention unit differs. -/
theorem State.giveUp_eq_update_of_acquire (ha : (s.leg l).state = .acquire) :
    ∃ legs engines slots mem summary latchedLine, s.giveUp l =
      { s with
        legs := legs, engines := engines, slots := slots, mem := mem, summary := summary
        latchedLine := latchedLine } := by
  rw [State.giveUp_of_acquire ha]
  obtain ⟨_, _, _, _, _, h⟩ :=
    ((s.modLeg l Leg.givenUpItems).legNotice l).reportOutcome_eq_update l .bringUpFailed
  exact ⟨_, _, _, _, _, _, h⟩

/-! ### The expiry -/

/-- R33: the items of a leg whose lock timer has expired: the attempt counted and its cause recorded. -/
def Leg.timedOut (g : Leg) : Leg := { g with attempts := g.attempts + 1, cause := .lockTimeout, lockTimer := none }

/-- R33, below the attempt limit: the lock timer restarts at its full length. -/
theorem State.lockTimerExpire_below (hlt : (s.leg l).attempts + 1 < (s.leg l).setup.attemptLimit) :
    s.lockTimerExpire l =
      s.modLeg l (fun g => { g.timedOut with lockTimer := some (g.setup.lockTimeout * 1000) }) := by
  rw [State.lockTimerExpire, State.leg_modLeg_self, if_pos hlt, State.modLeg_modLeg]
  rfl

/-- R33, at the attempt limit: the leg gives up. -/
theorem State.lockTimerExpire_atLimit (hle : (s.leg l).setup.attemptLimit ≤ (s.leg l).attempts + 1) :
    s.lockTimerExpire l = (s.modLeg l Leg.timedOut).giveUp l := by
  rw [State.lockTimerExpire, State.leg_modLeg_self, if_neg (Nat.not_lt.mpr hle)]
  rfl

/-- The expiry leaves the leg in ACQUIRE to the give-up. -/
theorem State.state_modLeg_timedOut (ha : (s.leg l).state = .acquire) :
    ((s.modLeg l Leg.timedOut).leg l).state = .acquire := by
  rw [State.leg_modLeg_self]
  exact ha

/-- No branch of the expiry touches a leg queue. -/
theorem State.queue_lockTimerExpire (ha : (s.leg l).state = .acquire) :
    ((s.lockTimerExpire l).engine l).queue = (s.engine l).queue := by
  by_cases hlt : (s.leg l).attempts + 1 < (s.leg l).setup.attemptLimit
  · rw [State.lockTimerExpire_below hlt, State.engine_modLeg]
  · rw [State.lockTimerExpire_atLimit (Nat.not_lt.mp hlt),
      State.engine_giveUp_of_acquire (State.state_modLeg_timedOut ha), State.engine_modLeg]

/-- The command on a leg in ACQUIRE with its lock timer running and no task waiting. -/
theorem exec_lockTimerExpiry_eq (hr : s.resetHeld = false) (hw : s.NoWork)
    (ht : (s.leg l).lockTimer.isSome = true) (ha : (s.leg l).state = .acquire) :
    exec (.lockTimerExpiry l) s = .next (s.lockTimerExpire l) := by
  obtain ⟨hlist, hqueues, -⟩ := hw
  have hevent : s.legEvent l (fun s => s.lockTimerExpire l) = s.lockTimerExpire l :=
    State.afterLegEvent_nil s ((State.queue_lockTimerExpire ha).trans (hqueues l))
      ((State.lockTimerExpire_handOver s l).trans hlist)
  show execLockTimerExpiry l s = _
  simp [execLockTimerExpiry, whenRunning, hr, ht, ha, hevent]

/-- Settles O15, by the two sides of the attempt limit. -/
theorem lockTimerExpiryCountsAnAttempt : Obligations.LockTimerExpiryCountsAnAttempt := by
  intro l s hr hw ht ha
  refine ⟨_, exec_lockTimerExpiry_eq hr hw ht ha, ?_⟩
  by_cases hlt : (s.leg l).attempts + 1 < (s.leg l).setup.attemptLimit
  case pos =>
    rw [State.lockTimerExpire_below hlt, State.leg_modLeg_self]
    exact ⟨rfl, rfl,
      fun _ => ⟨ha, rfl, rfl, fun _ _ => rfl, State.sameLegsBut_modLeg s l _, State.sameOutside_modLeg s l _⟩,
      fun hle => absurd hlt (Nat.not_lt.mpr hle)⟩
  case neg =>
    have hv := State.state_modLeg_timedOut ha
    have hleg := State.leg_giveUp_of_acquire hv
    have hslot := State.slot_giveUp_of_acquire hv
    have hlegs : s.SameLegsBut [l] ((s.modLeg l Leg.timedOut).giveUp l) := fun k hk => by
      rw [hleg, if_neg (by simpa using hk)]
      exact State.sameLegsBut_modLeg s l _ k hk
    have hslots : s.SameSlotsBut (s.engine l).inFlight.toList ((s.modLeg l Leg.timedOut).giveUp l) := fun m hm => by
      rw [hslot, State.engine_modLeg, if_neg (by simpa using hm), State.slot_modLeg]
    rw [State.lockTimerExpire_atLimit (Nat.not_lt.mp hlt), hleg, if_pos rfl, State.leg_modLeg_self]
    refine ⟨rfl, rfl, fun hlt' => absurd hlt' hlt, fun _ => ⟨rfl, rfl, rfl, rfl, State.notice_giveUp_of_acquire hv,
      fun d => ?relay, ?inFlight, fun n hn => ?slot, ?frame⟩⟩
    case relay =>
      rw [Leg.relay_givenUpItems]
      exact ⟨rfl, rfl, rfl, by cases d <;> rfl⟩
    case inFlight => rw [State.engine_giveUp_of_acquire hv]
    case slot =>
      rw [hslot, State.engine_modLeg, if_pos hn]
      exact ⟨rfl, rfl⟩
    case frame =>
      obtain ⟨_, _, _, _, _, _, hupdate⟩ := State.giveUp_eq_update_of_acquire hv
      rw [hupdate] at hlegs hslots ⊢
      exact ⟨fun _ _ => rfl, hlegs, ⟨rfl, rfl, rfl⟩, ⟨rfl, rfl, rfl⟩, ⟨rfl, rfl, rfl, rfl, rfl, rfl⟩,
        fun _ => rfl, hslots, fun _ _ => rfl, ⟨rfl, rfl⟩, ⟨rfl, rfl, rfl, rfl, rfl⟩⟩

end Sys2Proof.Machine
end

section
/-! NUDGE (R84 to R86): the candidate steps in their order, the triple that each of them forms, and the first that
qualifies. -/

namespace Sys2Proof.Machine

variable {mode : BudgetMode} {rate : RateClass} {t t' : Taps} {tap : Tap} {step j k : Int}

/-! ### The candidate steps (R84) -/

/-- The model casts the whole list of indices first; here each index is cast where it is used. -/
theorem candidates_eq_map (step : Int) : candidates step =
    (List.range step.natAbs).map (fun i : Nat => if step < 0 then step + (i : Int) else step - (i : Int)) := by
  simp only [candidates, List.pure_def, List.bind_eq_flatMap, ← List.map_eq_flatMap, List.map_map, Function.comp_def]

theorem mem_candidates : j ∈ candidates step ↔ (0 < j ∧ j ≤ step) ∨ (step ≤ j ∧ j < 0) := by
  simp only [candidates_eq_map, List.mem_map, List.mem_range]
  constructor
  · rintro ⟨i, hi, rfl⟩
    split <;> omega
  · intro hj
    refine ⟨(step - j).natAbs, by omega, ?_⟩
    split <;> omega

/-- R84: each candidate is closer to 0 than those before it. -/
theorem pairwise_candidates (step : Int) : (candidates step).Pairwise (fun j k => k.natAbs < j.natAbs) := by
  rw [candidates_eq_map, List.pairwise_map]
  refine List.pairwise_lt_range.imp_of_mem fun {a b} _ hb hab => ?_
  have hb' : b < step.natAbs := List.mem_range.mp hb
  split <;> omega

/-- R84: the candidates farther from 0 than a given one stand before it. -/
theorem mem_before_of_natAbs_lt {before after : List Int} (hc : candidates step = before ++ k :: after)
    (hj : j ∈ candidates step) (hlt : k.natAbs < j.natAbs) : j ∈ before := by
  have hsorted := pairwise_candidates step
  rw [hc] at hsorted hj
  obtain ⟨hafter, -⟩ := List.pairwise_cons.mp (List.pairwise_append.mp hsorted).2.1
  rcases List.mem_append.mp hj with hb | hk
  · exact hb
  · rcases List.mem_cons.mp hk with rfl | ha
    · exact absurd hlt (lt_irrefl _)
    · exact absurd hlt (hafter j ha).asymm

/-! ### The triple of one candidate (R84, R85, R86) -/

@[simp] theorem Taps.get_put (t : Taps) (tap : Tap) (v : Int) : (t.put tap v).get tap = v := by
  cases tap <;> rfl

theorem Taps.main_put (h : tap ≠ .main) (v : Int) : (t.put tap v).main = t.main := by
  cases tap
  case main => exact absurd rfl h
  all_goals rfl

theorem tryFixed_eq_some : tryFixed rate t tap k = some t' ↔
    tapInRange rate tap (t.get tap + k) = true ∧ t' = t.put tap (t.get tap + k) ∧ t'.budget ≤ 60 ∧ 10 ≤ t'.floor := by
  simp only [tryFixed, Taps.get_put, Option.ite_none_right_eq_some, Option.some.injEq, Bool.and_eq_true,
    decide_eq_true_eq]
  constructor
  · rintro ⟨⟨⟨hr, hb⟩, hf⟩, rfl⟩
    exact ⟨hr, rfl, hb, hf⟩
  · rintro ⟨hr, rfl, hb, hf⟩
    exact ⟨⟨⟨hr, hb⟩, hf⟩, rfl⟩

/-- The excess of a budget over 60 (R86). -/
theorem excess_eq_max (b : Int) : (if 60 < b then b - 60 else 0) = max 0 (b - 60) := by
  split <;> omega

theorem tryBalanced_eq_some (h : tap ≠ .main) : tryBalanced rate t tap k = some t' ↔
    tapInRange rate tap (t.get tap + k) = true ∧
    t' = { t.put tap (t.get tap + k) with main := t.main - max 0 ((t.put tap (t.get tap + k)).budget - 60) } ∧
    20 ≤ t'.main ∧ 10 ≤ t'.floor := by
  simp only [tryBalanced, Taps.get_put, excess_eq_max, Taps.main_put h, Option.ite_none_right_eq_some,
    Option.some.injEq, Bool.and_eq_true, decide_eq_true_eq]
  constructor
  · rintro ⟨⟨⟨hr, hm⟩, hf⟩, rfl⟩
    exact ⟨hr, rfl, hm, hf⟩
  · rintro ⟨hr, rfl, hm, hf⟩
    exact ⟨⟨⟨hr, hm⟩, hf⟩, rfl⟩

/-- R85: FIXED, MAIN and a step that is not negative move the tap alone. -/
theorem tryStep_of_fixed (h : mode = .fixed ∨ tap = .main ∨ 0 < k) :
    tryStep mode rate t tap k = tryFixed rate t tap k := by
  rcases h with rfl | rfl | hk
  · rfl
  · cases mode <;> rfl
  · have hneg : ¬k < 0 := by omega
    cases mode <;> cases tap <;> simp only [tryStep, if_neg hneg]

/-- R85, R86: BALANCED lowers MAIN for a negative step of PRE or POST. -/
theorem tryStep_of_balanced (h : tap ≠ .main) (hk : k < 0) :
    tryStep .balanced rate t tap k = tryBalanced rate t tap k := by
  cases tap
  case main => exact absurd rfl h
  all_goals exact if_pos hk

theorem tryStep_eq_some (hk : k ≠ 0) : tryStep mode rate t tap k = some t' ↔ t.Qualifies mode rate tap k t' := by
  unfold Taps.Qualifies
  by_cases hfixed : mode = .fixed ∨ tap = .main ∨ 0 < k
  case pos =>
    have hnot : ¬(mode = .balanced ∧ tap ≠ .main ∧ k < 0) := by
      rintro ⟨rfl, htap, hneg⟩
      rcases hfixed with h | h | h
      · exact absurd h (by decide)
      · exact htap h
      · exact absurd hneg h.asymm
    rw [tryStep_of_fixed hfixed, tryFixed_eq_some, and_iff_left fun h => absurd h hnot, forall_prop_of_true hfixed]
  case neg =>
    obtain ⟨hmode, htap, hpos⟩ : mode ≠ .fixed ∧ tap ≠ .main ∧ ¬0 < k := by
      simpa only [not_or] using hfixed
    obtain rfl : mode = .balanced := by
      cases mode
      · exact absurd rfl hmode
      · rfl
    have hneg : k < 0 := by omega
    rw [tryStep_of_balanced htap hneg, tryBalanced_eq_some htap, forall_prop_of_false hfixed, true_and,
      forall_prop_of_true ⟨rfl, htap, hneg⟩]

/-! ### The first that qualifies (R84, step 3) -/

theorem firstQualifying_eq_findSome? (attempt : Int → Option Taps) (l : List Int) :
    firstQualifying attempt l = l.findSome? (fun k => (attempt k).map (k, ·)) := by
  induction l with
  | nil => rfl
  | cons k ks ih =>
    rw [firstQualifying, List.findSome?_cons]
    cases attempt k with
    | none => exact ih
    | some t => rfl

theorem firstQualifying_eq_none {attempt : Int → Option Taps} {l : List Int}
    (h : firstQualifying attempt l = none) (hj : j ∈ l) : attempt j = none := by
  rw [firstQualifying_eq_findSome?, List.findSome?_eq_none_iff] at h
  exact Option.map_eq_none_iff.mp (h j hj)

theorem firstQualifying_eq_some {attempt : Int → Option Taps} {l : List Int}
    (h : firstQualifying attempt l = some (k, t')) :
    ∃ before after, l = before ++ k :: after ∧ attempt k = some t' ∧ ∀ j ∈ before, attempt j = none := by
  rw [firstQualifying_eq_findSome?, List.findSome?_eq_some_iff] at h
  obtain ⟨before, i, after, hl, hi, hnone⟩ := h
  obtain ⟨u, hu, heq⟩ := Option.map_eq_some_iff.mp hi
  obtain ⟨rfl, rfl⟩ := Prod.mk.inj heq
  exact ⟨before, after, hl, hu, fun j hj => Option.map_eq_none_iff.mp (hnone j hj)⟩

theorem not_qualifies_of_tryStep (hj : j ∈ candidates step) (h : tryStep mode rate t tap j = none) (u : Taps) :
    ¬t.Qualifies mode rate tap j u := by
  have hj0 : j ≠ 0 := by
    have := mem_candidates.mp hj
    omega
  rw [← tryStep_eq_some hj0, h]
  exact Option.some_ne_none u ∘ Eq.symm

/-- Settles O32: the first entry of the candidate list at which the attempt succeeds, the list running toward 0. -/
theorem nudgeTakesTheFirstQualifyingCandidate : Obligations.NudgeTakesTheFirstQualifyingCandidate := by
  intro mode rate t tap step hstep
  cases hq : firstQualifying (tryStep mode rate t tap) (candidates step) with
  | none =>
    refine .inr ⟨fun j u hj => ?_, by rw [nudge, hq]⟩
    have hmem := mem_candidates.mpr hj
    exact not_qualifies_of_tryStep hmem (firstQualifying_eq_none hq hmem) u
  | some found =>
    obtain ⟨k, t'⟩ := found
    obtain ⟨before, after, hc, hk, hbefore⟩ := firstQualifying_eq_some hq
    have hkRange := mem_candidates.mp (hc ▸ List.mem_append_right before List.mem_cons_self : k ∈ candidates step)
    refine .inl ⟨k, t', hkRange, (tryStep_eq_some (by omega)).mp hk, fun j u hj _ _ => ?_, by rw [nudge, hq]⟩
    have hmem : j ∈ candidates step := mem_candidates.mpr (by omega)
    have hfirst := mem_before_of_natAbs_lt hc hmem (by omega)
    exact not_qualifies_of_tryStep hmem (hbefore j hfirst) u

end Sys2Proof.Machine
end

section
/-! The saturation of SET_TAPS (R90 to R92): what each of its three steps gives, and that together they make a triple
valid (R78). -/

namespace Sys2Proof.Machine

variable {rate : RateClass} {t : Taps}

/-- R77: the three taps within their ranges for the rate class. -/
def Taps.InRange (rate : RateClass) (t : Taps) : Prop :=
  (preLow rate ≤ t.pre ∧ t.pre ≤ 0) ∧ (20 ≤ t.main ∧ t.main ≤ 60) ∧ (-24 ≤ t.post ∧ t.post ≤ 0)

theorem Taps.valid_iff : t.valid rate = true ↔ t.InRange rate ∧ t.budget ≤ 60 ∧ 10 ≤ t.floor := by
  simp only [Taps.valid, tapInRange, Taps.InRange, Bool.and_eq_true, decide_eq_true_eq, and_assoc]

theorem preLow_bounds (rate : RateClass) : -16 ≤ preLow rate ∧ preLow rate ≤ 0 := by
  cases rate <;> decide

theorem magnitude_of_nonpos {v : Int} (h : v ≤ 0) : magnitude v = -v := by
  unfold magnitude
  split <;> omega

theorem Taps.InRange.budget_eq (h : t.InRange rate) : t.budget = t.main - t.pre - t.post := by
  obtain ⟨⟨_, hpre⟩, _, _, hpost⟩ := h
  rw [Taps.budget, magnitude_of_nonpos hpre, magnitude_of_nonpos hpost]
  omega

theorem Taps.InRange.floor_eq (h : t.InRange rate) : t.floor = t.main + t.pre + t.post := by
  obtain ⟨⟨_, hpre⟩, _, _, hpost⟩ := h
  rw [Taps.floor, magnitude_of_nonpos hpre, magnitude_of_nonpos hpost]
  omega

/-! ### The ranges (R90) -/

theorem clampInt_eq {lo hi : Int} (h : lo ≤ hi) (v : Int) : clampInt lo hi v = max lo (min hi v) := by
  unfold clampInt
  split
  · omega
  · split <;> omega

theorem clampTaps_pre (rate : RateClass) (t : Taps) :
    (clampTaps rate t).pre = max (preLow rate) (min 0 t.pre) := clampInt_eq (preLow_bounds rate).2 t.pre

theorem clampTaps_main (rate : RateClass) (t : Taps) : (clampTaps rate t).main = max 20 (min 60 t.main) :=
  clampInt_eq (by decide) t.main

theorem clampTaps_post (rate : RateClass) (t : Taps) : (clampTaps rate t).post = max (-24) (min 0 t.post) :=
  clampInt_eq (by decide) t.post

theorem clampTaps_inRange (rate : RateClass) (t : Taps) : (clampTaps rate t).InRange rate := by
  have hlow := (preLow_bounds rate).2
  unfold Taps.InRange
  rw [clampTaps_pre, clampTaps_main, clampTaps_post]
  omega

/-! ### The budget (R91) -/

/-- A tap raised by the part of an amount that does not take it past 0. -/
theorem add_roomToZero (v amount : Int) : v + roomToZero v amount = min 0 (v + amount) := by
  unfold roomToZero
  split <;> omega

theorem enforceBudget_of_le (h : t.budget ≤ 60) : enforceBudget t = t := if_pos h

theorem enforceBudget_main (h : 60 < t.budget) :
    (enforceBudget t).main = max 20 (t.main - (t.budget - 60)) := by
  rw [enforceBudget, if_neg (not_le.mpr h)]
  dsimp only
  split <;> omega

theorem enforceBudget_post (h : 60 < t.budget) :
    (enforceBudget t).post = min 0 (t.post + ((t.budget - 60) - (t.main - (enforceBudget t).main))) := by
  rw [enforceBudget, if_neg (not_le.mpr h)]
  dsimp only
  rw [add_roomToZero, sub_sub_cancel]

theorem enforceBudget_pre (h : 60 < t.budget) :
    (enforceBudget t).pre = min 0 (t.pre + ((t.budget - 60) - (t.main - (enforceBudget t).main) -
      ((enforceBudget t).post - t.post))) := by
  rw [enforceBudget, if_neg (not_le.mpr h)]
  dsimp only
  rw [add_roomToZero, sub_sub_cancel, add_sub_cancel_left]

/-- R91: the ranges keep, since MAIN stops at 20 and the others at 0. -/
theorem enforceBudget_inRange (h : t.InRange rate) : (enforceBudget t).InRange rate := by
  by_cases hle : t.budget ≤ 60
  case pos => rwa [enforceBudget_of_le hle]
  case neg =>
    have hlt := not_le.mp hle
    have hmain := enforceBudget_main hlt
    have hpost := enforceBudget_post hlt
    have hpre := enforceBudget_pre hlt
    unfold Taps.InRange at h ⊢
    omega

theorem enforceBudget_budget_le (h : t.InRange rate) : (enforceBudget t).budget ≤ 60 := by
  by_cases hle : t.budget ≤ 60
  case pos => rwa [enforceBudget_of_le hle]
  case neg =>
    have hlt := not_le.mp hle
    have hmain := enforceBudget_main hlt
    have hpost := enforceBudget_post hlt
    have hpre := enforceBudget_pre hlt
    have hbudget := h.budget_eq
    rw [(enforceBudget_inRange h).budget_eq]
    unfold Taps.InRange at h
    omega

/-! ### The floor (R92) -/

theorem enforceFloor_of_le (h : 10 ≤ t.floor) : enforceFloor t = t := if_pos h

theorem enforceFloor_main (t : Taps) : (enforceFloor t).main = t.main := by
  unfold enforceFloor
  split <;> rfl

theorem enforceFloor_post (h : t.floor < 10) : (enforceFloor t).post = min 0 (t.post + (10 - t.floor)) := by
  rw [enforceFloor, if_neg (not_le.mpr h)]
  exact add_roomToZero _ _

theorem enforceFloor_pre (h : t.floor < 10) :
    (enforceFloor t).pre = min 0 (t.pre + ((10 - t.floor) - ((enforceFloor t).post - t.post))) := by
  rw [enforceFloor, if_neg (not_le.mpr h)]
  dsimp only
  rw [add_roomToZero, add_sub_cancel_left]

theorem enforceFloor_inRange (h : t.InRange rate) : (enforceFloor t).InRange rate := by
  by_cases hle : 10 ≤ t.floor
  case pos => rwa [enforceFloor_of_le hle]
  case neg =>
    have hlt := not_le.mp hle
    have hmain := enforceFloor_main t
    have hpost := enforceFloor_post hlt
    have hpre := enforceFloor_pre hlt
    unfold Taps.InRange at h ⊢
    omega

/-- R92: a triple within its ranges and its budget becomes valid: the budget only falls, and a MAIN of at least 20
leaves the room that the floor lacks. -/
theorem enforceFloor_valid (h : t.InRange rate) (hb : t.budget ≤ 60) : (enforceFloor t).valid rate = true := by
  have hr := enforceFloor_inRange h
  rw [Taps.valid_iff]
  by_cases hle : 10 ≤ t.floor
  case pos => simpa only [enforceFloor_of_le hle] using ⟨h, hb, hle⟩
  case neg =>
    have hlt := not_le.mp hle
    have hmain := enforceFloor_main t
    have hpost := enforceFloor_post hlt
    have hpre := enforceFloor_pre hlt
    have hfloor := h.floor_eq
    rw [h.budget_eq] at hb
    refine ⟨hr, ?_, ?_⟩
    · rw [hr.budget_eq]
      unfold Taps.InRange at h
      omega
    · rw [hr.floor_eq]
      unfold Taps.InRange at h
      omega

/-! ### The three steps together -/

theorem saturate_valid (rate : RateClass) (t : Taps) : (saturate rate t).valid rate = true :=
  have hc := clampTaps_inRange rate t
  enforceFloor_valid (enforceBudget_inRange hc) (enforceBudget_budget_le hc)

/-- Settles O33: the intermediate triples are those of the clamp and of the budget. -/
theorem saturationTakesItsThreeSteps : Obligations.SaturationTakesItsThreeSteps := by
  intro rate t
  refine ⟨clampTaps rate t, enforceBudget (clampTaps rate t), ?pre, clampTaps_main rate t, clampTaps_post rate t,
    enforceBudget_of_le, fun h => ⟨enforceBudget_main h, enforceBudget_post h, enforceBudget_pre h⟩,
    enforceFloor_of_le, fun h => ⟨enforceFloor_main _, enforceFloor_post h, enforceFloor_pre h⟩, saturate_valid rate t⟩
  case pre =>
    have hpre := clampTaps_pre rate t
    cases rate with
    | rcA => exact hpre.trans (max_eq_left (min_le_left 0 t.pre))
    | rcB => exact hpre
    | rcC => exact hpre

end Sys2Proof.Machine
end

section
/-! SNAPSHOT (R126, R127): the counters of a side copied, and cleared with clear-after. -/

namespace Sys2Proof.Machine

variable {s u v : State} {n : SlotId} {h : TaskHeader} {side clearAfter : Byte} {l : LegId} {d : Side} {c : Bool}

/-! ### A change that may come twice -/

/-- A lane side of a list is changed as by one change, where a second change adds nothing. No map need be a permutation
for this: a lane side may stand in the list twice. -/
theorem State.lane_modLanes_of_idempotent {f : LaneState → LaneState} (hf : ∀ w, f (f w) = f w) (xs : List LaneSide)
    {y : LaneSide} (hy : y ∈ xs) : (s.modLanes xs f).lane y = f (s.lane y) := by
  induction xs generalizing s with
  | nil => cases hy
  | cons x xs ih =>
    rw [State.modLanes_cons]
    by_cases hrest : y ∈ xs
    case pos =>
      rw [ih hrest, State.lane_modLane]
      split
      case isTrue hx => rw [hx, hf]
      case isFalse => rfl
    case neg =>
      obtain rfl : y = x := (List.mem_cons.mp hy).resolve_right hrest
      rw [State.lane_modLanes_of_notMem _ _ _ _ hrest, State.lane_modLane_self]

/-- To change several lane sides is to change no more than the lane sides. -/
theorem State.modLanes_sameButLanes (u : State) (xs : List LaneSide) (f : LaneState → LaneState) :
    u.SameButLanes (u.modLanes xs f) := by
  induction xs generalizing u with
  | nil => exact .refl u
  | cons x xs ih => exact ih (u.modLane x f)

/-! ### The codes -/

/-- Table 11-7: the two side codes. -/
theorem decodeSide_eq_some {b : Byte} : decodeSide b = some d ↔ (b = 0 ∧ d = .line) ∨ (b = 1 ∧ d = .switch) := by
  cases d <;> revert b <;> decide

/-- Table 11-7: the codes above 1 name no side. -/
theorem decodeSide_eq_none {b : Byte} : decodeSide b = none ↔ 1 < b.toNat := by
  revert b
  decide

/-- The codes above 1 are no flag. -/
theorem decodeFlag_eq_none {b : Byte} : decodeFlag b = none ↔ 1 < b.toNat := by
  revert b
  decide

/-- Of the codes that are a flag, code 1 is on. -/
theorem decodeFlag_of_le {b : Byte} (hb : b.toNat ≤ 1) : decodeFlag b = some (decide (b = 1)) := by
  revert b
  decide

/-! ### The counters copied and cleared -/

/-- R126: the lane records of a list of lane sides, in its order. -/
def State.counterBytes (u : State) (xs : List LaneSide) : List Byte := xs.flatMap (fun x => (u.lane x).counters.bytes)

/-- R127: the four counters of a lane side set to 0. -/
def LaneState.zeroCounters (w : LaneState) : LaneState := { w with counters := ⟨0, 0, 0, 0⟩ }

/-- R127: with clear-after, the counters of a list of lane sides set to 0. -/
def State.clearCounters (u : State) (xs : List LaneSide) (c : Bool) : State :=
  if c then u.modLanes xs LaneState.zeroCounters else u

/-- Table 11-7a: a lane record takes 16 bytes. -/
theorem State.length_counterBytes (u : State) (xs : List LaneSide) : (u.counterBytes xs).length = 16 * xs.length := by
  induction xs with
  | nil => rfl
  | cons x xs ih =>
    have hrecord : (u.lane x).counters.bytes.length = 16 := rfl
    rw [State.counterBytes, List.flatMap_cons, List.length_append, hrecord, ← State.counterBytes, ih, List.length_cons]
    omega

/-- A leg has at most eight lanes on a side. -/
theorem State.length_memberSides_le (u : State) (l : LegId) (d : Side) : (u.memberSides l d).length ≤ 8 := by
  rw [State.memberSides, List.length_map]
  exact List.length_filter_le _ allLanes

/-- The records of a side fit the result area. -/
theorem State.length_counterBytes_memberSides_le (u : State) (l : LegId) (d : Side) :
    (u.counterBytes (u.memberSides l d)).length ≤ 0x80 := by
  have hlanes := u.length_memberSides_le l d
  rw [State.length_counterBytes]
  omega

theorem State.clearCounters_sameButLanes (u : State) (xs : List LaneSide) (c : Bool) :
    u.SameButLanes (u.clearCounters xs c) := by
  unfold State.clearCounters
  split
  · exact State.modLanes_sameButLanes u xs _
  · exact .refl u

@[simp] theorem State.entry_clearCounters (u : State) (xs : List LaneSide) (c : Bool) (i : LaneId) :
    (u.clearCounters xs c).entry i = u.entry i := by
  cases c with
  | false => rfl
  | true => exact State.entry_modLanes _ xs _ i

/-- R127: the counters of the lane sides named are 0 with clear-after, and nothing else of a lane side changes. -/
theorem State.lane_clearCounters (u : State) (xs : List LaneSide) (c : Bool) {y : LaneSide} (hy : y ∈ xs) :
    (u.clearCounters xs c).lane y =
      { u.lane y with counters := if c then ⟨0, 0, 0, 0⟩ else (u.lane y).counters } := by
  cases c with
  | false => rfl
  | true => exact State.lane_modLanes_of_idempotent (f := LaneState.zeroCounters) (fun _ => rfl) xs hy

/-- R127: no other lane side changes. -/
theorem State.lane_clearCounters_of_notMem (u : State) (xs : List LaneSide) (c : Bool) {y : LaneSide} (hy : y ∉ xs) :
    (u.clearCounters xs c).lane y = u.lane y := by
  cases c with
  | false => rfl
  | true => exact State.lane_modLanes_of_notMem _ xs y _ hy

/-! ### The task -/

/-- R126: a code outside its set is refused. -/
theorem State.runSnapshot_badArgument {e : Entry}
    (hb : decodeSide (u.arg e 0) = none ∨ decodeFlag (u.arg e 1) = none) :
    u.runSnapshot l e = u.endTask e [] .badArgument := by
  unfold State.runSnapshot
  split
  · next hd hc => simp [hd, hc] at hb
  · rfl

/-- R126, R127: the counters of the side are copied as they stood before they are cleared. -/
theorem State.runSnapshot_copies {e : Entry} (hd : decodeSide (u.arg e 0) = some d)
    (hc : decodeFlag (u.arg e 1) = some c) :
    u.runSnapshot l e =
      (u.clearCounters (u.memberSides l d) c).endTask e (u.counterBytes (u.memberSides l d)) .ok := by
  simp only [State.runSnapshot, hd, hc]
  rfl

/-- R146: the engine executes or refuses a SNAPSHOT in every state of the leg. -/
theorem State.runLegTask_snapshot (hp : h.patience.toNat ≤ 3) :
    u.runLegTask l (awaitedEntry n .snapshot h) = some (u.runSnapshot l (awaitedEntry n .snapshot h)) := by
  have hg : (awaitedEntry n .snapshot h).patienceGood = true := decide_eq_true hp
  rw [State.runLegTask, hg]
  rfl

/-- R138, R144, R146: an awaited leg task handed over with nothing waiting, that changes the map and the lane sides at
most, ends as its kind ends on the state in which it has been taken. -/
theorem State.handOverTask_ends {k : TaskKind} {args result : List Byte} {st : Status} (ha : s.AcceptsTask n)
    (hh : s.AwaitedFor h l) (hk : k.device = false) (hl : args.length ≤ 0x10)
    (hv : (s.takenTask n k h args).SameButLanes v)
    (hrun : (s.takenTask n k h args).runLegTask l (awaitedEntry n k h) =
      some (v.endTask (awaitedEntry n k h) result st)) :
    s.handOverTask n k h args = v.endAwaited n result st := by
  have hqueue : ((v.endAwaited n result st).engine l).queue = [] := by
    obtain ⟨map, line, switch, rfl⟩ := hv
    exact ha.queue_nil l
  exact State.handOverTask_runs ha hh hk hl (hrun.trans (congrArg some (State.endTask_awaitedEntry ..))) hqueue

/-- A SNAPSHOT handed over with nothing waiting ends as R126 ends it on the state in which it has been taken. -/
theorem exec_snapshot_of_run {result : List Byte} {st : Status} (ha : s.AcceptsTask n) (hh : s.AwaitedFor h l)
    (hv : (s.takenTask n .snapshot h [side, clearAfter]).SameButLanes v)
    (hrun : (s.takenTask n .snapshot h [side, clearAfter]).runSnapshot l (awaitedEntry n .snapshot h) =
      v.endTask (awaitedEntry n .snapshot h) result st) :
    exec (.snapshot n h side clearAfter) s = .next (v.endAwaited n result st) :=
  congrArg Host.Outcome.next (State.handOverTask_ends ha hh rfl (by simp) hv
    ((State.runLegTask_snapshot hh.patience_le).trans (congrArg some hrun)))

/-- The side argument of a SNAPSHOT taken. -/
theorem arg_snapshot_side (ha : s.AcceptsTask n) :
    (s.takenTask n .snapshot h [side, clearAfter]).arg (awaitedEntry n .snapshot h) 0 = side :=
  State.arg_takenTask ha.wf (by simp) 0 (by simp)

/-- The clear-after argument of a SNAPSHOT taken. -/
theorem arg_snapshot_clearAfter (ha : s.AcceptsTask n) :
    (s.takenTask n .snapshot h [side, clearAfter]).arg (awaitedEntry n .snapshot h) 1 = clearAfter :=
  State.arg_takenTask ha.wf (by simp) 1 (by simp)

/-- R126, the codes outside their sets, for the command. -/
theorem exec_snapshot_badArgument (ha : s.AcceptsTask n) (hh : s.AwaitedFor h l)
    (hb : 1 < side.toNat ∨ 1 < clearAfter.toNat) :
    exec (.snapshot n h side clearAfter) s =
      .next ((s.takenTask n .snapshot h [side, clearAfter]).endAwaited n [] .badArgument) :=
  exec_snapshot_of_run ha hh (.refl _) (State.runSnapshot_badArgument (by
    rwa [arg_snapshot_side ha, arg_snapshot_clearAfter ha, decodeSide_eq_none, decodeFlag_eq_none]))

/-- R126, R127, for the command: the records are those of the state in which the host wrote. -/
theorem exec_snapshot_copies (ha : s.AcceptsTask n) (hh : s.AwaitedFor h l) (hd : decodeSide side = some d)
    (hc : decodeFlag clearAfter = some c) :
    exec (.snapshot n h side clearAfter) s =
      .next (((s.takenTask n .snapshot h [side, clearAfter]).clearCounters (s.memberSides l d) c).endAwaited n
        (s.counterBytes (s.memberSides l d)) .ok) :=
  exec_snapshot_of_run ha hh (State.clearCounters_sameButLanes _ _ c) (State.runSnapshot_copies
    ((congrArg decodeSide (arg_snapshot_side ha)).trans hd)
    ((congrArg decodeFlag (arg_snapshot_clearAfter ha)).trans hc))

/-- Settles O50: a code outside its set is refused, and two codes in their sets name a side and a flag. -/
theorem snapshotCopiesTheCounters : Obligations.SnapshotCopiesTheCounters := by
  intro n h side clearAfter l s ha hh
  have hl : [side, clearAfter].length ≤ 0x10 := by simp
  by_cases hb : 1 < side.toNat ∨ 1 < clearAfter.toNat
  case pos =>
    refine ⟨_, exec_snapshot_badArgument ha hh hb, State.carried_endAwaited ha (.refl _) _ _,
      fun _ => State.taskRefused_endAwaited ha hl _, fun d hle hd => absurd hb ?_⟩
    rw [← decodeSide_eq_none, decodeSide_eq_some.mpr hd]
    simpa using hle
  case neg =>
    obtain ⟨hside, hflag⟩ := not_or.mp hb
    obtain ⟨d, hd⟩ := Option.ne_none_iff_exists'.mp (mt decodeSide_eq_none.mp hside)
    have hv := State.clearCounters_sameButLanes (s.takenTask n .snapshot h [side, clearAfter]) (s.memberSides l d)
      (decide (clearAfter = 1))
    refine ⟨_, exec_snapshot_copies ha hh hd (decodeFlag_of_le (not_lt.mp hflag)),
      State.carried_endAwaited ha hv _ _, fun hb' => absurd hb' hb, fun d' _ hd' => ?_⟩
    obtain rfl : d = d' := Option.some.inj (hd.symm.trans (decodeSide_eq_some.mpr hd'))
    refine ⟨State.taskDone_endAwaited ha hl hv (s.length_counterBytes_memberSides_le l d) _,
      State.sameOutsideLegs_endAwaited hv _ _, fun i => ?_, fun y hy => ?_, fun x hx => ?_⟩
    · rw [State.entry_endAwaited, State.entry_clearCounters]
      rfl
    · rw [State.lane_endAwaited, State.lane_clearCounters_of_notMem _ _ _ hy]
      rfl
    · rw [State.lane_endAwaited, State.lane_clearCounters _ _ _ hx]
      simp only [decide_eq_true_eq]
      rfl

end Sys2Proof.Machine
end

section
/-! LEG_SETUP (R157): the values that the argument bytes load, and the taps that a new rate class adjusts (R79). -/

namespace Sys2Proof.Machine

variable {s u : State} {n : SlotId} {h : TaskHeader} {l : LegId} {x : LaneSide} {e : Entry} {w : Setup} {b : Byte}
  {values : Vector Byte 16} {arg : Nat → Byte}

/-! ### The codes (Table 11-4): which bytes decode, and to what -/

theorem isSome_decodeRate : (decodeRate b).isSome = decide (b.toNat < 3) := by revert b; decide

theorem isSome_decodeBudget : (decodeBudget b).isSome = decide (b.toNat < 2) := by revert b; decide

theorem isSome_decodeRequestWait : (decodeRequestWait b).isSome = decide (b.toNat < 4) := by revert b; decide

theorem isSome_decodeFallback : (decodeFallback b).isSome = decide (b.toNat < 3) := by revert b; decide

theorem isSome_decodeRelayMode : (decodeRelayMode b).isSome = decide (b.toNat < 3) := by revert b; decide

theorem isSome_decodeFlag : (decodeFlag b).isSome = decide (b.toNat < 2) := by revert b; decide

theorem isSome_decodeFin (m : Nat) : (decodeFin m b).isSome = decide (b.toNat < m) := by
  unfold decodeFin
  split <;> simp [*]

theorem code_of_decodeRate {c : RateClass} : decodeRate b = some c → c.code = b := by
  cases c <;> revert b <;> decide

theorem code_of_decodeBudget {c : BudgetMode} : decodeBudget b = some c → c.code = b := by
  cases c <;> revert b <;> decide

theorem code_of_decodeRequestWait {c : RequestWait} : decodeRequestWait b = some c → c.code = b := by
  cases c <;> revert b <;> decide

theorem code_of_decodeFallback {c : Fallback} : decodeFallback b = some c → c.code = b := by
  cases c <;> revert b <;> decide

theorem code_of_decodeRelayMode {c : RelayMode} : decodeRelayMode b = some c → c.code = b := by
  cases c <;> revert b <;> decide

theorem eq_of_decodeFlag {c : Bool} : decodeFlag b = some c → c = decide (b = 1) := by
  cases c <;> revert b <;> decide

theorem val_of_decodeFin {m : Nat} {i : Fin m} (hi : decodeFin m b = some i) : i.val = b.toNat := by
  unfold decodeFin at hi
  split at hi <;> cases hi
  rfl

/-! ### The numbers (R157) -/

theorem clampNat_eq {lo hi : Nat} (hle : lo ≤ hi) (m : Nat) : clampNat lo hi m = max lo (min hi m) := by
  unfold clampNat
  split
  · omega
  · split <;> omega

/-- A number is clamped exactly when it lies outside its range. -/
theorem eq_max_min_iff {lo hi m : Nat} (hle : lo ≤ hi) : m = max lo (min hi m) ↔ lo ≤ m ∧ m ≤ hi := by omega

/-! ### The setup values decoded -/

/-- R157: the setup values w are those of the sixteen argument bytes, the numbers clamped. -/
structure Setup.LoadedFrom (w : Setup) (values : Vector Byte 16) : Prop where
  rate : w.rate.code = values[0]
  ownPreset : w.ownPreset.val = values[1].toNat
  partnerPreset : w.partnerPreset.val = values[2].toNat
  budget : w.budget.code = values[3]
  requestWait : w.requestWait.code = values[4]
  sessionTimer : w.sessionTimer = max 1 (min 20 values[5].toNat)
  lockTimeout : w.lockTimeout = max 10 (min 80 values[6].toNat)
  attemptLimit : w.attemptLimit = max 1 (min 7 values[7].toNat)
  fallback : w.fallback.code = values[8]
  relayMode : w.relayMode.code = values[9]
  relayDelay : w.relayDelay = min 7 values[10].toNat
  pulseWidth : w.pulseWidth = max 2 (min 16 values[11].toNat)
  threshold : w.threshold = max 1 (min 4 values[12].toNat)
  floor : w.floor = min 63 values[13].toNat
  passing : w.passing = decide (values[14] = 1)
  wakeWatch : w.wakeWatch = decide (values[15] = 1)

theorem any_fun_const {α : Type} (o : Option α) (c : Bool) : o.any (fun _ => c) = (o.isSome && c) := by
  cases o <;> rfl

/-- R157: the setup values decode exactly when every code lies in its set. -/
theorem isSome_decodeSetup (harg : ∀ (i : Nat) (hi : i < 16), arg i = values[i]) :
    (decodeSetup arg).isSome = goodSetupCodes values := by
  simp only [decodeSetup, goodSetupCodes, Option.bind_eq_bind, Option.pure_def, Option.isSome_bind, Option.isSome_some,
    any_fun_const, isSome_decodeRate, isSome_decodeFin, isSome_decodeBudget, isSome_decodeRequestWait,
    isSome_decodeFallback, isSome_decodeRelayMode, isSome_decodeFlag, Bool.and_assoc, Bool.and_true]
  simp only [harg, Nat.reduceLT]

/-- R157: what decodes is what the bytes load. -/
theorem loadedFrom_of_decodeSetup (harg : ∀ (i : Nat) (hi : i < 16), arg i = values[i])
    (hw : decodeSetup arg = some w) : w.LoadedFrom values := by
  simp only [decodeSetup, Option.bind_eq_bind, Option.bind_eq_some_iff, Option.pure_def, Option.some.injEq] at hw
  obtain ⟨_, hrate, _, hown, _, hpartner, _, hbudget, _, hwait, _, hfallback, _, hrelay, _, hpassing, _, hwake, rfl⟩ :=
    hw
  have hclamp (lo hi i : Nat) (hle : lo ≤ hi) (hi' : i < 16) :
      clampNat lo hi (arg i).toNat = max lo (min hi values[i].toNat) := by rw [harg i hi', clampNat_eq hle]
  exact {
    rate := (code_of_decodeRate hrate).trans (harg 0 _)
    ownPreset := (val_of_decodeFin hown).trans (congrArg _ (harg 1 _))
    partnerPreset := (val_of_decodeFin hpartner).trans (congrArg _ (harg 2 _))
    budget := (code_of_decodeBudget hbudget).trans (harg 3 _)
    requestWait := (code_of_decodeRequestWait hwait).trans (harg 4 _)
    sessionTimer := hclamp 1 20 5 (by decide) _
    lockTimeout := hclamp 10 80 6 (by decide) _
    attemptLimit := hclamp 1 7 7 (by decide) _
    fallback := (code_of_decodeFallback hfallback).trans (harg 8 _)
    relayMode := (code_of_decodeRelayMode hrelay).trans (harg 9 _)
    relayDelay := (hclamp 0 7 10 (by decide) _).trans (Nat.zero_max _)
    pulseWidth := hclamp 2 16 11 (by decide) _
    threshold := hclamp 1 4 12 (by decide) _
    floor := (hclamp 0 63 13 (by decide) _).trans (Nat.zero_max _)
    passing := by rw [eq_of_decodeFlag hpassing, harg 14 (by decide)]
    wakeWatch := by rw [eq_of_decodeFlag hwake, harg 15 (by decide)] }

/-- R157: the adjusted flag is clear exactly when every number lies in its range. -/
theorem setupAdjusted_eq (harg : ∀ (i : Nat) (hi : i < 16), arg i = values[i]) (hw : w.LoadedFrom values) :
    setupAdjusted arg w = !goodSetupNumbers values := by
  have hmin (hi m : Nat) : m = min hi m ↔ m ≤ hi := by omega
  simp only [setupAdjusted, goodSetupNumbers, hw.sessionTimer, hw.lockTimeout, hw.attemptLimit, hw.relayDelay,
    hw.pulseWidth, hw.threshold, hw.floor, harg, Nat.reduceLT, ne_eq, hmin, eq_max_min_iff, Nat.reduceLeDiff,
    decide_not, Bool.not_and]

/-! ### The taps under a new rate class (R79) -/

theorem State.adjustRate_sameButLanes (u : State) (l : LegId) (rate : RateClass) :
    u.SameButLanes (u.adjustRate l rate) := by
  unfold State.adjustRate
  split
  · exact .refl u
  · exact State.modLanes_sameButLanes u _ _

@[simp] theorem State.entry_adjustRate (u : State) (l : LegId) (rate : RateClass) (i : LaneId) :
    (u.adjustRate l rate).entry i = u.entry i := by
  unfold State.adjustRate
  split
  · rfl
  · exact State.entry_modLanes _ _ _ i

@[simp] theorem State.engine_adjustRate (u : State) (l : LegId) (rate : RateClass) (k : LegId) :
    (u.adjustRate l rate).engine k = u.engine k := by
  unfold State.adjustRate
  split
  · rfl
  · exact State.engine_modLanes _ _ _ k

@[simp] theorem State.leg_adjustRate (u : State) (l : LegId) (rate : RateClass) (k : LegId) :
    (u.adjustRate l rate).leg k = u.leg k := by
  unfold State.adjustRate
  split
  · rfl
  · exact State.leg_modLanes _ _ _ k

/-- R79: a transmitter that is no member keeps its taps. -/
theorem State.lane_adjustRate_of_notMem (u : State) (l : LegId) (rate : RateClass) (hx : x ∉ u.allMemberSides l) :
    (u.adjustRate l rate).lane x = u.lane x := by
  unfold State.adjustRate
  split
  · rfl
  · exact State.lane_modLanes_of_notMem _ _ x _ hx

/-- R79, R80: the form for a rate class is a PRE of 0 in RC-A. -/
theorem Taps.forRate_eq (rate : RateClass) (t : Taps) :
    t.forRate rate = if rate = .rcA then { t with pre := 0 } else t := by
  cases rate <;> rfl

/-- R79: a member transmitter loses its PRE to a new rate class of RC-A, and keeps its taps otherwise. -/
theorem State.lane_adjustRate (u : State) (l : LegId) (rate : RateClass) (hx : x ∈ u.allMemberSides l) :
    (u.adjustRate l rate).lane x = { u.lane x with taps :=
      if rate ≠ (u.leg l).setup.rate ∧ rate = .rcA then { (u.lane x).taps with pre := 0 } else (u.lane x).taps } := by
  by_cases hsame : (u.leg l).setup.rate = rate
  case pos => rw [State.adjustRate, if_pos hsame, if_neg (fun hnew => hnew.1 hsame.symm)]
  case neg =>
    have hidem : ∀ v : LaneState, { v with taps := (v.taps.forRate rate).forRate rate } =
        { v with taps := v.taps.forRate rate } := fun v => by cases rate <;> rfl
    rw [State.adjustRate, if_neg hsame, State.lane_modLanes_of_idempotent hidem _ hx, Taps.forRate_eq]
    simp only [ne_eq, Ne.symm hsame, not_false_eq_true, true_and]

/-! ### A task that also changes its leg -/

variable {t : State} {f : Leg → Leg} {k : TaskKind} {args result : List Byte} {st : Status}

/-- The end of a task reads no leg controller. -/
theorem State.endAwaited_modLeg (u : State) (result : List Byte) (st : Status) :
    (u.modLeg l f).endAwaited n result st = (u.endAwaited n result st).modLeg l f := rfl

/-- What the hand-over leaves behind names no leg controller. -/
theorem State.Carried.modLeg (ht : s.Carried t n k h args) : s.Carried (t.modLeg l f) n k h args := ht

/-- Nor does the end of a task. -/
theorem State.TaskDone.modLeg (ht : s.TaskDone t n st result) : s.TaskDone (t.modLeg l f) n st result := ht

/-- A change of one leg leaves everything outside it. -/
theorem State.SameOutsideLegs.modLeg (ht : s.SameOutsideLegs t []) : s.SameOutsideLegs (t.modLeg l f) [l] := by
  obtain ⟨hpower, hpages, hwait, howed, hlegs, hengines⟩ := ht
  exact ⟨hpower, hpages, hwait, howed,
    fun j hj => (State.sameLegsBut_modLeg t l f j hj).trans (hlegs j List.not_mem_nil),
    fun j _ => hengines j List.not_mem_nil⟩

/-! ### The task -/

/-- R157: a code outside its set is refused. -/
theorem State.runLegSetup_badArgument (hw : decodeSetup (u.arg e) = none) :
    u.runLegSetup l e = u.endTask e [] .badArgument := by
  rw [State.runLegSetup, hw]

/-- R157: a leg that is not PARKED refuses. -/
theorem State.runLegSetup_wrongState (hw : decodeSetup (u.arg e) = some w) (hp : (u.leg l).state ≠ .parked) :
    u.runLegSetup l e = u.endTask e [] .wrongState := by
  simp only [State.runLegSetup, hw, if_pos hp]

/-- R157: a PARKED leg loads the values. -/
theorem State.runLegSetup_loads (hw : decodeSetup (u.arg e) = some w) (hp : (u.leg l).state = .parked) :
    u.runLegSetup l e = ((u.adjustRate l w.rate).modLeg l (fun g => { g with setup := w })).endTask e
      (w.bytes ++ [flagByte (setupAdjusted (u.arg e) w)]) .ok := by
  simp only [State.runLegSetup, hw, hp, ne_eq, not_true_eq_false, if_false]

/-- R146: the engine executes or refuses a LEG_SETUP in every state of the leg. -/
theorem State.runLegTask_legSetup (hp : h.patience.toNat ≤ 3) :
    u.runLegTask l (awaitedEntry n .legSetup h) = some (u.runLegSetup l (awaitedEntry n .legSetup h)) := by
  have hg : (awaitedEntry n .legSetup h).patienceGood = true := decide_eq_true hp
  rw [State.runLegTask, hg]
  rfl

/-- The argument bytes of a LEG_SETUP taken. -/
theorem arg_legSetup (ha : s.AcceptsTask n) (i : Nat) (hi : i < 16) :
    (s.takenTask n .legSetup h values.toList).arg (awaitedEntry n .legSetup h) i = values[i] := by
  rw [State.arg_takenTask ha.wf (by simp) i (by simpa using hi)]
  simp [hi]

/-- A LEG_SETUP that is refused on the state in which it has been taken. -/
theorem exec_legSetup_refused (ha : s.AcceptsTask n) (hh : s.AwaitedFor h l)
    (hrun : (s.takenTask n .legSetup h values.toList).runLegSetup l (awaitedEntry n .legSetup h) =
      (s.takenTask n .legSetup h values.toList).endTask (awaitedEntry n .legSetup h) [] st) :
    exec (.legSetup n h values) s = .next ((s.takenTask n .legSetup h values.toList).endAwaited n [] st) :=
  congrArg Host.Outcome.next (State.handOverTask_ends ha hh rfl (by simp) (.refl _)
    ((State.runLegTask_legSetup hh.patience_le).trans (congrArg some hrun)))

/-- R157, the values loaded, for the command. The leg takes its values as the last effect: no part of the task's end
reads them. -/
theorem exec_legSetup_loads (ha : s.AcceptsTask n) (hh : s.AwaitedFor h l)
    (hw : decodeSetup ((s.takenTask n .legSetup h values.toList).arg (awaitedEntry n .legSetup h)) = some w)
    (hp : (s.leg l).state = .parked) :
    exec (.legSetup n h values) s =
      .next ((((s.takenTask n .legSetup h values.toList).adjustRate l w.rate).endAwaited n
        (w.bytes ++ [if goodSetupNumbers values then 0 else 1]) .ok).modLeg l (fun g => { g with setup := w })) := by
  have hflag : flagByte (setupAdjusted ((s.takenTask n .legSetup h values.toList).arg (awaitedEntry n .legSetup h)) w) =
      if goodSetupNumbers values then 0 else 1 := by
    rw [setupAdjusted_eq (arg_legSetup ha) (loadedFrom_of_decodeSetup (arg_legSetup ha) hw)]
    cases goodSetupNumbers values <;> rfl
  refine congrArg Host.Outcome.next (State.handOverTask_runs ha hh rfl (by simp) ?run ?queue)
  case run =>
    rw [State.runLegTask_legSetup hh.patience_le, State.runLegSetup_loads hw hp, hflag, State.endTask_awaitedEntry,
      State.endAwaited_modLeg]
  case queue =>
    rw [State.engine_modLeg, State.engine_endAwaited, State.engine_adjustRate]
    exact ha.queue_nil l

/-- Settles O43, in the order of the checks of R157. -/
theorem setupLoadsTheValues : Obligations.SetupLoadsTheValues := by
  intro n h values l s ha hh
  have hl : values.toList.length ≤ 0x10 := by simp
  have hcodes := isSome_decodeSetup (arg_legSetup (h := h) (values := values) ha)
  cases hd : decodeSetup ((s.takenTask n .legSetup h values.toList).arg (awaitedEntry n .legSetup h)) with
  | none =>
    have hbad : ¬goodSetupCodes values = true := by simp [← hcodes, hd]
    exact ⟨_, exec_legSetup_refused ha hh (State.runLegSetup_badArgument hd), State.carried_endAwaited ha (.refl _) _ _,
      fun _ => State.taskRefused_endAwaited ha hl _, fun hg => absurd hg hbad, fun hg => absurd hg hbad⟩
  | some w =>
    have hgood : ¬goodSetupCodes values = false := by simp [← hcodes, hd]
    by_cases hp : (s.leg l).state = .parked
    case neg =>
      exact ⟨_, exec_legSetup_refused ha hh (State.runLegSetup_wrongState hd hp),
        State.carried_endAwaited ha (.refl _) _ _, fun hb => absurd hb hgood,
        fun _ _ => State.taskRefused_endAwaited ha hl _, fun _ hp' => absurd hp' hp⟩
    case pos =>
      have hw := loadedFrom_of_decodeSetup (arg_legSetup ha) hd
      have hv := State.adjustRate_sameButLanes (s.takenTask n .legSetup h values.toList) l w.rate
      refine ⟨_, exec_legSetup_loads ha hh hd hp, (State.carried_endAwaited ha hv _ _).modLeg,
        fun hb => absurd hb hgood, fun _ hp' => absurd hp hp', fun _ _ => ⟨w, hw.rate, hw.ownPreset, hw.partnerPreset,
        hw.budget, hw.requestWait, hw.sessionTimer, hw.lockTimeout, hw.attemptLimit, hw.fallback, hw.relayMode,
        hw.relayDelay, hw.pulseWidth, hw.threshold, hw.floor, hw.passing, hw.wakeWatch, ?leg,
        (State.taskDone_endAwaited ha hl hv (by simp [Setup.bytes]) _).modLeg,
        (State.sameOutsideLegs_endAwaited hv _ _).modLeg, ?engine, fun i => ?map, fun y hy => ?others,
        fun y hy => ?members⟩⟩
      case leg =>
        rw [State.leg_modLeg_self, State.leg_endAwaited, State.leg_adjustRate]
        rfl
      case engine =>
        rw [State.engine_modLeg, State.engine_endAwaited, State.engine_adjustRate]
        rfl
      case map =>
        rw [State.entry_modLeg, State.entry_endAwaited, State.entry_adjustRate]
        rfl
      case others =>
        rw [State.lane_modLeg, State.lane_endAwaited, State.lane_adjustRate_of_notMem (s.takenTask ..) _ _ hy]
        rfl
      case members =>
        rw [State.lane_modLeg, State.lane_endAwaited, State.lane_adjustRate (s.takenTask ..) _ _ hy]
        rfl

end Sys2Proof.Machine
end

section
/-! INITIALIZATION_COMPLETE (R171, R172): READY, and each used leg started by AUTOSTART. -/

namespace Sys2Proof.Machine

variable {s t u : State} {l : LegId}

/-! ### Changes that no receiver's signal shows -/

/-- Only lane sides and leg controllers differ, and every receiver's presence and lock are the same. -/
structure State.KeepsSignals (s t : State) : Prop where
  update : ∃ lineSide switchSide legs, t = { s with lineSide := lineSide, switchSide := switchSide, legs := legs }
  presence (x : LaneSide) : (t.lane x).presence = (s.lane x).presence
  locked (x : LaneSide) : (t.lane x).locked = (s.lane x).locked

theorem State.KeepsSignals.refl (s : State) : s.KeepsSignals s := ⟨⟨_, _, _, rfl⟩, fun _ => rfl, fun _ => rfl⟩

theorem State.KeepsSignals.trans (h : s.KeepsSignals t) (h' : t.KeepsSignals u) : s.KeepsSignals u := by
  refine ⟨?_, fun x => (h'.presence x).trans (h.presence x), fun x => (h'.locked x).trans (h.locked x)⟩
  obtain ⟨_, _, _, rfl⟩ := h.update
  obtain ⟨_, _, _, rfl⟩ := h'.update
  exact ⟨_, _, _, rfl⟩

theorem State.KeepsSignals.modLeg (h : s.KeepsSignals t) (l : LegId) (f : Leg → Leg) :
    s.KeepsSignals (t.modLeg l f) :=
  h.trans ⟨⟨_, _, _, rfl⟩, fun _ => rfl, fun _ => rfl⟩

theorem State.KeepsSignals.sameOutside (h : s.KeepsSignals t) : s.SameOutside t := by
  obtain ⟨_, _, _, rfl⟩ := h.update
  exact ⟨⟨rfl, rfl, rfl⟩, ⟨rfl, rfl, rfl⟩, ⟨rfl, rfl, rfl, rfl, rfl, rfl⟩, fun _ => rfl,
    ⟨fun _ => rfl, rfl, rfl, rfl, rfl⟩, fun _ _ => rfl, fun _ _ => rfl, fun _ => rfl, ⟨rfl, rfl, rfl, rfl, rfl⟩,
    ⟨rfl, rfl⟩, ⟨rfl, rfl, rfl, rfl, rfl⟩⟩

theorem State.KeepsSignals.effective (h : s.KeepsSignals t) : t.effective = s.effective := by
  obtain ⟨_, _, _, rfl⟩ := h.update
  rfl

theorem State.KeepsSignals.engine (h : s.KeepsSignals t) (k : LegId) : t.engine k = s.engine k := by
  obtain ⟨_, _, _, rfl⟩ := h.update
  rfl

theorem State.KeepsSignals.used (h : s.KeepsSignals t) (k : LegId) : t.used k = s.used k := by
  obtain ⟨_, _, _, rfl⟩ := h.update
  rfl

theorem State.KeepsSignals.allMemberSides (h : s.KeepsSignals t) (k : LegId) :
    t.allMemberSides k = s.allMemberSides k := by
  obtain ⟨_, _, _, rfl⟩ := h.update
  rfl

theorem State.KeepsSignals.allPresent (h : s.KeepsSignals t) (k : LegId) : t.allPresent k = s.allPresent k := by
  simp only [State.allPresent, h.allMemberSides, h.presence]

theorem State.KeepsSignals.allLocked (h : s.KeepsSignals t) (k : LegId) : t.allLocked k = s.allLocked k := by
  simp only [State.allLocked, h.allMemberSides, h.locked]

/-! ### A session started on one side (R54) -/

/-- R54, R67: one side of a leg whose session starts: RUNNING, its mask clear, its timer at the full length. -/
def LegSide.started (g : Setup) (d : LegSide) : LegSide :=
  { d with session := .running, weak := 0, timer := some (g.sessionTimer * 100000) }

/-- A session start is no event of the receiver. -/
theorem LaneState.startSession_keeps (v : LaneState) (g : Setup) (kind : SessionKind) :
    (v.startSession g kind).presence = v.presence ∧ (v.startSession g kind).locked = v.locked := by
  cases kind <;> exact ⟨rfl, rfl⟩

theorem State.leg_startSession (s : State) (l : LegId) (kind : SessionKind) (d : Side) (k : LegId) :
    (s.startSession l kind d).leg k =
      if k = l then (s.leg l).modSide d (LegSide.started (s.leg l).setup) else s.leg k := by
  rw [State.startSession, State.leg_modLegSide, State.leg_modLanes, State.leg_modLanes]
  rfl

theorem State.keepsSignals_startSession (s : State) (l : LegId) (kind : SessionKind) (d : Side) :
    s.KeepsSignals (s.startSession l kind d) := by
  have hlanes : s.KeepsSignals
      (s.modLanes (s.memberSides l d) (fun v => v.startSession (s.leg l).setup kind)) := by
    have hkeep := State.lane_modLanes_induct (s := s)
      (fun x v => v.presence = (s.lane x).presence ∧ v.locked = (s.lane x).locked) (s.memberSides l d)
      (fun v => v.startSession (s.leg l).setup kind)
      (fun _ _ v hv => by
        obtain ⟨hpresence, hlocked⟩ := v.startSession_keeps (s.leg l).setup kind
        exact hv.imp hpresence.trans hlocked.trans)
      (fun _ => ⟨rfl, rfl⟩)
    obtain ⟨map, line, switch, hupdate⟩ :=
      State.modLanes_sameButLanes s (s.memberSides l d) (fun v => v.startSession (s.leg l).setup kind)
    have hmap : s.map = map := (State.modLanes_map s _ _).symm.trans (congrArg State.map hupdate)
    exact ⟨⟨line, switch, s.legs, by rw [hupdate, ← hmap]⟩, fun x => (hkeep x).1, fun x => (hkeep x).2⟩
  rw [State.startSession, State.modLegSide]
  exact hlanes.modLeg l _

/-! ### The entry into DARK and as far as presence and lock let it (R31, R32) -/

/-- R31, R32, R36: the items of a leg that enters DARK and goes on: to ACQUIRE with every lane PRESENT, to TUNE with
every lane LOCKED too. -/
def Leg.enteredDark (g : Leg) : (present locked : Bool) → Leg
  | false, _ => { g with state := .dark, lockTimer := none }
  | true, false => { g with state := .acquire, lockTimer := some (g.setup.lockTimeout * 1000) }
  | true, true =>
    { g.modSides (LegSide.started g.setup) with state := .tune, kind := .bringUp, lockTimer := none }

theorem Leg.state_enteredDark (g : Leg) (present locked : Bool) :
    (g.enteredDark present locked).state =
      if present = false then .dark else if locked = false then .acquire else .tune := by
  cases present <;> cases locked <;> rfl

/-- The entry leaves what LEG_START and AUTOSTART set, and the setup. -/
theorem Leg.enteredDark_keeps (g : Leg) (present locked : Bool) :
    (g.enteredDark present locked).intent = g.intent ∧ (g.enteredDark present locked).attempts = g.attempts ∧
      (g.enteredDark present locked).givenUp = g.givenUp ∧ (g.enteredDark present locked).setup = g.setup := by
  cases present <;> cases locked <;> exact ⟨rfl, rfl, rfl, rfl⟩

/-- R31: with a member lane ABSENT the leg stays in DARK. -/
theorem State.enterDark_of_absent (hp : s.allPresent l = false) :
    s.enterDark l = s.modLeg l (fun g => g.enteredDark false false) := by
  have hc : (s.modLeg l (fun g => { g with state := .dark, lockTimer := none })).allPresent l = false := hp
  simp only [State.enterDark, hc]
  rfl

/-- R31, R32: with every lane PRESENT the leg passes DARK, and enters ACQUIRE. -/
theorem State.enterDark_of_present (hp : s.allPresent l = true) :
    s.enterDark l = (s.modLeg l (fun g => g.enteredDark true false)).tryTune l := by
  have hc : (s.modLeg l (fun g => { g with state := .dark, lockTimer := none })).allPresent l = true := hp
  simp only [State.enterDark, hc, if_true, State.enterAcquire, State.modLeg_modLeg]
  rfl

/-- R32: with a member lane UNLOCKED the leg stays in ACQUIRE. -/
theorem State.enterDark_of_unlocked (hp : s.allPresent l = true) (hl : s.allLocked l = false) :
    s.enterDark l = s.modLeg l (fun g => g.enteredDark true false) := by
  have hc : (s.modLeg l (fun g => g.enteredDark true false)).allLocked l = false := hl
  rw [State.enterDark_of_present hp, State.tryTune, hc]
  rfl

/-- R32, R36: with every lane LOCKED too, a session starts on both sides. -/
theorem State.enterDark_of_locked (hp : s.allPresent l = true) (hl : s.allLocked l = true) :
    s.enterDark l =
      ((s.modLeg l (fun g => { g with state := .tune, kind := .bringUp, lockTimer := none })).startSession l .bringUp
        .line).startSession l .bringUp .switch := by
  have hc : (s.modLeg l (fun g => g.enteredDark true false)).allLocked l = true := hl
  rw [State.enterDark_of_present hp, State.tryTune, if_pos hc, State.enterTune, State.modLeg_modLeg,
    State.modLeg_modLeg]
  rfl

theorem State.leg_enterDark (s : State) (l k : LegId) :
    (s.enterDark l).leg k =
      if k = l then (s.leg l).enteredDark (s.allPresent l) (s.allLocked l) else s.leg k := by
  cases hp : s.allPresent l with
  | false => rw [State.enterDark_of_absent hp, State.leg_modLeg]; rfl
  | true =>
    cases hl : s.allLocked l with
    | false => rw [State.enterDark_of_unlocked hp hl, State.leg_modLeg]
    | true =>
      rw [State.enterDark_of_locked hp hl]
      by_cases hk : k = l
      · simp only [State.leg_startSession, State.leg_modLeg_self, hk, if_true]
        rfl
      · simp only [State.leg_startSession, State.leg_modLeg, hk, if_false]

theorem State.keepsSignals_enterDark (s : State) (l : LegId) : s.KeepsSignals (s.enterDark l) := by
  have hleg := (State.KeepsSignals.refl s).modLeg l
  cases hp : s.allPresent l with
  | false => rw [State.enterDark_of_absent hp]; exact hleg _
  | true =>
    cases hl : s.allLocked l with
    | false => rw [State.enterDark_of_unlocked hp hl]; exact hleg _
    | true =>
      rw [State.enterDark_of_locked hp hl]
      exact ((hleg _).trans (State.keepsSignals_startSession _ l _ _)).trans (State.keepsSignals_startSession _ l _ _)

/-- A leg that does not reach TUNE touches no lane side. -/
theorem State.lane_enterDark (h : s.allPresent l = false ∨ s.allLocked l = false) (y : LaneSide) :
    (s.enterDark l).lane y = s.lane y := by
  cases hp : s.allPresent l with
  | false => rw [State.enterDark_of_absent hp, State.lane_modLeg]
  | true => rw [State.enterDark_of_unlocked hp (by simpa [hp] using h), State.lane_modLeg]

/-! ### AUTOSTART (R172) -/

/-- R26, R172: the items of a leg that AUTOSTART starts, before it enters DARK. -/
def Leg.tookIntent (g : Leg) : Leg := { g with intent := true, attempts := 0, givenUp := false }

/-- AUTOSTART on an unused leg. -/
theorem State.autostartLeg_of_unused (hu : s.used l = false) : s.autostartLeg l = s := by
  simp [State.autostartLeg, hu]

/-- AUTOSTART on a used leg, the power LOW or RISING. -/
theorem State.autostartLeg_of_unpowered (hu : s.used l = true) (he : s.effective ≠ .active) :
    s.autostartLeg l = s.modLeg l Leg.tookIntent := by
  rw [State.autostartLeg, if_pos hu]
  exact if_neg he

/-- AUTOSTART on a used leg, the power ACTIVE. -/
theorem State.autostartLeg_of_powered (hu : s.used l = true) (he : s.effective = .active) :
    s.autostartLeg l = (s.modLeg l Leg.tookIntent).enterDark l := by
  rw [State.autostartLeg, if_pos hu]
  exact if_pos he

/-- R172: the items of a leg after AUTOSTART, by its use, the power, and its lanes' presence and lock. -/
def Leg.autostarted (g : Leg) (used active present locked : Bool) : Leg :=
  match used, active with
  | false, _ => g
  | true, false => g.tookIntent
  | true, true => g.tookIntent.enteredDark present locked

theorem State.leg_autostartLeg (s : State) (l k : LegId) :
    (s.autostartLeg l).leg k =
      if k = l then
        (s.leg l).autostarted (s.used l) (decide (s.effective = .active)) (s.allPresent l) (s.allLocked l)
      else s.leg k := by
  cases hu : s.used l with
  | false =>
    rw [State.autostartLeg_of_unused hu]
    split
    case isTrue hk => rw [hk]; rfl
    case isFalse => rfl
  | true =>
    by_cases he : s.effective = .active
    · rw [State.autostartLeg_of_powered hu he, State.leg_enterDark, State.leg_modLeg_self, State.leg_modLeg,
        decide_eq_true he]
      split <;> rfl
    · rw [State.autostartLeg_of_unpowered hu he, State.leg_modLeg, decide_eq_false he]
      rfl

theorem State.keepsSignals_autostartLeg (s : State) (l : LegId) : s.KeepsSignals (s.autostartLeg l) := by
  have hleg := (State.KeepsSignals.refl s).modLeg l Leg.tookIntent
  cases hu : s.used l with
  | false => rw [State.autostartLeg_of_unused hu]; exact .refl s
  | true =>
    by_cases he : s.effective = .active
    · rw [State.autostartLeg_of_powered hu he]; exact hleg.trans (State.keepsSignals_enterDark _ l)
    · rw [State.autostartLeg_of_unpowered hu he]; exact hleg

/-- No used leg can reach TUNE: the power is not ACTIVE, or each has a member lane ABSENT or UNLOCKED. -/
def State.NoLegTunes (s : State) : Prop :=
  s.effective ≠ .active ∨ ∀ l, s.used l = true → s.allPresent l = false ∨ s.allLocked l = false

theorem State.KeepsSignals.noLegTunes (h : s.KeepsSignals t) (hn : s.NoLegTunes) : t.NoLegTunes := by
  simpa only [State.NoLegTunes, h.effective, h.used, h.allPresent, h.allLocked] using hn

theorem State.lane_autostartLeg (hn : s.NoLegTunes) (l : LegId) (y : LaneSide) :
    (s.autostartLeg l).lane y = s.lane y := by
  cases hu : s.used l with
  | false => rw [State.autostartLeg_of_unused hu]
  | true =>
    by_cases he : s.effective = .active
    · rw [State.autostartLeg_of_powered hu he]
      have hstop : (s.modLeg l Leg.tookIntent).allPresent l = false ∨
          (s.modLeg l Leg.tookIntent).allLocked l = false := hn.resolve_left (not_not_intro he) l hu
      rw [State.lane_enterDark hstop, State.lane_modLeg]
    · rw [State.autostartLeg_of_unpowered hu he, State.lane_modLeg]

/-- R172: AUTOSTART on the legs of a list. -/
def State.autostartLegs (s : State) (ls : List LegId) : State := ls.foldl (fun s l => s.autostartLeg l) s

theorem State.keepsSignals_autostartLegs (s : State) (ls : List LegId) : s.KeepsSignals (s.autostartLegs ls) := by
  induction ls generalizing s with
  | nil => exact .refl s
  | cons l ls ih => exact (State.keepsSignals_autostartLeg s l).trans (ih _)

theorem State.leg_autostartLegs_of_notMem (s : State) {ls : List LegId} {k : LegId} (hk : k ∉ ls) :
    (s.autostartLegs ls).leg k = s.leg k := by
  induction ls generalizing s with
  | nil => rfl
  | cons l ls ih =>
    obtain ⟨hl, hls⟩ := not_or.mp (mt List.mem_cons.mpr hk)
    exact (ih (s.autostartLeg l) hls).trans ((State.leg_autostartLeg s l k).trans (if_neg hl))

/-- Each leg starts by its own use and its own lanes' signals, whatever legs started before it. -/
theorem State.leg_autostartLegs (s : State) {ls : List LegId} (hn : ls.Nodup) {k : LegId} (hk : k ∈ ls) :
    (s.autostartLegs ls).leg k =
      (s.leg k).autostarted (s.used k) (decide (s.effective = .active)) (s.allPresent k) (s.allLocked k) := by
  induction ls generalizing s with
  | nil => cases hk
  | cons l ls ih =>
    obtain ⟨hl, hls⟩ := List.nodup_cons.mp hn
    show ((s.autostartLeg l).autostartLegs ls).leg k = _
    rcases List.mem_cons.mp hk with rfl | hk
    · rw [State.leg_autostartLegs_of_notMem _ hl, State.leg_autostartLeg, if_pos rfl]
    · have hkeep := State.keepsSignals_autostartLeg s l
      rw [ih _ hls hk, hkeep.used, hkeep.effective, hkeep.allPresent, hkeep.allLocked, State.leg_autostartLeg,
        if_neg (ne_of_mem_of_not_mem hk hl)]

theorem State.lane_autostartLegs (hn : s.NoLegTunes) (ls : List LegId) (y : LaneSide) :
    (s.autostartLegs ls).lane y = s.lane y := by
  induction ls generalizing s with
  | nil => rfl
  | cons l ls ih =>
    exact (ih ((State.keepsSignals_autostartLeg s l).noLegTunes hn)).trans (State.lane_autostartLeg hn l y)

/-! ### The completion -/

/-- R146: with every leg queue empty an examination of the leg engines does nothing. -/
theorem State.examineLegs_nil (hq : ∀ l, (s.engine l).queue = []) : s.examineLegs = s := by
  simp [State.examineLegs, hq, arrange]

/-- R171: the part as READY finds it, before AUTOSTART. -/
def State.atReady (s : State) : State := { s with initTimer := none }.becomeReady

/-- R172: the part after AUTOSTART, if it was strapped. -/
def State.started (s : State) : State :=
  if s.straps.autostart then s.atReady.autostartLegs allLegs else s.atReady

theorem State.started_of_strapped (ha : s.straps.autostart = true) :
    s.started = s.atReady.autostartLegs allLegs := if_pos ha

theorem State.started_of_notStrapped (ha : s.straps.autostart = false) : s.started = s.atReady :=
  if_neg (by simp [ha])

theorem State.keepsSignals_started (s : State) : s.atReady.KeepsSignals s.started := by
  cases ha : s.straps.autostart with
  | false => rw [State.started_of_notStrapped ha]; exact .refl _
  | true => rw [State.started_of_strapped ha]; exact State.keepsSignals_autostartLegs _ _

theorem State.leg_started_of_strapped (ha : s.straps.autostart = true) (k : LegId) :
    s.started.leg k =
      (s.leg k).autostarted (s.used k) (decide (s.effective = .active)) (s.allPresent k) (s.allLocked k) := by
  rw [State.started_of_strapped ha]
  exact State.leg_autostartLegs _ (by decide) (by revert k; decide)

/-- The command in the state of R172 with no task waiting. -/
theorem exec_initializationComplete_eq (hr : s.resetHeld = false) (hd : s.device = .initializing) (hw : s.NoWork) :
    exec .initializationComplete s = .next s.started := by
  obtain ⟨-, hqueues, -⟩ := hw
  have hexamine : s.completeInit = s.started :=
    State.examineLegs_nil fun l => (congrArg LegEngine.queue (s.keepsSignals_started.engine l)).trans (hqueues l)
  show execInitializationComplete s = _
  simp [execInitializationComplete, whenRunning, hr, hd, hexamine]

/-- R172: a PARKED leg that is used takes intent 1, and enters DARK exactly when the power is ACTIVE. -/
theorem Leg.autostarted_used (g : Leg) (hp : g.state = .parked) (active present locked : Bool) :
    (g.autostarted true active present locked).intent = true ∧
      (g.autostarted true active present locked).attempts = 0 ∧
      (g.autostarted true active present locked).givenUp = false ∧
      (g.autostarted true active present locked).setup = g.setup ∧
      (g.autostarted true active present locked).state =
        (if active = false then .parked else if present = false then .dark
          else if locked = false then .acquire else .tune) := by
  cases active with
  | false => exact ⟨rfl, rfl, rfl, rfl, hp⟩
  | true =>
    obtain ⟨hintent, hattempts, hgivenUp, hsetup⟩ := g.tookIntent.enteredDark_keeps present locked
    exact ⟨hintent, hattempts, hgivenUp, hsetup, Leg.state_enteredDark _ _ _⟩

/-- Settles O7: AUTOSTART leg by leg, each by its own use and its own lanes' signals. -/
theorem initializationCompletes : Obligations.InitializationCompletes := by
  intro s hr hd hw hp
  obtain ⟨hpins, hpower, ⟨hdevice, hinit, -⟩, hmap, htasks, hslots, hpages, hbytes, ⟨hsummary, henables, -⟩, hfaults,
    hline⟩ := s.keepsSignals_started.sameOutside
  refine ⟨s.started, exec_initializationComplete_eq hr hd hw, hdevice, hinit, fun l => ⟨fun hl => ?unchanged,
    fun ha hu => ?strapped⟩, fun hn y _ => ?lanes, hpins, hpower, hmap, htasks, hslots, hpages, hbytes, hsummary,
    henables, hfaults, hline⟩
  case unchanged =>
    cases ha : s.straps.autostart with
    | false => rw [State.started_of_notStrapped ha]; rfl
    | true => rw [State.leg_started_of_strapped ha, hl.resolve_left (by simp [ha])]; rfl
  case strapped =>
    rw [State.leg_started_of_strapped ha, hu]
    simpa only [decide_eq_false_iff_not] using
      Leg.autostarted_used (s.leg l) (hp l) (decide (s.effective = .active)) (s.allPresent l) (s.allLocked l)
  case lanes =>
    cases ha : s.straps.autostart with
    | false => rw [State.started_of_notStrapped ha]; rfl
    | true =>
      rw [State.started_of_strapped ha]
      exact State.lane_autostartLegs (s := s.atReady) (hn.resolve_left (by simp [ha])) allLegs y

end Sys2Proof.Machine
end

section
/-! What a step is made of. Every operation of the model is a sequence of a few kinds of move, and a move also says which
tasks are in hand: taken from the place where they stood and not yet ended or put elsewhere. An invariant of every step
is then a property that every kind of move keeps. -/

namespace Sys2Proof.Machine

/-- What is in hand between two moves: a task that has left its queue (that of a leg, or the device queue), the slot of
an awaited task that has left the place where it stood, or a fall of the power whose legs are not all PARKED yet. -/
inductive InHand where
  | task (l : Option LegId) (e : Entry)
  | slot (n : SlotId)
  | fall

/-- Which invariants the moves may build on: that of the hand-over order list and the slots (R137), and that of the lane
functions and of the part in INITIALIZING (R12, R172). -/
structure Known where
  slots : Prop
  carry : Prop

/-- A leg that may stand outside PARKED: it does already, or it holds intent 1 with ACTIVE power (R26, R29). -/
def State.MayBeOut (s : State) (l : LegId) : Prop :=
  (s.leg l).state ≠ .parked ∨ ((s.leg l).intent = true ∧ s.effective = .active)

/-- R47: the three counters of a leg are at most 65,535. -/
def Leg.CountersBounded (g : Leg) : Prop :=
  g.carryEntries ≤ 65535 ∧ g.presenceLosses ≤ 65535 ∧ g.failedSessions ≤ 65535

/-- An entry without its deferral: what no examination that leaves it in its queue changes. -/
def Entry.undeferred (e : Entry) : Entry := { e with deferred := false, clock := none }

/-- R120: the count of a cell written, and one cell more done. -/
def State.writeCell (s : State) (p : PageId) (count : Byte) (st : PageState) (o : ScanOutcome) : State :=
  { s with mem := s.mem.write (pageBase p + 0x200 + (s.page p).cellsDone) count }.modPage p (fun c =>
    { c with cellsDone := c.cellsDone + 1, state := st, outcome := o })

/-- R118: a page given to a scan, with its cells 0. -/
def State.openPage (s : State) (p : PageId) (c : Page) : State :=
  { s with mem := s.mem.clear (pageBase p + 0x200) 0x200 }.modPage p (fun _ => c)

/-- The moves: what changes, what is in hand before and after, and when the model makes the change. -/
inductive Move (k : Known) : State → List InHand → State → List InHand → Prop where
  /-- registers that no invariant names -/
  | free (s : State) (xs : List InHand) (pending : List Instr) (resetHeld lowpwr : Bool) (requested : RequestedPower)
      (riseTimer initTimer : Option Nat) (initByPowerOn : Bool) (resetTimer : Option Nat)
      (lastCause releaseCause : ResetCause) (owed : List LegId) (latchedMode holdIntake latchedLine : Bool)
      (offset : BitVec 16) (readOpen : Option ReadTransaction) (acknowledged : Bool) (readData : List Byte)
      (freeCount : Nat) :
      Move k s xs
        { s with
          pending := pending, resetHeld := resetHeld, lowpwr := lowpwr, requested := requested, riseTimer := riseTimer
          initTimer := initTimer, initByPowerOn := initByPowerOn, resetTimer := resetTimer, lastCause := lastCause
          releaseCause := releaseCause, owed := owed, latchedMode := latchedMode, holdIntake := holdIntake
          latchedLine := latchedLine, offset := offset, readOpen := readOpen, acknowledged := acknowledged
          readData := readData, freeCount := freeCount } xs
  /-- a lane side, its taps kept valid and its counters in range -/
  | lane (s : State) (xs : List InHand) (x : LaneSide) (f : LaneState → LaneState)
      (htaps : s.MapPermutes → ∀ v : LaneState, v.taps.valid (s.rateOf x) = true → (f v).taps.valid (s.rateOf x) = true)
      (hcounters : ∀ v : LaneState, v.counters.bounded = true → (f v).counters.bounded = true) :
      Move k s xs (s.modLane x f) xs
  /-- every lane side, its taps and counters kept -/
  | everyLane (s : State) (xs : List InHand) (f : LaneState → LaneState)
      (hf : ∀ v : LaneState, (f v).taps = v.taps ∧ (f v).counters = v.counters) : Move k s xs (s.modAllLanes f) xs
  /-- a leg controller -/
  | leg (s : State) (xs : List InHand) (l : LegId) (f : Leg → Leg)
      (hrate : (f (s.leg l)).setup.rate = (s.leg l).setup.rate)
      (hintent : (f (s.leg l)).intent = true → (s.leg l).intent = true)
      (hstate : (f (s.leg l)).state = .parked ∨ s.MayBeOut l)
      (hcounters : (s.leg l).CountersBounded → (f (s.leg l)).CountersBounded) : Move k s xs (s.modLeg l f) xs
  /-- R26, R172: intent 1 taken by a used leg with its member lanes in CARRY -/
  | intent (s : State) (xs : List InHand) (l : LegId) (hcarry : k.carry → s.allCarry l = true)
      (hused : s.used l = true ∨ ∃ e, .task (some l) e ∈ xs) : Move k s xs (s.takeIntent l) xs
  /-- R157: the setup values of a PARKED leg loaded -/
  | setup (s : State) (xs : List InHand) (l : LegId) (v : Setup) :
      Move k s xs ((s.adjustRate l v.rate).modLeg l (fun g => { g with setup := v })) xs
  /-- R20: the function of a lane of a PARKED leg, by a task of the leg -/
  | function (s : State) (xs : List InHand) (l : LegId) (i : LaneId) (f : LaneFunction)
      (hmember : legOfLine s.straps.profile i = l) (htask : ∃ e, .task (some l) e ∈ xs)
      (hparked : (s.leg l).state = .parked) (hintent : f = .carry ∨ (s.leg l).intent = false) :
      Move k s xs { s with map := s.map.set i { s.entry i with function := f } } xs
  /-- R21, R80: a whole map applied, every function kept -/
  | remap (s : State) (xs : List InHand) (map : Vector MapEntry 8) (hsource : ∀ sw, ∃ i : LaneId, map[i].source = sw)
      (hfunction : ∀ i : LaneId, map[i].function = s.map[i].function) :
      Move k s xs (allLanes.foldl (fun t sw => State.moveSwitchLane s t sw) { s with map := map }) xs
  /-- R175: the power begins to rise, or has risen -/
  | power (s : State) (xs : List InHand) (p : EffectivePower) (h : p = .active ∨ s.effective ≠ .active) :
      Move k s xs { s with effective := p } xs
  /-- R174: the power falls -/
  | fall (s : State) (xs : List InHand) : Move k s xs { s with effective := .low } (.fall :: xs)
  /-- R29: every leg is PARKED after the fall -/
  | fallen (s : State) (xs : List InHand) (h : ∀ l, (s.leg l).state = .parked) : Move k s (.fall :: xs) s xs
  /-- R163: implemented summary bits set, but for the bit of the fault log -/
  | raise (s : State) (xs : List InHand) (bits : BitVec 32) (hbits : bits &&& ~~~implementedBits = 0)
      (hfault : bits.getLsbD 24 = false) : Move k s xs (s.raise bits) xs
  /-- R163: summary bits cleared, but for the bit of the fault log -/
  | lower (s : State) (xs : List InHand) (bits : BitVec 32) (hfault : bits.getLsbD 24 = false) :
      Move k s xs (s.lower bits) xs
  /-- R168 -/
  | reportFault (s : State) (xs : List InHand) (r : FaultRecord) : Move k s xs (s.reportFault r) xs
  /-- R169 -/
  | releaseFaults (s : State) (xs : List InHand) : Move k s xs s.releaseFaults xs
  /-- R165 -/
  | writeEnable (s : State) (xs : List InHand) (j : Nat) (v : Byte) : Move k s xs (s.writeEnable j v) xs
  /-- R130: a write transaction ended, going on, or begun on a line interface that answers -/
  | writeOpen (s : State) (xs : List InHand) (w : Option WriteTransaction)
      (h : w = none ∨ s.writeOpen ≠ none ∨ s.device ≠ .initializing) : Move k s xs { s with writeOpen := w } xs
  /-- R148: entries of a leg queue deferred -/
  | deferQueue (s : State) (xs : List InHand) (l : LegId) (q : List Entry)
      (h : q.map Entry.undeferred = (s.engine l).queue.map Entry.undeferred) : Move k s xs (s.setQueue l q) xs
  /-- R146: entries taken from a leg queue -/
  | leaveQueue (s : State) (xs : List InHand) (l : LegId) (q es : List Entry)
      (h : List.Perm (s.engine l).queue (es ++ q)) :
      Move k s xs (s.setQueue l q) (es.map (InHand.task (some l)) ++ xs)
  /-- R145: an entry put at the end of a leg queue that has room -/
  | joinQueue (s : State) (xs : List InHand) (l : LegId) (e : Entry) (h : (s.engine l).queue.length < 8) :
      Move k s (.task (some l) e :: xs) (s.setQueue l ((s.engine l).queue ++ [e])) xs
  /-- R153: the head of the device queue taken -/
  | leaveDevice (s : State) (xs : List InHand) (e : Entry) (q : List Entry) (h : s.deviceQueue = e :: q) :
      Move k s xs { s with deviceQueue := q } (.task none e :: xs)
  /-- R145: an entry put at the end of the device queue, which has room -/
  | joinDevice (s : State) (xs : List InHand) (e : Entry) (h : s.deviceQueue.length < 4) :
      Move k s (.task none e :: xs) { s with deviceQueue := s.deviceQueue ++ [e] } xs
  /-- R155: an awaited bring-up task in flight -/
  | launch (s : State) (xs : List InHand) (l : LegId) (e : Entry) (h : e.awaited = true) :
      Move k s (.task (some l) e :: xs) (s.modEngine l (fun g => { g with inFlight := some e.slot })) xs
  /-- R155: the task in flight out of its set -/
  | land (s : State) (xs : List InHand) (l : LegId) (n : SlotId) (h : (s.engine l).inFlight = some n) :
      Move k s xs (s.modEngine l (fun g => { g with inFlight := none })) (.slot n :: xs)
  /-- R160: an awaited POWER that waits for the end of the rise -/
  | wait (s : State) (xs : List InHand) (e : Entry) (h : e.awaited = true) :
      Move k s (.task none e :: xs) { s with powerWait := s.powerWait ++ [e.slot] } xs
  /-- R160: the power wait list emptied -/
  | endWait (s : State) (xs : List InHand) :
      Move k s xs { s with powerWait := [] } (s.powerWait.map InHand.slot ++ xs)
  /-- R156: a task of the power wait list cancelled -/
  | leaveWait (s : State) (xs : List InHand) (n : SlotId) (h : n ∈ s.powerWait) :
      Move k s xs { s with powerWait := s.powerWait.filter (fun m => m ≠ n) } (.slot n :: xs)
  /-- R118: a scan started in a FREE page -/
  | openPage (s : State) (xs : List InHand) (l : LegId) (e : Entry) (p : PageId) (c : Page) (left : Nat)
      (hk : e.kind = .eyeScan) (hfree : (s.page p).state = .free) (hc : c.state = .busy e.slot left)
      (hcells : c.cellsDone = 0) : Move k s (.task (some l) e :: xs) (s.openPage p c) xs
  /-- R121: a scan ended, its page HELD -/
  | closePage (s : State) (xs : List InHand) (p : PageId) (n : SlotId) (left : Nat) (o : ScanOutcome)
      (h : (s.page p).state = .busy n left) :
      Move k s xs (s.modPage p (fun c => { c with state := .held, outcome := o })) (.slot n :: xs)
  /-- R120: a cell short of the last -/
  | cell (s : State) (xs : List InHand) (p : PageId) (n : SlotId) (left left' : Nat) (count : Byte)
      (h : (s.page p).state = .busy n left) (hlast : (s.page p).cellsDone + 1 < 512) :
      Move k s xs (s.writeCell p count (.busy n left') (s.page p).outcome) xs
  /-- R120, R122: the cell with which a scan ends -/
  | lastCell (s : State) (xs : List InHand) (p : PageId) (n : SlotId) (left : Nat) (count : Byte) (o : ScanOutcome)
      (h : (s.page p).state = .busy n left) : Move k s xs (s.writeCell p count .held o) (.slot n :: xs)
  /-- R116: a HELD page freed -/
  | freePage (s : State) (xs : List InHand) (p : PageId) (h : (s.page p).state = .held) :
      Move k s xs (s.openPage p Page.reset) xs
  /-- R135: a byte stored in a slot -/
  | store (s : State) (xs : List InHand) (a : Nat) (v : Byte) (h : 0x400 ≤ a ∧ a < 0x1000) :
      Move k s xs { s with mem := s.mem.write a v } xs
  /-- R140: an awaited task finished in its slot -/
  | finish (s : State) (xs : List InHand) (n : SlotId) (result : List Byte) (st : Status) (h : result.length ≤ 0x80) :
      Move k s (.slot n :: xs) (s.endAwaited n result st) xs
  /-- R144: a posted task finished -/
  | drop (s : State) (xs : List InHand) (l : Option LegId) (e : Entry) : Move k s (.task l e :: xs) s xs
  /-- an awaited task finishes in its slot -/
  | toSlot (s : State) (xs : List InHand) (l : Option LegId) (e : Entry) (h : e.awaited = true) :
      Move k s (.task l e :: xs) s (.slot e.slot :: xs)
  /-- R139: a slot leaves the list -/
  | take (s : State) (xs : List InHand) (n : SlotId) (awaited : Bool) (hlist : k.slots → n ∈ s.handOver)
      (hready : k.carry → s.device ≠ .initializing) :
      Move k s xs (s.takeSlot n awaited) (if awaited then .slot n :: xs else xs)
  /-- R139: the entry of an awaited task taken -/
  | adopt (s : State) (xs : List InHand) (l : Option LegId) (e : Entry) (ha : e.awaited = true)
      (hused : ∀ m, l = some m → s.used m = true) (hready : k.carry → s.device ≠ .initializing) :
      Move k s (.slot e.slot :: xs) s (.task l e :: xs)
  /-- R139: the entry of a posted task taken -/
  | post (s : State) (xs : List InHand) (l : Option LegId) (e : Entry) (ha : e.awaited = false)
      (hkind : e.kind ≠ .eyeScan) (hused : ∀ m, l = some m → s.used m = true)
      (hready : k.carry → s.device ≠ .initializing) : Move k s xs s (.task l e :: xs)
  /-- R136: FILLED written to an EMPTY slot -/
  | fill (s : State) (xs : List InHand) (n : SlotId) (hempty : (s.slot n).state = .empty)
      (hreset : s.device ≠ .exchangeResetting) (hready : k.carry → s.device ≠ .initializing) :
      Move k s xs ({ s with handOver := s.handOver ++ [n] }.modSlot n (fun c => { c with state := .filled })) xs
  /-- R141: a FILLED slot retracted -/
  | retract (s : State) (xs : List InHand) (n : SlotId) (h : (s.slot n).state = .filled) :
      Move k s xs ((s.leaveList n).modSlot n (fun c => { c with state := .empty })) xs
  /-- R136: a DONE slot released -/
  | release (s : State) (xs : List InHand) (n : SlotId) (h : (s.slot n).state = .done) :
      Move k s xs (s.modSlot n (fun c => { c with state := .empty })) xs
  /-- R156: cancel-asked set -/
  | askCancel (s : State) (xs : List InHand) (n : SlotId) :
      Move k s xs (s.modSlot n (fun c => { c with cancelAsked := true })) xs
  /-- R143: a block cleared in the course of an exchange reset -/
  | clearBlock (s : State) (xs : List InHand) (b : Nat) (hd : s.device = .exchangeResetting)
      (hb : 0x400 ≤ b * 64 ∧ b * 64 < 0x2000) : Move k s xs (s.clearBlock b) xs
  /-- R171 -/
  | powerUp (s : State) (pins : StrapPins) (lowpwr held : Bool) (lineDetect switchDetect : BitVec 8) :
      Move k s [] (s.powerUp pins lowpwr held lineDetect switchDetect) []
  /-- R173: assertion of RESET_L -/
  | holdReset (s : State) : Move k s [] s.holdReset []
  /-- R173: release of RESET_L -/
  | releaseReset (s : State) (pins : StrapPins) : Move k s [] (s.releaseReset pins) []
  /-- R171: INITIALIZING ends -/
  | ready (s : State) (h : s.device = .initializing) : Move k s [] s.becomeReady []
  /-- R142 -/
  | startExchangeReset (s : State) : Move k s [] s.startExchangeReset []
  /-- R143 -/
  | completeExchangeReset (s : State) (h : s.device = .exchangeResetting) : Move k s [] s.completeExchangeReset []
  /-- 1 µs passes -/
  | tick (s : State) : Move k s [] s.tick []

/-- Any number of moves. -/
inductive Moves (k : Known) : State → List InHand → State → List InHand → Prop where
  | refl (s : State) (xs : List InHand) : Moves k s xs s xs
  | tail {s t u : State} {xs ys zs : List InHand} (h : Moves k s xs t ys) (m : Move k t ys u zs) : Moves k s xs u zs

section
variable {k : Known} {s t u : State} {xs ys zs : List InHand}

theorem Move.moves (m : Move k s xs t ys) : Moves k s xs t ys := .tail (.refl s xs) m

theorem Moves.trans (h : Moves k s xs t ys) (h' : Moves k t ys u zs) : Moves k s xs u zs := by
  induction h' with
  | refl => exact h
  | tail _ m ih => exact .tail (ih h) m

/-- What every move keeps, any number of them keeps. -/
theorem Moves.keeps {P : State → List InHand → Prop} (hP : ∀ {s xs t ys}, Move k s xs t ys → P s xs → P t ys)
    (h : Moves k s xs t ys) (hs : P s xs) : P t ys := by
  induction h with
  | refl => exact hs
  | tail _ m ih => exact hP m (ih hs)

end

end Sys2Proof.Machine
end

section
/-! The slots (R137, R139, R155): every move keeps the hand-over order list at the FILLED slots, and the slot of every
task taken and not finished TAKEN and in one place, where a task in hand is one of the places. -/

namespace Sys2Proof.Machine

variable {k : Known} {s t : State} {xs ys : List InHand} {l : LegId} {n : SlotId}

/-! ### The places of a slot -/

/-- The slots of the awaited tasks among entries. -/
def awaitedSlots (q : List Entry) : List SlotId := (q.filter (fun e => e.awaited)).map (fun e => e.slot)

/-- The slots that a leg engine holds. -/
def LegEngine.held (g : LegEngine) : List SlotId := awaitedSlots g.queue ++ g.inFlight.toList

/-- The slot that a page's scan reports to. -/
def PageState.scanSlot : PageState → List SlotId
  | .busy slot _ => [slot]
  | _ => []

/-- The slot of an awaited task in hand. -/
def InHand.held : InHand → List SlotId
  | .task _ e => awaitedSlots [e]
  | .slot n => [n]
  | .fall => []

/-- In how many places a slot stands, the tasks in hand included. -/
def State.held (s : State) (xs : List InHand) (n : SlotId) : Nat :=
  (∑ l, (s.engine l).held.count n) + (awaitedSlots s.deviceQueue).count n + s.powerWait.count n +
    (∑ p, (s.page p).state.scanSlot.count n) + (xs.flatMap InHand.held).count n

theorem State.held_nil (s : State) (n : SlotId) : s.held [] n = s.heldSlots.count n := by
  have hlegs (f : LegId → List SlotId) : (allLegs.flatMap f).count n = ∑ l, (f l).count n := by
    simp [allLegs, Fin.sum_univ_four, List.count_append, Nat.add_assoc]
  have hpages (f : PageId → List SlotId) : (allPages.flatMap f).count n = ∑ p, (f p).count n := by
    simp [allPages, Fin.sum_univ_four, List.count_append, Nat.add_assoc]
  simp only [State.held, State.heldSlots, List.count_append, hlegs, hpages]
  have hstate : ∀ p, (s.page p).state.scanSlot.count n = (match (s.page p).state with
      | .busy slot _ => [slot]
      | _ => []).count n := fun p => by cases (s.page p).state <;> rfl
  simp only [LegEngine.held, awaitedSlots, List.count_append, hstate, List.flatMap_nil, List.count_nil, Nat.add_zero]
    <;> rfl

/-- A sum of which one summand changes. -/
theorem sum_change {m : Nat} (i : Fin m) (f g : Fin m → Nat) (h : ∀ j, j ≠ i → g j = f j) :
    (∑ j, g j) + f i = (∑ j, f j) + g i := by
  have hrest : ∑ j ∈ Finset.univ.erase i, g j = ∑ j ∈ Finset.univ.erase i, f j :=
    Finset.sum_congr rfl (fun j hj => h j (Finset.ne_of_mem_erase hj))
  rw [← Finset.add_sum_erase _ g (Finset.mem_univ i), ← Finset.add_sum_erase _ f (Finset.mem_univ i), hrest]
  omega

/-- The places after a change of one engine. -/
theorem State.held_modEngine (s : State) (l : LegId) (f : LegEngine → LegEngine) (xs : List InHand) (n : SlotId) :
    (s.modEngine l f).held xs n + (s.engine l).held.count n = s.held xs n + (f (s.engine l)).held.count n := by
  have h : (∑ j : LegId, ((s.modEngine l f).engine j).held.count n) + (s.engine l).held.count n =
      (∑ j : LegId, (s.engine j).held.count n) + ((s.modEngine l f).engine l).held.count n :=
    sum_change l (fun j => (s.engine j).held.count n) (fun j => ((s.modEngine l f).engine j).held.count n)
      (fun j hj => by simp only [State.engine_modEngine, if_neg hj])
  rw [State.engine_modEngine s l l, if_pos rfl] at h
  simp only [State.held, State.modEngine_deviceQueue, State.modEngine_powerWait, State.page_modEngine]
  omega

/-- The places after a change of one page. -/
theorem State.held_modPage (s : State) (p : PageId) (f : Page → Page) (xs : List InHand) (n : SlotId) :
    (s.modPage p f).held xs n + (s.page p).state.scanSlot.count n =
      s.held xs n + (f (s.page p)).state.scanSlot.count n := by
  have h : (∑ j : PageId, ((s.modPage p f).page j).state.scanSlot.count n) + (s.page p).state.scanSlot.count n =
      (∑ j : PageId, (s.page j).state.scanSlot.count n) + ((s.modPage p f).page p).state.scanSlot.count n :=
    sum_change p (fun j => (s.page j).state.scanSlot.count n)
      (fun j => ((s.modPage p f).page j).state.scanSlot.count n)
      (fun j hj => by simp only [State.page_modPage, if_neg hj])
  rw [State.page_modPage s p p, if_pos rfl] at h
  simp only [State.held, State.modPage_deviceQueue, State.modPage_powerWait, State.engine_modPage]
  omega

/-- What is in hand counts as a place. -/
theorem State.held_hand (s : State) (hs xs : List InHand) (n : SlotId) :
    s.held (hs ++ xs) n = s.held xs n + (hs.flatMap InHand.held).count n := by
  simp only [State.held, List.flatMap_append, List.count_append]
  omega

theorem State.held_cons (s : State) (h : InHand) (xs : List InHand) (n : SlotId) :
    s.held (h :: xs) n = s.held xs n + h.held.count n := by
  simpa using s.held_hand [h] xs n

theorem awaitedSlots_perm {q q' : List Entry} (h : q.Perm q') : (awaitedSlots q).Perm (awaitedSlots q') :=
  (h.filter _).map _

theorem awaitedSlots_append (q q' : List Entry) : awaitedSlots (q ++ q') = awaitedSlots q ++ awaitedSlots q' := by
  simp [awaitedSlots]

theorem awaitedSlots_cons (e : Entry) (q : List Entry) : awaitedSlots (e :: q) = awaitedSlots [e] ++ awaitedSlots q :=
  awaitedSlots_append [e] q

/-- The tasks of entries in hand. -/
theorem flatMap_task (l : Option LegId) (es : List Entry) :
    (es.map (InHand.task l)).flatMap InHand.held = awaitedSlots es := by
  induction es with
  | nil => rfl
  | cons e es ih => rw [List.map_cons, List.flatMap_cons, ih, awaitedSlots_cons]; rfl

theorem awaitedSlots_singleton {e : Entry} (h : e.awaited = true) : awaitedSlots [e] = [e.slot] := by
  simp [awaitedSlots, h]

theorem awaitedSlots_posted {e : Entry} (h : e.awaited = false) : awaitedSlots [e] = [] := by
  simp [awaitedSlots, h]

/-- A deferral moves no entry and changes no slot. -/
theorem awaitedSlots_of_undeferred {q q' : List Entry} (h : q.map Entry.undeferred = q'.map Entry.undeferred) :
    awaitedSlots q = awaitedSlots q' := by
  have hmap (es : List Entry) : awaitedSlots (es.map Entry.undeferred) = awaitedSlots es := by
    simp only [awaitedSlots, List.filter_map, List.map_map]
    rfl
  rw [← hmap q, h, hmap]

/-! ### The invariant with tasks in hand -/

/-- R138: no EYE_SCAN is posted. -/
def Entry.ScanAwaited (e : Entry) : Prop := e.kind = .eyeScan → e.awaited = true

/-- `State.SlotsAccounted`, the tasks in hand included. -/
structure State.Accounted (s : State) (xs : List InHand) : Prop where
  list : s.ListIsFilled
  once (n : SlotId) : s.held xs n ≤ 1
  taken (n : SlotId) : 0 < s.held xs n → (s.slot n).state = .taken
  scans (l : LegId) : ∀ e ∈ (s.engine l).queue, e.ScanAwaited
  scansInHand (l : LegId) (e : Entry) : .task (some l) e ∈ xs → e.ScanAwaited
  resetting : s.device = .exchangeResetting → s.handOver = [] ∧ ∀ n, s.held xs n = 0

theorem State.accounted_nil : s.Accounted [] ↔ s.SlotsAccounted := by
  have hcount (n : SlotId) : 0 < s.heldSlots.count n ↔ n ∈ s.heldSlots := List.count_pos_iff
  constructor
  · rintro ⟨hlist, honce, htaken, hscans, -, hreset⟩
    simp only [State.held_nil, hcount] at honce htaken hreset
    exact ⟨hlist, List.nodup_iff_count_le_one.mpr honce, htaken, hscans,
      fun hd => (hreset hd).imp_right fun h => List.eq_nil_iff_forall_not_mem.mpr fun n =>
        List.count_eq_zero.mp (h n)⟩
  · rintro ⟨hlist, honce, htaken, hscans, hreset⟩
    refine ⟨hlist, fun n => ?_, fun n => ?_, hscans, nofun, fun hd => (hreset hd).imp_right fun h n => ?_⟩
    · rw [State.held_nil]; exact List.nodup_iff_count_le_one.mp honce n
    · rw [State.held_nil, hcount]; exact htaken n
    · rw [State.held_nil, h]; rfl

/-- A move that changes no slot and not the list, and puts no slot into one more place, keeps the invariant. -/
theorem State.Accounted.of_held_le (h : s.Accounted xs) (hslots : t.slots = s.slots) (hlist : t.handOver = s.handOver)
    (hdevice : t.device = s.device) (hheld : ∀ n, t.held ys n ≤ s.held xs n)
    (hscans : ∀ l, ∀ e ∈ (t.engine l).queue, e.ScanAwaited) (hhand : ∀ l e, .task (some l) e ∈ ys → e.ScanAwaited) :
    t.Accounted ys := by
  have hslot (m : SlotId) : t.slot m = s.slot m := by rw [State.slot, hslots]; rfl
  refine ⟨?_, fun m => (hheld m).trans (h.once m), fun m hm => ?_, hscans, hhand, fun hd => ?_⟩
  · have hl := h.list
    simpa only [State.ListIsFilled, hlist, hslot] using hl
  · rw [hslot]; exact h.taken m (hm.trans_le (hheld m))
  · rw [hdevice] at hd
    rw [hlist]
    exact (h.resetting hd).imp_right fun h0 m => Nat.le_zero.mp ((hheld m).trans (h0 m).le)

/-- A move that changes no queue, no page, no slot and not the list, and takes nothing in hand. -/
theorem State.Accounted.of_same (h : s.Accounted xs) (hslots : t.slots = s.slots) (hlist : t.handOver = s.handOver)
    (hdevice : t.device = s.device) (hengines : t.engines = s.engines) (hqueue : t.deviceQueue = s.deviceQueue)
    (hwait : t.powerWait = s.powerWait) (hpages : t.pages = s.pages) : t.Accounted xs := by
  have hengine (m : LegId) : t.engine m = s.engine m := by rw [State.engine, hengines]; rfl
  have hpage (p : PageId) : t.page p = s.page p := by rw [State.page, hpages]; rfl
  refine h.of_held_le hslots hlist hdevice (fun m => ?_) (fun m => ?_) h.scansInHand
  · simp only [State.held, hengine, hpage, hqueue, hwait, le_refl]
  · rw [hengine]; exact h.scans m

/-- The slot of a task that stands nowhere else can change as it will, short of FILLED and the list. -/
theorem State.Accounted.modSlot (h : s.Accounted xs) {f : Slot → Slot} (hfree : s.held xs n = 0)
    (hfilled : (s.slot n).state ≠ .filled) (hf : (f (s.slot n)).state ≠ .filled) : (s.modSlot n f).Accounted xs := by
  obtain ⟨hnodup, hlist⟩ := h.list
  refine ⟨⟨hnodup, fun m => ?_⟩, h.once, fun m hm => ?_, h.scans, h.scansInHand, h.resetting⟩
  · rw [State.slot_modSlot]
    split
    case isTrue hmn => rw [hmn]; simpa [hfilled, hf] using hlist n
    case isFalse => exact hlist m
  · rw [State.slot_modSlot]
    split
    case isTrue hmn => exact absurd (hmn ▸ hm : 0 < s.held xs n) (by simp [hfree])
    case isFalse => exact h.taken m hm

/-- A task in hand set down. -/
theorem State.Accounted.scansInHand_tail {h : InHand} (ha : s.Accounted (h :: xs)) (l : LegId) (e : Entry)
    (he : .task (some l) e ∈ xs) : e.ScanAwaited :=
  ha.scansInHand l e (List.mem_cons_of_mem h he)

/-- The queues of the other legs after a change of one. -/
theorem scanAwaited_setQueue {q : List Entry} (h : ∀ l, ∀ e ∈ (s.engine l).queue, e.ScanAwaited)
    (hq : ∀ e ∈ q, e.ScanAwaited) (m : LegId) : ∀ e ∈ ((s.setQueue l q).engine m).queue, e.ScanAwaited := by
  rw [State.engine_setQueue]
  split
  · exact hq
  · exact h m

theorem State.held_setQueue (s : State) (l : LegId) (q : List Entry) (xs : List InHand) (n : SlotId) :
    (s.setQueue l q).held xs n + (awaitedSlots (s.engine l).queue).count n =
      s.held xs n + (awaitedSlots q).count n := by
  have h := s.held_modEngine l (fun g => { g with queue := q }) xs n
  simp only [LegEngine.held, List.count_append] at h
  simp only [State.setQueue]
  omega

/-- A slot that is not TAKEN is no task's. -/
theorem State.Accounted.held_of_ne_taken (h : s.Accounted xs) (hn : (s.slot n).state ≠ .taken) : s.held xs n = 0 := by
  by_contra hne
  exact hn (h.taken n (Nat.pos_of_ne_zero hne))

/-- R139: a slot in the list is no task's yet. -/
theorem State.Accounted.held_of_filled (h : s.Accounted xs) (hn : (s.slot n).state = .filled) : s.held xs n = 0 :=
  h.held_of_ne_taken (by rw [hn]; nofun)

/-- R137: a slot leaves the list and is no longer FILLED. -/
theorem State.Accounted.leave (h : s.Accounted xs) (hn : (s.slot n).state = .filled) {f : Slot → Slot}
    (hf : (f (s.slot n)).state ≠ .filled) : ((s.leaveList n).modSlot n f).Accounted xs := by
  obtain ⟨hnodup, hlist⟩ := h.list
  refine ⟨⟨hnodup.filter _, fun m => ?_⟩, h.once, fun m hm => ?_, h.scans, h.scansInHand, fun hd => ?_⟩
  · rw [State.slot_modSlot]
    show m ∈ s.handOver.filter _ ↔ _
    rw [List.mem_filter, decide_eq_true_eq]
    split
    case isTrue hmn => simpa [hmn] using (show (f ((s.leaveList n).slot n)).state ≠ .filled from hf)
    case isFalse hmn => rw [hlist m]; simp only [hmn, not_false_eq_true, ne_eq, and_true]; rfl
  · rw [State.slot_modSlot]
    split
    case isTrue hmn => exact absurd (hmn ▸ hm : 0 < s.held xs n) (by simp [h.held_of_filled hn])
    case isFalse => exact h.taken m hm
  · obtain ⟨hempty, hheld⟩ := h.resetting hd
    refine ⟨?_, hheld⟩
    show s.handOver.filter _ = []
    rw [hempty]; rfl

/-- The places after a change of the device queue. -/
theorem State.held_deviceQueue (s : State) (q : List Entry) (xs : List InHand) (n : SlotId) :
    State.held { s with deviceQueue := q } xs n + (awaitedSlots s.deviceQueue).count n =
      s.held xs n + (awaitedSlots q).count n := by
  show (∑ l, (s.engine l).held.count n) + _ + s.powerWait.count n + (∑ p, (s.page p).state.scanSlot.count n) + _ + _ = _
  simp only [State.held]
  omega

/-- The places after a change of the power wait list. -/
theorem State.held_powerWait (s : State) (ns : List SlotId) (xs : List InHand) (n : SlotId) :
    State.held { s with powerWait := ns } xs n + s.powerWait.count n = s.held xs n + ns.count n := by
  show (∑ l, (s.engine l).held.count n) + (awaitedSlots s.deviceQueue).count n + ns.count n +
    (∑ p, (s.page p).state.scanSlot.count n) + _ + _ = _
  simp only [State.held]
  omega

/-- The places after a page opened for a scan, or freed. -/
theorem State.held_openPage (s : State) (p : PageId) (c : Page) (xs : List InHand) (n : SlotId) :
    (s.openPage p c).held xs n + (s.page p).state.scanSlot.count n = s.held xs n + c.state.scanSlot.count n :=
  State.held_modPage { s with mem := s.mem.clear (pageBase p + 0x200) 0x200 } p (fun _ => c) xs n

/-- The places after a cell. -/
theorem State.held_writeCell (s : State) (p : PageId) (count : Byte) (st : PageState) (o : ScanOutcome)
    (xs : List InHand) (n : SlotId) :
    (s.writeCell p count st o).held xs n + (s.page p).state.scanSlot.count n =
      s.held xs n + st.scanSlot.count n :=
  State.held_modPage { s with mem := s.mem.write (pageBase p + 0x200 + (s.page p).cellsDone) count } p _ xs n

/-! ### The resets -/

/-- A state in which nothing waits and no slot is FILLED. -/
theorem State.accounted_of_nothing (hlist : s.handOver = []) (hslots : ∀ n, (s.slot n).state ≠ .filled)
    (hengines : ∀ l, s.engine l = LegEngine.reset) (hdevice : s.deviceQueue = []) (hwait : s.powerWait = [])
    (hpages : ∀ p, (s.page p).state.scanSlot = []) : s.Accounted [] := by
  have hheld (n : SlotId) : s.held [] n = 0 := by
    simp [State.held, hengines, hdevice, hwait, hpages, LegEngine.held, LegEngine.reset, awaitedSlots]
  refine ⟨⟨by simp [hlist], fun n => by simp [hlist, hslots]⟩, fun n => by simp [hheld], fun n hn => ?_,
    fun l e he => ?_, nofun, fun _ => ⟨hlist, hheld⟩⟩
  · simp [hheld] at hn
  · simp [hengines, LegEngine.reset] at he

@[simp] theorem replicate_getElem_fin {α : Type} {m : Nat} (a : α) (i : Fin m) : (Vector.replicate m a)[i] = a := by
  simp

theorem State.accounted_startUp (s : State) (pins : StrapPins) (cause : ResetCause) :
    (s.startUp pins cause).Accounted [] := by
  have hslot (n : SlotId) : (s.startUp pins cause).slot n = Slot.reset := replicate_getElem_fin _ n
  have hpage (p : PageId) : (s.startUp pins cause).page p = Page.reset := replicate_getElem_fin _ p
  exact State.accounted_of_nothing rfl (fun n => by rw [hslot]; nofun) (fun l => replicate_getElem_fin _ l) rfl rfl
    (fun p => by rw [hpage]; rfl)

theorem State.slot_startExchangeReset (s : State) (n : SlotId) :
    (s.startExchangeReset.slot n) = (s.slot n).vacate := mapVector_getElem _ _ _ n.isLt

theorem State.page_startExchangeReset (s : State) (p : PageId) :
    (s.startExchangeReset.page p) = (s.page p).vacate := mapVector_getElem _ _ _ p.isLt

theorem State.accounted_startExchangeReset (s : State) : s.startExchangeReset.Accounted [] :=
  State.accounted_of_nothing rfl (fun n => by rw [State.slot_startExchangeReset]; nofun)
    (fun l => replicate_getElem_fin _ l) rfl rfl (fun p => by rw [State.page_startExchangeReset]; rfl)

/-- While an exchange reset is in progress no slot is TAKEN for a task and none is FILLED: its bytes can be cleared. -/
theorem State.Accounted.clearBlock (h : s.Accounted xs) (hd : s.device = .exchangeResetting) (b : Nat) :
    (s.clearBlock b).Accounted xs := by
  obtain ⟨hlist, hheld⟩ := h.resetting hd
  have hmem (m : Memory) : State.Accounted { s with mem := m } xs := h.of_same rfl rfl rfl rfl rfl rfl rfl
  have hfilled (n : SlotId) : (s.slot n).state ≠ .filled := fun hn => by
    have := (h.list.2 n).mpr hn
    simp [hlist] at this
  unfold State.clearBlock
  dsimp only
  split
  · exact (hmem _).modSlot (hheld _) (hfilled _) nofun
  · split
    · refine State.Accounted.of_held_le (h := hmem (s.mem.clear (b * 64) 0x400)) rfl rfl rfl (fun n => ?_) h.scans
        h.scansInHand
      have hp := State.held_modPage { s with mem := s.mem.clear (b * 64) 0x400 }
        (Fin.ofNat 4 ((b * 64 - 0x1000) / 0x400)) (fun _ => Page.reset) xs n
      have h0 : (Page.reset.state.scanSlot).count n = 0 := rfl
      rw [h0] at hp
      exact le_trans (Nat.le_add_right _ _) hp.le
    · exact hmem _

theorem LegEngine.held_tick (g : LegEngine) : g.tick.held = g.held := by
  simp only [LegEngine.held, LegEngine.tick, awaitedSlots, List.filter_map, List.map_map]
  rfl

theorem Page.held_tick (c : Page) : c.tick.state.scanSlot = c.state.scanSlot := by
  unfold Page.tick
  cases hc : c.state <;> simp [PageState.scanSlot, hc]

/-- Time passes: clocks run, and no task moves. -/
theorem State.Accounted.tick (h : s.Accounted []) : s.tick.Accounted [] := by
  unfold State.tick
  split
  · exact h
  · refine h.of_held_le rfl rfl rfl (fun n => ?_) (fun l e he => ?_) nofun
    · simp only [State.held, State.engine, State.page, Fin.getElem_fin, mapVector_getElem, LegEngine.held_tick,
        Page.held_tick, le_refl]
    · simp only [State.engine, Fin.getElem_fin, mapVector_getElem, LegEngine.tick, List.mem_map] at he
      obtain ⟨g, hg, rfl⟩ := he
      exact h.scans l g hg

theorem Page.held_stopScan (c : Page) : c.stopScan.state.scanSlot = [] := by
  unfold Page.stopScan
  split
  · rfl
  · next hc => cases hs : c.state with
    | busy n left => exact absurd hs (hc n left)
    | free | held => rfl

/-- RESET_L stops the scans and moves no task. -/
theorem State.Accounted.holdReset (h : s.Accounted []) : s.holdReset.Accounted [] := by
  refine h.of_held_le rfl rfl rfl (fun n => ?_) h.scans nofun
  have hpage (p : PageId) : (s.holdReset.page p).state.scanSlot.count n = 0 := by
    have : s.holdReset.page p = (s.page p).stopScan := mapVector_getElem _ _ _ p.isLt
    rw [this, Page.held_stopScan, List.count_nil]
  simp only [State.held, hpage, Finset.sum_const_zero]
  have hengine (l : LegId) : s.holdReset.engine l = s.engine l := rfl
  simp only [hengine]
  show _ + (awaitedSlots s.deviceQueue).count n + s.powerWait.count n + 0 + _ ≤ _
  omega

end Sys2Proof.Machine
end

section
/-! Every move keeps the account of the slots. -/

namespace Sys2Proof.Machine

variable {k : Known} {s t u : State} {xs ys : List InHand} {l : LegId} {n : SlotId}

theorem State.SameButLanes.trans (h : s.SameButLanes t) (h' : t.SameButLanes u) : s.SameButLanes u := by
  obtain ⟨_, _, _, rfl⟩ := h
  obtain ⟨_, _, _, rfl⟩ := h'
  exact ⟨_, _, _, rfl⟩

/-- R80: the switch lanes that a new map moves: nothing changes but lane sides. -/
theorem State.moveSwitchLanes_sameButLanes (old s : State) (sws : List LaneId) :
    s.SameButLanes (sws.foldl (fun t sw => State.moveSwitchLane old t sw) s) := by
  induction sws generalizing s with
  | nil => exact .refl s
  | cons sw sws ih =>
    refine State.SameButLanes.trans ?_ (ih _)
    unfold State.moveSwitchLane
    dsimp only
    split
    · exact .refl s
    · exact ⟨_, _, _, rfl⟩

/-- R21: with the new map, nothing changes but the map and lane sides. -/
theorem State.remap_sameButLanes (s : State) (map : Vector MapEntry 8) :
    s.SameButLanes (allLanes.foldl (fun t sw => State.moveSwitchLane s t sw) { s with map := map }) :=
  .trans ⟨_, _, _, rfl⟩ (State.moveSwitchLanes_sameButLanes s _ allLanes)

/-- R168: a fault reported changes the attention unit and the fault log alone. -/
theorem State.reportFault_eq_update (s : State) (r : FaultRecord) :
    ∃ summary latchedLine faultRecord laterFaults, s.reportFault r =
      { s with summary := summary, latchedLine := latchedLine, faultRecord := faultRecord
               laterFaults := laterFaults } := by
  unfold State.reportFault
  split
  · exact ⟨_, _, _, _, rfl⟩
  · exact ⟨_, _, _, _, rfl⟩

theorem State.Accounted.of_sameButLanes (h : s.Accounted xs) (hs : s.SameButLanes t) : t.Accounted xs := by
  obtain ⟨_, _, _, rfl⟩ := hs
  exact h.of_same rfl rfl rfl rfl rfl rfl rfl

/-- An element that leaves a list leaves one place at least. -/
theorem count_filter_ne {α : Type} [DecidableEq α] {ns : List α} {n : α} (hn : n ∈ ns) (m : α) :
    (ns.filter (fun m => m ≠ n)).count m + [n].count m ≤ ns.count m := by
  by_cases h : m = n
  · subst h
    have h0 : (ns.filter (fun j => j ≠ m)).count m = 0 := List.count_eq_zero.mpr (by simp)
    have h1 := List.count_pos_iff.mpr hn
    simp only [List.count_singleton_self]
    omega
  · have h0 : [n].count m = 0 := List.count_eq_zero.mpr (by simpa using h)
    rw [h0]
    exact List.filter_sublist.count_le m

/-- What is put in hand is no task of a leg queue. -/
theorem taskInHand_cons_ne {x : InHand} (hx : ∀ l e, x ≠ .task (some l) e)
    (h : ∀ l e, .task (some l) e ∈ xs → e.ScanAwaited) (l : LegId) (e : Entry) (he : .task (some l) e ∈ x :: xs) :
    e.ScanAwaited :=
  h l e ((List.mem_cons.mp he).resolve_left fun heq => hx l e heq.symm)

/-- A slot in hand stands nowhere else, and is TAKEN. -/
theorem State.Accounted.slot_inHand (h : s.Accounted (.slot n :: xs)) :
    s.held xs n = 0 ∧ (s.slot n).state = .taken := by
  have h1 : s.held (.slot n :: xs) n = s.held xs n + 1 := by rw [State.held_cons]; simp [InHand.held]
  have := h.once n
  exact ⟨by omega, h.taken n (by omega)⟩

theorem State.Accounted.tail {x : InHand} (h : s.Accounted (x :: xs)) : s.Accounted xs :=
  h.of_held_le rfl rfl rfl (fun m => by rw [State.held_cons]; omega) h.scans h.scansInHand_tail

/-- An awaited task in hand, its slot alone in hand, or the other way round. -/
theorem State.held_task_cons {e : Entry} (ha : e.awaited = true) (lo : Option LegId) (m : SlotId) :
    s.held (.task lo e :: xs) m = s.held (.slot e.slot :: xs) m := by
  rw [State.held_cons, State.held_cons]
  simp [InHand.held, awaitedSlots_singleton ha]

theorem held_task_awaited {e : Entry} (ha : e.awaited = true) (lo : Option LegId) :
    (InHand.task lo e).held = [e.slot] := awaitedSlots_singleton ha

theorem Move.accounted (hk : k.slots) (m : Move k s xs t ys) (h : s.Accounted xs) : t.Accounted ys := by
  cases m with
  | free | lane | everyLane | leg | intent | power | raise | lower | releaseFaults | writeEnable | writeOpen | store =>
    exact h.of_same rfl rfl rfl rfl rfl rfl rfl
  | setup _ l v =>
    exact (h.of_sameButLanes (State.adjustRate_sameButLanes s l v.rate)).of_same rfl rfl rfl rfl rfl rfl rfl
  | function => exact h.of_same rfl rfl rfl rfl rfl rfl rfl
  | remap _ map => exact h.of_sameButLanes (State.remap_sameButLanes s map)
  | reportFault _ r =>
    obtain ⟨_, _, _, _, hr⟩ := s.reportFault_eq_update r
    rw [hr]
    exact h.of_same rfl rfl rfl rfl rfl rfl rfl
  | fall =>
    exact h.of_held_le rfl rfl rfl (fun m => by rw [State.held_cons]; rfl) h.scans 
      (taskInHand_cons_ne nofun h.scansInHand)
  | fallen => exact h.tail
  | drop => exact h.tail
  | deferQueue _ l q hq =>
    refine h.of_held_le rfl rfl rfl (fun m => ?_) (scanAwaited_setQueue h.scans fun e he => ?_) h.scansInHand
    · have := s.held_setQueue l q xs m
      rw [awaitedSlots_of_undeferred hq] at this
      omega
    · obtain ⟨g, hg, heq⟩ := List.mem_map.mp (hq ▸ List.mem_map_of_mem (f := Entry.undeferred) he)
      have hscan := h.scans l g hg
      simp only [Entry.undeferred, Entry.mk.injEq] at heq
      simpa only [Entry.ScanAwaited, heq.1, heq.2.1] using hscan
  | leaveQueue _ l q es hq =>
    refine h.of_held_le rfl rfl rfl (fun m => ?_) (scanAwaited_setQueue h.scans fun e he => ?_)
      (fun lo g hg => ?_)
    · have hset := s.held_setQueue l q xs m
      rw [(awaitedSlots_perm hq).count_eq, awaitedSlots_append, List.count_append] at hset
      rw [State.held_hand, flatMap_task]
      omega
    · exact h.scans l e (hq.mem_iff.mpr (List.mem_append_right es he))
    · rcases List.mem_append.mp hg with hg | hg
      · obtain ⟨g', hg', heq⟩ := List.mem_map.mp hg
        cases heq
        exact h.scans l g (hq.mem_iff.mpr (List.mem_append_left q hg'))
      · exact h.scansInHand lo g hg
  | joinQueue xs l e hroom =>
    refine h.of_held_le rfl rfl rfl (fun m => ?_) (scanAwaited_setQueue h.scans fun g hg => ?_) h.scansInHand_tail
    · have hset := s.held_setQueue l ((s.engine l).queue ++ [e]) ys m
      rw [awaitedSlots_append, List.count_append] at hset
      rw [State.held_cons]
      show _ ≤ _ + (awaitedSlots [e]).count m
      omega
    · rcases List.mem_append.mp hg with hg | hg
      · exact h.scans l g hg
      · exact h.scansInHand l g (by simp [List.mem_singleton.mp hg])
  | leaveDevice _ e q hq =>
    refine h.of_held_le rfl rfl rfl (fun m => ?_) h.scans (taskInHand_cons_ne nofun h.scansInHand)
    have hparts := s.held_deviceQueue q xs m
    rw [hq, awaitedSlots_cons e q, List.count_append] at hparts
    rw [State.held_cons]
    show _ + (awaitedSlots [e]).count m ≤ _
    omega
  | joinDevice _ e hroom =>
    refine h.of_held_le rfl rfl rfl (fun m => ?_) h.scans h.scansInHand_tail
    have hparts := s.held_deviceQueue (s.deviceQueue ++ [e]) ys m
    rw [awaitedSlots_append, List.count_append] at hparts
    rw [State.held_cons]
    show _ ≤ _ + (awaitedSlots [e]).count m
    omega
  | launch _ l e ha =>
    refine h.of_held_le rfl rfl rfl (fun m => ?_) (fun j g hg => ?_) h.scansInHand_tail
    · have hparts := s.held_modEngine l (fun g => { g with inFlight := some e.slot }) ys m
      simp only [LegEngine.held, List.count_append, Option.toList_some] at hparts
      rw [State.held_cons, held_task_awaited ha]
      omega
    · rw [State.engine_modEngine] at hg
      split at hg
      case isTrue hj => exact h.scans l g hg
      case isFalse => exact h.scans j g hg
  | land _ l n hn =>
    refine h.of_held_le rfl rfl rfl (fun m => ?_) (fun j g hg => ?_) (taskInHand_cons_ne nofun h.scansInHand)
    · have hparts := s.held_modEngine l (fun g => { g with inFlight := none }) xs m
      simp only [LegEngine.held, List.count_append, hn, Option.toList_some, Option.toList_none, List.count_nil] at hparts
      rw [State.held_cons]
      show _ + [n].count m ≤ _
      omega
    · rw [State.engine_modEngine] at hg
      split at hg
      case isTrue hj => exact h.scans l g hg
      case isFalse => exact h.scans j g hg
  | wait _ e ha =>
    refine h.of_held_le rfl rfl rfl (fun m => ?_) h.scans h.scansInHand_tail
    have hparts := s.held_powerWait (s.powerWait ++ [e.slot]) ys m
    rw [List.count_append] at hparts
    rw [State.held_cons, held_task_awaited ha]
    omega
  | endWait =>
    refine h.of_held_le rfl rfl rfl (fun m => ?_) h.scans fun lo g hg => ?_
    · have hparts := s.held_powerWait [] xs m
      have hslots : (s.powerWait.map InHand.slot).flatMap InHand.held = s.powerWait := by
        rw [List.flatMap_map]; exact List.flatMap_singleton' _
      rw [List.count_nil] at hparts
      rw [State.held_hand, hslots]
      omega
    · refine h.scansInHand lo g ((List.mem_append.mp hg).resolve_left fun hm => ?_)
      obtain ⟨_, -, heq⟩ := List.mem_map.mp hm
      cases heq
  | leaveWait _ n hn =>
    refine h.of_held_le rfl rfl rfl (fun m => ?_) h.scans (taskInHand_cons_ne nofun h.scansInHand)
    have hparts := s.held_powerWait (s.powerWait.filter (fun m => m ≠ n)) xs m
    have hcount := count_filter_ne hn m
    rw [State.held_cons]
    show _ + [n].count m ≤ _
    omega
  | openPage _ l e p c left hkind hfree hc =>
    refine h.of_held_le rfl rfl rfl (fun m => ?_) h.scans h.scansInHand_tail
    have hparts := s.held_openPage p c ys m
    rw [State.held_cons, held_task_awaited (h.scansInHand l e (by simp) hkind)]
    simp only [hfree, hc, PageState.scanSlot, List.count_nil] at hparts
    omega
  | closePage _ p n left o hp =>
    refine h.of_held_le rfl rfl rfl (fun m => ?_) h.scans (taskInHand_cons_ne nofun h.scansInHand)
    have hparts := s.held_modPage p (fun c => { c with state := .held, outcome := o }) xs m
    rw [State.held_cons]
    simp only [hp, PageState.scanSlot, List.count_nil] at hparts
    show _ + [n].count m ≤ _
    omega
  | cell _ p n left left' count hp =>
    refine h.of_held_le rfl rfl rfl (fun m => ?_) h.scans h.scansInHand
    have hparts := s.held_writeCell p count (.busy n left') (s.page p).outcome xs m
    simp only [hp, PageState.scanSlot] at hparts
    omega
  | lastCell _ p n left count o hp =>
    refine h.of_held_le rfl rfl rfl (fun m => ?_) h.scans (taskInHand_cons_ne nofun h.scansInHand)
    have hparts := s.held_writeCell p count .held o xs m
    rw [State.held_cons]
    simp only [hp, PageState.scanSlot, List.count_nil] at hparts
    show _ + [n].count m ≤ _
    omega
  | freePage _ p hp =>
    refine h.of_held_le rfl rfl rfl (fun m => ?_) h.scans h.scansInHand
    have hparts := s.held_openPage p Page.reset xs m
    have h0 : Page.reset.state.scanSlot.count m = 0 := rfl
    omega
  | finish xs n result st =>
    obtain ⟨hfree, htaken⟩ := h.slot_inHand
    have hm := State.Accounted.modSlot (n := n) (f := fun c => { c with state := .done, status := st }) h.tail hfree
      (by rw [htaken]; nofun) nofun
    exact hm.of_same rfl rfl rfl rfl rfl rfl rfl
  | toSlot xs lo e ha =>
    exact h.of_held_le rfl rfl rfl (fun m => (State.held_task_cons ha lo m).ge) h.scans
      (taskInHand_cons_ne nofun h.scansInHand_tail)
  | take _ n awaited hlist hready =>
    have hn : (s.slot n).state = .filled := (h.list.2 n).mp (hlist hk)
    cases awaited with
    | false => exact h.leave (f := fun c => { c with state := .empty }) hn nofun
    | true =>
      have hleft := h.leave (f := fun _ => ⟨.taken, .inProgress, false⟩) hn nofun
      have hfree : s.held xs n = 0 := h.held_of_filled hn
      have hheld (m : SlotId) : (s.takeSlot n true).held (.slot n :: xs) m = s.held xs m + [n].count m :=
        State.held_cons _ _ _ m
      have hslot (m : SlotId) : (s.takeSlot n true).slot m = if m = n then ⟨.taken, .inProgress, false⟩ else s.slot m := by
        show (State.modSlot { s.leaveList n with mem := _ } n (fun _ => ⟨.taken, .inProgress, false⟩)).slot m = _
        rw [State.slot_modSlot]
        rfl
      refine ⟨hleft.list, fun m => ?_, fun m hm => ?_, hleft.scans, taskInHand_cons_ne nofun hleft.scansInHand,
        fun hd => ?_⟩
      · have hone := h.once m
        show (s.takeSlot n true).held (.slot n :: xs) m ≤ 1
        rw [hheld]
        by_cases hmn : m = n
        · subst hmn; simp [hfree]
        · simpa [List.count_singleton, Ne.symm hmn] using hone
      · replace hm : 0 < (s.takeSlot n true).held (.slot n :: xs) m := hm
        show ((s.takeSlot n true).slot m).state = .taken
        rw [hslot]
        split
        case isTrue => rfl
        case isFalse hmn =>
          rw [hheld] at hm
          exact h.taken m (by simpa [List.count_singleton, Ne.symm hmn] using hm)
      · have hempty := (h.resetting hd).1
        rw [hempty] at hlist
        exact absurd (hlist hk) List.not_mem_nil
  | adopt xs lo e ha =>
    refine h.of_held_le rfl rfl rfl (fun m => (State.held_task_cons ha lo m).le) h.scans fun l g hg => ?_
    rcases List.mem_cons.mp hg with hg | hg
    · cases hg; exact fun _ => ha
    · exact h.scansInHand_tail l g hg
  | post _ lo e ha hkind =>
    refine h.of_held_le rfl rfl rfl (fun m => ?_) h.scans fun l g hg => ?_
    · rw [State.held_cons]; simp [InHand.held, awaitedSlots_posted ha]
    · rcases List.mem_cons.mp hg with hg | hg
      · cases hg; exact fun he => absurd he hkind
      · exact h.scansInHand l g hg
  | fill _ n hempty hreset =>
    have hfree : s.held xs n = 0 := h.held_of_ne_taken (by rw [hempty]; nofun)
    obtain ⟨hnodup, hlist⟩ := h.list
    have hnot : n ∉ s.handOver := fun hn => absurd (hempty.symm.trans ((hlist n).mp hn)) nofun
    refine ⟨⟨List.nodup_append.mpr ⟨hnodup, List.nodup_singleton n, fun a ha b hb => ?_⟩, fun m => ?_⟩, h.once,
      fun m hm => ?_, h.scans, h.scansInHand, fun hd => absurd hd hreset⟩
    · rintro rfl; exact hnot (List.mem_singleton.mp hb ▸ ha)
    · rw [State.slot_modSlot]
      show m ∈ s.handOver ++ [n] ↔ _
      rw [List.mem_append, List.mem_singleton, hlist m]
      split
      case isTrue hmn => simp [hmn]
      case isFalse hmn => simp only [hmn, or_false]; rfl
    · rw [State.slot_modSlot]
      split
      case isTrue hmn => exact absurd (hmn ▸ hm : 0 < s.held xs n) (by simp [hfree])
      case isFalse => exact h.taken m hm
  | retract _ n hn => exact h.leave hn nofun
  | release _ n hn =>
    exact h.modSlot (h.held_of_ne_taken (by rw [hn]; nofun)) (by rw [hn]; nofun) nofun
  | askCancel _ n =>
    have hstate (m : SlotId) :
        ((s.modSlot n (fun c => { c with cancelAsked := true })).slot m).state = (s.slot m).state := by
      rw [State.slot_modSlot]
      split
      case isTrue hmn => rw [hmn]
      case isFalse => rfl
    exact ⟨⟨h.list.1, fun m => by rw [hstate]; exact h.list.2 m⟩, h.once, fun m hm => (hstate m).trans (h.taken m hm),
      h.scans, h.scansInHand, h.resetting⟩
  | clearBlock _ b hd => exact h.clearBlock hd b
  | powerUp pins lowpwr held lineDetect switchDetect =>
    unfold State.powerUp
    dsimp only
    split <;> exact (State.accounted_startUp s pins .powerOn).of_same rfl rfl rfl rfl rfl rfl rfl
  | holdReset => exact h.holdReset
  | releaseReset pins => exact (State.accounted_startUp s pins s.releaseCause).of_same rfl rfl rfl rfl rfl rfl rfl
  | ready hd => exact ⟨h.list, h.once, h.taken, h.scans, h.scansInHand, nofun⟩
  | startExchangeReset => exact s.accounted_startExchangeReset
  | completeExchangeReset hd =>
    obtain ⟨hlist, hheld⟩ := h.resetting hd
    have hslot (m : SlotId) : s.completeExchangeReset.slot m = Slot.reset := replicate_getElem_fin _ m
    have hle (m : SlotId) : s.completeExchangeReset.held [] m ≤ s.held [] m := by
      have hpage (p : PageId) : s.completeExchangeReset.page p = Page.reset := replicate_getElem_fin _ p
      simp only [State.held, hpage]
      show (∑ l, (s.engine l).held.count m) + (awaitedSlots s.deviceQueue).count m + s.powerWait.count m +
        ∑ p : PageId, 0 + _ ≤ _
      rw [Finset.sum_const_zero]
      omega
    have hzero (m : SlotId) : s.completeExchangeReset.held [] m = 0 := Nat.le_zero.mp (hheld m ▸ hle m)
    refine ⟨⟨h.list.1, fun m => ?_⟩, fun m => by simp [hzero], fun m hm => by simp [hzero] at hm, h.scans, nofun, nofun⟩
    show m ∈ s.handOver ↔ _
    rw [hslot, hlist]
    simp [Slot.reset]
  | tick => exact h.tick

end Sys2Proof.Machine
end

section
/-! The rules of the legs (R3, R12, R29): every move keeps every leg PARKED without ACTIVE power, an unused leg PARKED
with intent 0 and no task, and every leg outside PARKED or with intent 1 with its member lanes in CARRY. -/

namespace Sys2Proof.Machine

variable {k : Known} {s t : State} {xs ys : List InHand} {l : LegId}

/-- R172: what INITIALIZING finds: every function CARRY, no task anywhere and no write transaction. -/
def State.StartsClean (s : State) (xs : List InHand) : Prop :=
  s.device = .initializing →
    (∀ i : LaneId, (s.entry i).function = .carry) ∧ s.NoWork ∧ s.writeOpen = none ∧ ∀ lo e, .task lo e ∉ xs

/-- The three rules of the legs, the tasks in hand included; the first is suspended while the power falls. -/
structure State.LegRules (s : State) (xs : List InHand) : Prop where
  power : .fall ∉ xs → s.ParkedWithoutPower
  unused : s.UnusedParked
  usedInHand (l : LegId) (e : Entry) : .task (some l) e ∈ xs → s.used l = true
  carry (l : LegId) : (s.leg l).state ≠ .parked ∨ (s.leg l).intent = true → s.allCarry l = true
  start : s.StartsClean xs

theorem State.legRules_nil :
    s.LegRules [] ↔ s.ParkedWithoutPower ∧ s.UnusedParked ∧ s.CarryOutsideParked := by
  constructor
  · rintro ⟨hpower, hunused, -, hcarry, hstart⟩
    exact ⟨hpower List.not_mem_nil, hunused, hcarry, fun hd =>
      have ⟨hfunction, hwork, hwrite, _⟩ := hstart hd
      ⟨hfunction, hwork, hwrite⟩⟩
  · rintro ⟨hpower, hunused, hcarry, hstart⟩
    exact ⟨fun _ => hpower, hunused, nofun, hcarry, fun hd =>
      have ⟨hfunction, hwork, hwrite⟩ := hstart hd
      ⟨hfunction, hwork, hwrite, nofun⟩⟩

theorem State.allCarry_congr (hstraps : t.straps = s.straps)
    (hmap : ∀ i, (t.entry i).function = (s.entry i).function) (l : LegId) : t.allCarry l = s.allCarry l := by
  simp only [State.allCarry, State.members, hstraps, hmap]

theorem State.used_congr (hstraps : t.straps = s.straps) (l : LegId) : t.used l = s.used l := by
  simp only [State.used, State.members, hstraps]

/-- With every function CARRY every leg has its member lanes in CARRY. -/
theorem State.allCarry_of_functions (h : ∀ i : LaneId, (s.entry i).function = .carry) (l : LegId) :
    s.allCarry l = true := by
  simp [State.allCarry, h]

/-- What in hand matters to the rules of the legs: the tasks, and a fall of the power. -/
def HandWithin (xs ys : List InHand) : Prop :=
  (∀ lo e, .task lo e ∈ ys → .task lo e ∈ xs) ∧ (.fall ∈ xs → .fall ∈ ys)

theorem HandWithin.refl (xs : List InHand) : HandWithin xs xs := ⟨fun _ _ => id, id⟩

theorem handWithin_slot (n : SlotId) (xs : List InHand) : HandWithin xs (.slot n :: xs) :=
  ⟨fun _ _ h => (List.mem_cons.mp h).resolve_left nofun, List.mem_cons_of_mem _⟩

theorem handWithin_task (lo : Option LegId) (e : Entry) (xs : List InHand) : HandWithin (.task lo e :: xs) xs :=
  ⟨fun _ _ => List.mem_cons_of_mem _, fun h => (List.mem_cons.mp h).resolve_left nofun⟩

theorem handWithin_slot_of_task (n : SlotId) (lo : Option LegId) (e : Entry) (xs : List InHand) :
    HandWithin (.task lo e :: xs) (.slot n :: xs) :=
  ⟨fun _ _ h => List.mem_cons_of_mem _ ((List.mem_cons.mp h).resolve_left nofun), fun h =>
    List.mem_cons_of_mem _ ((List.mem_cons.mp h).resolve_left nofun)⟩

/-- A move that touches no leg, no lane function and not the power, and adds no task anywhere. -/
theorem State.LegRules.of_same (h : s.LegRules xs) (hstraps : t.straps = s.straps) (heffective : t.effective = s.effective)
    (hdevice : t.device = .initializing → s.device = .initializing)
    (hmap : ∀ i, (t.entry i).function = (s.entry i).function) (hlegs : t.legs = s.legs)
    (hqueues : ∀ l, (s.engine l).queue = [] → (t.engine l).queue = [])
    (hqueue : s.deviceQueue = [] → t.deviceQueue = []) (hlist : s.device = .initializing → s.handOver = [] → t.handOver = [])
    (hwrite : s.device = .initializing → s.writeOpen = none → t.writeOpen = none) (hhand : HandWithin xs ys) :
    t.LegRules ys := by
  have hleg (l : LegId) : t.leg l = s.leg l := by rw [State.leg, hlegs]; rfl
  refine ⟨fun hf he l => ?_, fun l hu => ?_, fun l e he => ?_, fun l hl => ?_, fun hd => ?_⟩
  · rw [hleg]; exact h.power (mt hhand.2 hf) (heffective ▸ he) l
  · rw [State.used_congr hstraps] at hu
    rw [hleg]
    obtain ⟨hp, hi, hq⟩ := h.unused l hu
    exact ⟨hp, hi, hqueues l hq⟩
  · rw [State.used_congr hstraps]; exact h.usedInHand l e (hhand.1 _ _ he)
  · rw [State.allCarry_congr hstraps hmap]; rw [hleg] at hl; exact h.carry l hl
  · obtain ⟨hfunction, ⟨hw1, hw2, hw3⟩, hwr, htasks⟩ := h.start (hdevice hd)
    exact ⟨fun i => (hmap i).trans (hfunction i), ⟨hlist (hdevice hd) hw1, fun l => hqueues l (hw2 l), hqueue hw3⟩,
      hwrite (hdevice hd) hwr, fun lo e he => htasks lo e (hhand.1 _ _ he)⟩

/-- A move that touches no register named in the rules of the legs. -/
theorem State.LegRules.of_untouched (h : s.LegRules xs) (hstraps : t.straps = s.straps)
    (heffective : t.effective = s.effective) (hdevice : t.device = s.device) (hmap : t.map = s.map)
    (hlegs : t.legs = s.legs) (hengines : t.engines = s.engines) (hqueue : t.deviceQueue = s.deviceQueue)
    (hlist : t.handOver = s.handOver) (hwrite : t.writeOpen = s.writeOpen) (hhand : HandWithin xs ys) :
    t.LegRules ys := by
  have hentry (i : LaneId) : t.entry i = s.entry i := by rw [State.entry, hmap]; rfl
  have hengine (l : LegId) : t.engine l = s.engine l := by rw [State.engine, hengines]; rfl
  exact h.of_same hstraps heffective (fun hd => hdevice ▸ hd) (fun i => by rw [hentry]) hlegs
    (fun l hq => by rw [hengine, hq]) (fun hq => by rw [hqueue, hq]) (fun _ hl => by rw [hlist, hl])
    (fun _ hw => by rw [hwrite, hw]) hhand

/-- A change of one leg that keeps its rules. -/
theorem State.LegRules.modLeg (h : s.LegRules xs) {f : Leg → Leg}
    (hpower : .fall ∉ xs → s.effective ≠ .active → (f (s.leg l)).state = .parked)
    (hunused : s.used l = false → (f (s.leg l)).state = .parked ∧ (f (s.leg l)).intent = false)
    (hcarry : (f (s.leg l)).state ≠ .parked ∨ (f (s.leg l)).intent = true → s.allCarry l = true) :
    (s.modLeg l f).LegRules xs := by
  refine ⟨fun hf he j => ?_, fun j hu => ?_, h.usedInHand, fun j hj => ?_, h.start⟩
  · rw [State.leg_modLeg]
    split
    case isTrue => exact hpower hf he
    case isFalse => exact h.power hf he j
  · obtain ⟨hp, hi, hq⟩ := h.unused j hu
    rw [State.leg_modLeg]
    split
    case isTrue hjl => subst hjl; exact ⟨(hunused hu).1, (hunused hu).2, hq⟩
    case isFalse => exact ⟨hp, hi, hq⟩
  · rw [State.leg_modLeg] at hj
    split at hj
    case isTrue hjl => subst hjl; exact hcarry hj
    case isFalse => exact h.carry j hj

theorem State.adjustRate_straps (s : State) (l : LegId) (rate : RateClass) :
    (s.adjustRate l rate).straps = s.straps :=
  State.straps_of_fixed (State.adjustRate_fixed s l rate)

/-- R157: new setup values change no rule of the legs. -/
theorem State.LegRules.setup (h : s.LegRules xs) (v : Setup) :
    ((s.adjustRate l v.rate).modLeg l (fun g => { g with setup := v })).LegRules xs := by
  have hadjust : (s.adjustRate l v.rate).LegRules xs := by
    unfold State.adjustRate
    split
    · exact h
    · obtain ⟨map, _, _, hs⟩ := State.modLanes_sameButLanes s (s.allMemberSides l)
        (fun w => { w with taps := w.taps.forRate v.rate })
      have hmap : s.map = map := (State.modLanes_map s _ _).symm.trans (congrArg State.map hs)
      rw [hs, ← hmap]
      exact h.of_same rfl rfl id (fun _ => rfl) rfl (fun _ => id) id (fun _ => id) (fun _ => id) (.refl xs)
  refine hadjust.modLeg (fun hf he => hadjust.power hf he l) (fun hu => ?_) (fun hl => hadjust.carry l hl)
  obtain ⟨hp, hi, -⟩ := hadjust.unused l hu
  exact ⟨hp, hi⟩

/-- A state in which every leg is PARKED with intent 0, no task waits and every function is CARRY. -/
theorem State.legRules_of_nothing (hlegs : ∀ l, (s.leg l).state = .parked ∧ (s.leg l).intent = false)
    (hengines : ∀ l, (s.engine l).queue = []) (hqueue : s.deviceQueue = []) (hlist : s.handOver = [])
    (hmap : ∀ i, (s.entry i).function = .carry) (hwrite : s.writeOpen = none) : s.LegRules [] := by
  refine ⟨fun _ _ l => (hlegs l).1, fun l _ => ⟨(hlegs l).1, (hlegs l).2, hengines l⟩, nofun, fun l _ => ?_,
    fun _ => ⟨hmap, ⟨hlist, hengines, hqueue⟩, hwrite, nofun⟩⟩
  exact State.allCarry_of_functions hmap l

theorem resetMap_function : ∀ i : LaneId, resetMap[i].function = .carry := by decide

theorem State.legRules_startUp (s : State) (pins : StrapPins) (cause : ResetCause) :
    (s.startUp pins cause).LegRules [] := by
  have hleg (l : LegId) : (s.startUp pins cause).leg l = Leg.reset (strapRate pins.rate) := replicate_getElem_fin _ l
  have hengine (l : LegId) : (s.startUp pins cause).engine l = LegEngine.reset := replicate_getElem_fin _ l
  exact State.legRules_of_nothing (fun l => by rw [hleg]; exact ⟨rfl, rfl⟩) (fun l => by rw [hengine]; rfl) rfl rfl
    resetMap_function rfl

/-- R21: the functions of a new map, its sources applied. -/
theorem State.entry_moveSwitchLanes (old s : State) (sws : List LaneId) (i : LaneId) :
    (sws.foldl (fun t sw => State.moveSwitchLane old t sw) s).entry i = s.entry i := by
  induction sws generalizing s with
  | nil => rfl
  | cons sw sws ih =>
    rw [List.foldl_cons, ih]
    unfold State.moveSwitchLane
    dsimp only
    split <;> rfl

/-- Time changes no leg's state or intent and moves no task. -/
theorem State.LegRules.tick (h : s.LegRules []) : s.tick.LegRules [] := by
  unfold State.tick
  split
  case isTrue => exact h
  case isFalse =>
    obtain ⟨hpower, hunused, -, hcarry, hstart⟩ := h
    have hleg (l : LegId) : (mapVector Leg.tick s.legs)[l] = (s.leg l).tick := mapVector_getElem _ _ _ l.isLt
    have hqueue (l : LegId) (hq : (s.engine l).queue = []) : ((mapVector LegEngine.tick s.engines)[l]).queue = [] := by
      have : (mapVector LegEngine.tick s.engines)[l] = (s.engine l).tick := mapVector_getElem _ _ _ l.isLt
      rw [this, LegEngine.tick, hq]
      rfl
    refine ⟨fun hf he l => ?_, fun l hu => ?_, nofun, fun l hl => ?_, fun hd => ?_⟩
    · show ((mapVector Leg.tick s.legs)[l]).state = _
      rw [hleg]
      exact hpower hf he l
    · obtain ⟨hp, hi, hq⟩ := hunused l hu
      show ((mapVector Leg.tick s.legs)[l]).state = _ ∧ ((mapVector Leg.tick s.legs)[l]).intent = _ ∧
        ((mapVector LegEngine.tick s.engines)[l]).queue = []
      rw [hleg]
      exact ⟨hp, hi, hqueue l hq⟩
    · change ((mapVector Leg.tick s.legs)[l]).state ≠ _ ∨ ((mapVector Leg.tick s.legs)[l]).intent = _ at hl
      rw [hleg] at hl
      exact hcarry l hl
    · obtain ⟨hfunction, ⟨hw1, hw2, hw3⟩, hwr, htasks⟩ := hstart hd
      exact ⟨hfunction, ⟨hw1, fun l => hqueue l (hw2 l), hw3⟩, hwr, htasks⟩

theorem Move.legRules (hk : k.carry) (m : Move k s xs t ys) (h : s.LegRules xs) : t.LegRules ys := by
  cases m with
  | free | lane | everyLane | raise | lower | releaseFaults | writeEnable | store | release | askCancel | cell |
      freePage =>
    exact h.of_untouched rfl rfl rfl rfl rfl rfl rfl rfl rfl (.refl xs)
  | leg _ l f hrate hintent hstate =>
    refine h.modLeg (fun hf he => ?_) (fun hu => ?_) (fun hl => ?_)
    · exact hstate.resolve_right fun hout => hout.elim (absurd (h.power hf he l)) fun hi => he hi.2
    · obtain ⟨hp, hi, -⟩ := h.unused l hu
      exact ⟨hstate.resolve_right fun hout => hout.elim (absurd hp) fun hi' => by simp [hi] at hi',
        Bool.eq_false_iff.mpr fun hi' => by simp [hintent hi'] at hi⟩
    · refine h.carry l (hl.elim (fun hne => ?_) fun hi => .inr (hintent hi))
      exact (hstate.resolve_left hne).imp id And.left
  | intent _ l hcarry hused =>
    have hu : s.used l = true := hused.elim id fun ⟨e, he⟩ => h.usedInHand l e he
    exact h.modLeg (fun hf he => h.power hf he l) (fun hu' => by simp [hu] at hu') fun _ => hcarry hk
  | setup _ l v => exact h.setup v
  | function _ l i f hmember htask hparked hintent =>
    obtain ⟨e, he⟩ := htask
    refine ⟨h.power, h.unused, h.usedInHand, fun j hj => ?_, fun hd => absurd he ((h.start hd).2.2.2 _ e)⟩
    have hold := h.carry j hj
    rw [State.allCarry, List.all_eq_true] at hold ⊢
    intro m hm
    rw [decide_eq_true_eq]
    by_cases hmi : m = i
    case neg =>
      have : State.entry { s with map := s.map.set i { s.entry i with function := f } } m = s.entry m := by
        simp [State.entry, Fin.val_inj, Ne.symm hmi]
      rw [this]
      simpa using hold m hm
    case pos =>
      subst hmi
      have hjl : j = l := by
        rw [← hmember]
        exact (State.mem_members.mp hm).symm
      subst hjl
      have hf : f = .carry := hintent.resolve_right fun hi => by
        have hj' : (s.leg j).state ≠ .parked ∨ (s.leg j).intent = true := hj
        simp [hparked, hi] at hj'
      simp [State.entry, hf]
  | remap _ map hsource hfunction =>
    obtain ⟨_, _, _, hs⟩ := s.remap_sameButLanes map
    have hentry (i : LaneId) := State.entry_moveSwitchLanes s { s with map := map } allLanes i
    rw [hs] at hentry ⊢
    exact h.of_same rfl rfl id (fun i => (congrArg _ (hentry i)).trans (hfunction i)) rfl (fun _ => id) id (fun _ => id)
      (fun _ => id) (.refl xs)
  | power _ p hp =>
    refine ⟨fun hf he => ?_, h.unused, h.usedInHand, h.carry, h.start⟩
    exact h.power hf (hp.resolve_left he)
  | fall =>
    exact ⟨fun hf => absurd (List.mem_cons_self ..) hf, h.unused,
      fun l e he => h.usedInHand l e ((List.mem_cons.mp he).resolve_left nofun), h.carry, fun hd =>
        have ⟨hfunction, hwork, hwrite, htasks⟩ := h.start hd
        ⟨hfunction, hwork, hwrite, fun lo e he => htasks lo e ((List.mem_cons.mp he).resolve_left nofun)⟩⟩
  | fallen _ hp =>
    exact ⟨fun _ _ => hp, h.unused, fun l e he => h.usedInHand l e (List.mem_cons_of_mem _ he), h.carry, fun hd =>
        have ⟨hfunction, hwork, hwrite, htasks⟩ := h.start hd
        ⟨hfunction, hwork, hwrite, fun lo e he => htasks lo e (List.mem_cons_of_mem _ he)⟩⟩
  | reportFault _ r =>
    obtain ⟨_, _, _, _, hr⟩ := s.reportFault_eq_update r
    rw [hr]
    exact h.of_untouched rfl rfl rfl rfl rfl rfl rfl rfl rfl (.refl xs)
  | writeOpen _ w hw =>
    refine h.of_same rfl rfl id (fun _ => rfl) rfl (fun _ => id) id (fun _ => id) (fun hd hnone => ?_) (.refl xs)
    exact hw.elim id fun hw => absurd hnone (hw.resolve_right fun hne => hne hd)
  | deferQueue _ l q hq =>
    refine h.of_same rfl rfl id (fun _ => rfl) rfl (fun j hj => ?_) id (fun _ => id) (fun _ => id) (.refl xs)
    rw [State.engine_setQueue]
    split
    case isTrue hjl => subst hjl; rw [hj] at hq; exact List.map_eq_nil_iff.mp hq
    case isFalse => exact hj
  | leaveQueue _ l q es hq =>
    have hqueue (j : LegId) (hj : (s.engine j).queue = []) : ((s.setQueue l q).engine j).queue = [] := by
      rw [State.engine_setQueue]
      split
      case isTrue hjl =>
        subst hjl
        rw [hj] at hq
        exact (List.append_eq_nil_iff.mp (List.nil_perm.mp hq)).2
      case isFalse => exact hj
    have hempty (hj : (s.engine l).queue = []) : es = [] := by
      rw [hj] at hq
      exact (List.append_eq_nil_iff.mp (List.nil_perm.mp hq)).1
    have htask (lo : Option LegId) (e : Entry) (he : .task lo e ∈ es.map (InHand.task (some l)) ++ xs) :
        .task lo e ∈ xs ∨ (lo = some l ∧ es ≠ []) := by
      refine (List.mem_append.mp he).symm.imp id fun hm => ?_
      obtain ⟨e', he', heq⟩ := List.mem_map.mp hm
      cases heq
      exact ⟨rfl, List.ne_nil_of_mem he'⟩
    refine ⟨fun hf => h.power fun hf' => hf (List.mem_append_right _ hf'), fun j hu => ?_, fun j e he => ?_, h.carry,
      fun hd => ?_⟩
    · obtain ⟨hp, hi, hj⟩ := h.unused j hu
      exact ⟨hp, hi, hqueue j hj⟩
    · rcases htask _ e he with he | ⟨hjl, hne⟩
      · exact h.usedInHand j e he
      · cases hjl
        exact Bool.of_not_eq_false fun hu => hne (hempty (h.unused l hu).2.2)
    · obtain ⟨hfunction, ⟨hw1, hw2, hw3⟩, hwr, htasks⟩ := h.start hd
      exact ⟨hfunction, ⟨hw1, fun j => hqueue j (hw2 j), hw3⟩, hwr, fun lo e he =>
        (htask lo e he).elim (htasks lo e) fun hne => hne.2 (hempty (hw2 l))⟩
  | joinQueue _ l e hroom =>
    have hu : s.used l = true := h.usedInHand l e (List.mem_cons_self ..)
    refine ⟨fun hf => h.power (mt (List.mem_cons.mp · |>.resolve_left nofun) hf), fun j hj => ?_,
      fun j g hg => h.usedInHand j g (List.mem_cons_of_mem _ hg), h.carry,
      fun hd => absurd (List.mem_cons_self ..) ((h.start hd).2.2.2 (some l) e)⟩
    obtain ⟨hp, hi, hq⟩ := h.unused j hj
    refine ⟨hp, hi, ?_⟩
    rw [State.engine_setQueue, if_neg]
    · exact hq
    · rintro rfl
      exact absurd hu (Bool.eq_false_iff.mp hj)
  | leaveDevice _ e q hq =>
    refine ⟨fun hf => h.power fun hf' => hf (List.mem_cons_of_mem _ hf'), h.unused,
      fun l g hg => h.usedInHand l g ((List.mem_cons.mp hg).resolve_left nofun), h.carry, fun hd => ?_⟩
    have := (h.start hd).2.1.2.2
    rw [hq] at this
    cases this
  | joinDevice _ e hroom =>
    exact ⟨fun hf => h.power (mt (List.mem_cons.mp · |>.resolve_left nofun) hf), h.unused,
      fun l g hg => h.usedInHand l g (List.mem_cons_of_mem _ hg), h.carry,
      fun hd => absurd (List.mem_cons_self ..) ((h.start hd).2.2.2 none e)⟩
  | launch _ l e ha =>
    refine h.of_same rfl rfl id (fun _ => rfl) rfl (fun j hj => ?_) id (fun _ => id) (fun _ => id) (handWithin_task ..)
    rw [State.engine_modEngine]
    split
    case isTrue hjl => subst hjl; exact hj
    case isFalse => exact hj
  | land _ l n hn =>
    refine h.of_same rfl rfl id (fun _ => rfl) rfl (fun j hj => ?_) id (fun _ => id) (fun _ => id) (handWithin_slot ..)
    rw [State.engine_modEngine]
    split
    case isTrue hjl => subst hjl; exact hj
    case isFalse => exact hj
  | wait | openPage | drop => exact h.of_untouched rfl rfl rfl rfl rfl rfl rfl rfl rfl (handWithin_task ..)
  | endWait =>
    refine h.of_untouched rfl rfl rfl rfl rfl rfl rfl rfl rfl ⟨fun lo e he => ?_, List.mem_append_right _⟩
    exact (List.mem_append.mp he).resolve_left fun hm => by
      obtain ⟨_, -, heq⟩ := List.mem_map.mp hm
      cases heq
  | leaveWait | closePage | lastCell => exact h.of_untouched rfl rfl rfl rfl rfl rfl rfl rfl rfl (handWithin_slot ..)
  | finish =>
    exact h.of_untouched rfl rfl rfl rfl rfl rfl rfl rfl rfl ⟨fun _ _ => List.mem_cons_of_mem _, fun hf =>
      (List.mem_cons.mp hf).resolve_left nofun⟩
  | toSlot => exact h.of_untouched rfl rfl rfl rfl rfl rfl rfl rfl rfl (handWithin_slot_of_task ..)
  | take _ n awaited hlist hready =>
    have hand : HandWithin xs (if awaited then .slot n :: xs else xs) := by
      cases awaited
      · exact .refl xs
      · exact handWithin_slot n xs
    refine h.of_same ?_ ?_ ?_ ?_ ?_ ?_ ?_ (fun hd => absurd hd (hready hk)) (fun hd => absurd hd (hready hk)) hand <;>
      cases awaited <;> first | rfl | exact id | exact fun _ => rfl | exact fun _ => id
  | adopt _ lo e ha hused hready =>
    refine ⟨fun hf => h.power fun hf' => hf (List.mem_cons_of_mem _ ((List.mem_cons.mp hf').resolve_left nofun)), h.unused,
      fun l g hg => ?_, h.carry, fun hd => absurd hd (hready hk)⟩
    rcases List.mem_cons.mp hg with hg | hg
    · cases hg; exact hused l rfl
    · exact h.usedInHand l g (List.mem_cons_of_mem _ hg)
  | post _ lo e ha hkind hused hready =>
    refine ⟨fun hf => h.power fun hf' => hf (List.mem_cons_of_mem _ hf'), h.unused, fun l g hg => ?_, h.carry,
      fun hd => absurd hd (hready hk)⟩
    rcases List.mem_cons.mp hg with hg | hg
    · cases hg; exact hused l rfl
    · exact h.usedInHand l g hg
  | fill _ n hempty hreset hready =>
    exact h.of_same rfl rfl id (fun _ => rfl) rfl (fun _ => id) id (fun hd => absurd hd (hready hk)) (fun _ => id)
      (.refl xs)
  | retract =>
    refine h.of_same rfl rfl id (fun _ => rfl) rfl (fun _ => id) id (fun _ hl => ?_) (fun _ => id) (.refl xs)
    show s.handOver.filter _ = []
    rw [hl]; rfl
  | clearBlock _ b hd =>
    refine h.of_untouched ?_ ?_ ?_ ?_ ?_ ?_ ?_ ?_ ?_ (.refl xs) <;>
      (unfold State.clearBlock; dsimp only; split <;> [rfl; (split <;> rfl)])
  | powerUp pins lowpwr held lineDetect switchDetect =>
    unfold State.powerUp
    dsimp only
    split <;> exact (State.legRules_startUp { s with lowpwr := lowpwr } pins .powerOn).of_untouched rfl rfl rfl rfl rfl rfl
      rfl rfl rfl (.refl [])
  | holdReset => exact h.of_same rfl rfl id (fun _ => rfl) rfl (fun _ => id) id (fun _ => id) (fun _ _ => rfl) (.refl [])
  | releaseReset pins =>
    exact (State.legRules_startUp { s with resetHeld := false, initByPowerOn := false } pins s.releaseCause).of_untouched
      rfl rfl rfl rfl rfl rfl rfl rfl rfl (.refl [])
  | ready hd => exact ⟨h.power, h.unused, h.usedInHand, h.carry, nofun⟩
  | startExchangeReset =>
    exact h.of_same rfl rfl nofun (fun _ => rfl) rfl (fun l _ => congrArg LegEngine.queue (replicate_getElem_fin _ l))
      (fun _ => rfl) (fun _ _ => rfl) (fun _ => id) (.refl [])
  | completeExchangeReset hd =>
    exact h.of_same rfl rfl nofun (fun _ => rfl) rfl (fun _ => id) id (fun _ => id) (fun _ => id) (.refl [])
  | tick => exact h.tick

end Sys2Proof.Machine
end

section
/-! Every operation at a lane side or at a leg is made of moves. -/

namespace Sys2Proof.Machine

variable {k : Known} {s : State} {xs : List InHand} {l : LegId}

/-! ### Lane sides -/

theorem moves_modLane (s : State) (x : LaneSide) {f : LaneState → LaneState}
    (htaps : s.MapPermutes → ∀ v : LaneState, v.taps.valid (s.rateOf x) = true → (f v).taps.valid (s.rateOf x) = true)
    (hcounters : ∀ v : LaneState, v.counters.bounded = true → (f v).counters.bounded = true) :
    Moves k s xs (s.modLane x f) xs := (Move.lane s xs x f htaps hcounters).moves

/-- A change of a lane side that leaves its taps and its counters. -/
theorem moves_modLane_quiet (s : State) (x : LaneSide) {f : LaneState → LaneState}
    (hf : ∀ v : LaneState, (f v).taps = v.taps ∧ (f v).counters = v.counters) :
    Moves k s xs (s.modLane x f) xs :=
  moves_modLane s x (fun _ v hv => (hf v).1 ▸ hv) (fun v hv => (hf v).2 ▸ hv)

theorem moves_modLanes {f : LaneState → LaneState} (hcounters : ∀ v : LaneState, v.counters.bounded = true →
    (f v).counters.bounded = true) (ls : List LaneSide) (s : State)
    (htaps : ∀ x ∈ ls, s.MapPermutes → ∀ v : LaneState, v.taps.valid (s.rateOf x) = true →
      (f v).taps.valid (s.rateOf x) = true) : Moves k s xs (s.modLanes ls f) xs := by
  induction ls generalizing s with
  | nil => exact .refl s xs
  | cons x ls ih =>
    exact (moves_modLane s x (htaps x List.mem_cons_self) hcounters).trans
      (ih (s.modLane x f) (fun y hy => htaps y (List.mem_cons_of_mem x hy)))

theorem moves_modLanes_quiet (s : State) (ls : List LaneSide) {f : LaneState → LaneState}
    (hf : ∀ v : LaneState, (f v).taps = v.taps ∧ (f v).counters = v.counters) :
    Moves k s xs (s.modLanes ls f) xs :=
  moves_modLanes (fun v hv => (hf v).2 ▸ hv) ls s (fun _ _ _ v hv => (hf v).1 ▸ hv)

theorem moves_modTuner (s : State) (x : LaneSide) (f : Tuner → Tuner) : Moves k s xs (s.modTuner x f) xs :=
  moves_modLane_quiet s x fun _ => ⟨rfl, rfl⟩

theorem moves_modClimb (s : State) (x : LaneSide) (f : Climb → Climb) : Moves k s xs (s.modClimb x f) xs :=
  moves_modLane_quiet s x fun _ => ⟨rfl, rfl⟩

theorem moves_issue (s : State) (x : LaneSide) (r : RequestKind) : Moves k s xs (s.issue x r) xs := moves_modTuner s x _

theorem moves_startReading (s : State) (x : LaneSide) : Moves k s xs (s.startReading x) xs :=
  moves_modLane_quiet s x fun _ => ⟨rfl, rfl⟩

theorem countUp_le {most n : Nat} (h : n ≤ most) : countUp most n ≤ most := by
  unfold countUp
  split <;> omega

/-! ### Legs -/

@[simp] theorem Leg.setup_modSide (g : Leg) (d : Side) (f : LegSide → LegSide) : (g.modSide d f).setup = g.setup := by
  cases d <;> rfl

@[simp] theorem Leg.state_modSide (g : Leg) (d : Side) (f : LegSide → LegSide) : (g.modSide d f).state = g.state := by
  cases d <;> rfl

theorem State.MayBeOut.of_state (h : (s.leg l).state ≠ .parked) : s.MayBeOut l := .inl h

/-- A change of a leg that keeps its state. -/
theorem parked_or_mayBeOut {g : Leg} (h : g.state = (s.leg l).state) : g.state = .parked ∨ s.MayBeOut l := by
  by_cases hp : (s.leg l).state = .parked
  · exact .inl (h.trans hp)
  · exact .inr (.inl hp)

theorem moves_modLegSide (s : State) (l : LegId) (d : Side) (f : LegSide → LegSide) :
    Moves k s xs (s.modLegSide l d f) xs :=
  (Move.leg s xs l (fun g => g.modSide d f) (by simp) (fun h => by cases d <;> exact h)
    (parked_or_mayBeOut (Leg.state_modSide _ d f)) (fun h => by cases d <;> exact h)).moves

theorem State.state_modLegSide (s : State) (l : LegId) (d : Side) (f : LegSide → LegSide) (m : LegId) :
    ((s.modLegSide l d f).leg m).state = (s.leg m).state := by
  rw [State.leg_modLegSide]
  split
  · next h => rw [h, Leg.state_modSide]
  · rfl

theorem moves_legNotice (s : State) (l : LegId) : Moves k s xs (s.legNotice l) xs :=
  (Move.raise s xs (legBit l) (by revert l; decide) (by revert l; decide)).moves

/-! ### Faults and the ends of tasks -/

theorem moves_reportFault (s : State) (r : FaultRecord) : Moves k s xs (s.reportFault r) xs :=
  (Move.reportFault s xs r).moves

theorem moves_endPosted (s : State) (n : SlotId) (kind leg label0 label1 : Byte) (st : Status) :
    Moves k s xs (s.endPosted n kind leg label0 label1 st) xs := by
  unfold State.endPosted
  split
  · exact moves_reportFault s _
  · exact .refl s xs

theorem moves_endTask (s : State) (lo : Option LegId) (e : Entry) {result : List Byte} (st : Status)
    (h : result.length ≤ 0x80) : Moves k s (.task lo e :: xs) (s.endTask e result st) xs := by
  unfold State.endTask
  split
  · next ha => exact (Move.toSlot s xs lo e ha).moves.tail (Move.finish s xs e.slot result st h)
  · exact (Move.drop s xs lo e).moves.trans (moves_endPosted s e.slot e.kindByte e.leg e.label0 e.label1 st)

theorem moves_reportOutcome (s : State) (l : LegId) (st : Status) : Moves k s xs (s.reportOutcome l st) xs := by
  unfold State.reportOutcome
  split
  · exact .refl s xs
  · next n hn =>
    exact (Move.land s xs l n hn).moves.tail (Move.finish _ xs n _ st (by simp [Leg.bringUpResult]))

theorem moves_endScan (s : State) (p : PageId) (n : SlotId) (left : Nat) (o : ScanOutcome) (st : Status)
    (h : (s.page p).state = .busy n left) : Moves k s xs (s.endScan p n o st) xs := by
  have hclose := (Move.closePage (k := k) s xs p n left o h).moves
  have hidle := hclose.trans (moves_modLane_quiet _ (s.scanSide p) (f := fun v => { v with monitor := .idle })
    fun _ => ⟨rfl, rfl⟩)
  exact hidle.tail (Move.finish _ xs n _ st (by simp [bytes16]))

theorem moves_interruptScan (s : State) (l : LegId) (p : PageId) : Moves k s xs (s.interruptScan l p) xs := by
  unfold State.interruptScan
  split
  · next n left hp =>
    split
    · exact moves_endScan s p n left .interrupted .interrupted hp
    · exact .refl s xs
  · exact .refl s xs

/-- What each operation of a list does by moves, the list does. -/
theorem moves_foldl {α : Type} {f : State → α → State} (h : ∀ s a, Moves k s xs (f s a) xs) (as : List α) (s : State) :
    Moves k s xs (as.foldl f s) xs := by
  induction as generalizing s with
  | nil => exact .refl s xs
  | cons a as ih => exact (h s a).trans (ih (f s a))

theorem moves_interruptScans (s : State) (l : LegId) : Moves k s xs (s.interruptScans l) xs :=
  moves_foldl (fun s p => moves_interruptScan s l p) allPages s

/-! ### The climb -/

theorem moves_endClimb (s : State) (x : LaneSide) : Moves k s xs (s.endClimb x) xs := by
  have hlane := moves_modLane_quiet (k := k) (xs := xs) s x (f := fun v =>
    { v with climb := { v.climb with stage := .ended }, tuner := { v.tuner with content := true, phase := .holding } })
    fun _ => ⟨rfl, rfl⟩
  unfold State.endClimb
  dsimp only
  split
  · exact hlane.trans (moves_modLegSide _ _ x.side _)
  · exact hlane

theorem moves_trialCheck (s : State) (x : LaneSide) : Moves k s xs (s.trialCheck x) xs := by
  unfold State.trialCheck
  dsimp only
  split
  · exact (moves_issue s x _).trans (moves_modClimb _ x _)
  · exact moves_endClimb s x

theorem moves_passDecision (s : State) (x : LaneSide) : Moves k s xs (s.passDecision x) xs := by
  unfold State.passDecision
  dsimp only
  split
  · exact (moves_modClimb s x _).trans (moves_trialCheck _ x)
  · split
    · exact (moves_modClimb s x _).trans (moves_trialCheck _ x)
    · exact moves_endClimb s x

theorem moves_climbReply (s : State) (x : LaneSide) (o : ReplyOutcome) : Moves k s xs (s.climbReply x o) xs := by
  have hcounted := moves_modClimb (k := k) (xs := xs) s x (fun c =>
    { c with answered := c.answered + 1, frozenSeen := c.frozenSeen || o = .frozen })
  have hmeasured (stage : ClimbStage) := (hcounted.trans (moves_startReading _ x)).trans
    (moves_modClimb _ x (fun c => { c with stage := stage }))
  unfold State.climbReply
  dsimp only
  split
  · exact hmeasured .baseline
  · split
    · exact hmeasured .measuring
    · exact hmeasured .measuring
    · exact hcounted.trans (moves_endClimb _ x)
    · exact hcounted.trans (moves_passDecision _ x)
  · split
    · exact hcounted.trans (moves_endClimb _ x)
    · exact hcounted.trans (moves_passDecision _ x)
  · exact .refl s xs

theorem moves_climbReading (s : State) (x : LaneSide) (m : Nat) : Moves k s xs (s.climbReading x m) xs := by
  unfold State.climbReading
  dsimp only
  split
  · refine (moves_modClimb s x (fun c => { c with best := some m })).trans ?_
    split
    · exact moves_endClimb _ x
    · exact (moves_modClimb _ x _).trans (moves_trialCheck _ x)
  · split
    · exact (moves_modClimb s x _).trans (moves_trialCheck _ x)
    · exact (moves_issue s x _).trans (moves_modClimb _ x _)
  · exact .refl s xs

theorem moves_readingDone (s : State) (x : LaneSide) (m : Nat) : Moves k s xs (s.readingDone x m) xs :=
  (moves_modLane_quiet s x (f := fun v => { v with monitor := .idle }) fun _ => ⟨rfl, rfl⟩).trans
    (moves_climbReading _ x m)

/-! ### The state of a leg through the operations that keep it -/

@[simp] theorem State.state_modLanes (s : State) (ls : List LaneSide) (f : LaneState → LaneState) (m : LegId) :
    ((s.modLanes ls f).leg m).state = (s.leg m).state := by simp

@[simp] theorem State.state_abandonSide (s : State) (l : LegId) (d : Side) (m : LegId) :
    ((s.abandonSide l d).leg m).state = (s.leg m).state := by
  unfold State.abandonSide
  split
  · rw [State.state_modLegSide, State.state_modLanes]
  · rw [State.state_modLanes]

@[simp] theorem State.state_abandonSessions (s : State) (l m : LegId) :
    ((s.abandonSessions l).leg m).state = (s.leg m).state := by
  unfold State.abandonSessions
  split
  · rw [State.state_abandonSide, State.state_abandonSide]
  · rfl

@[simp] theorem State.leg_interruptScan (s : State) (l : LegId) (p : PageId) (m : LegId) :
    (s.interruptScan l p).leg m = s.leg m := by
  unfold State.interruptScan
  (repeat' split) <;> rfl

@[simp] theorem State.leg_leaveCarrying (s : State) (l m : LegId) : (s.leaveCarrying l).leg m = s.leg m := by
  unfold State.leaveCarrying
  split
  · exact foldl_keeps (fun t => t.leg m) _ (fun t p => State.leg_interruptScan t l p m) allPages (s.legNotice l)
  · rfl

theorem State.state_endClimb (s : State) (x : LaneSide) (m : LegId) :
    ((s.endClimb x).leg m).state = (s.leg m).state := by
  unfold State.endClimb
  dsimp only
  split
  · rw [State.state_modLegSide, State.leg_modLane]
  · rfl

theorem State.state_trialCheck (s : State) (x : LaneSide) (m : LegId) :
    ((s.trialCheck x).leg m).state = (s.leg m).state := by
  unfold State.trialCheck
  dsimp only
  split
  · rfl
  · exact State.state_endClimb s x m

theorem State.state_passDecision (s : State) (x : LaneSide) (m : LegId) :
    ((s.passDecision x).leg m).state = (s.leg m).state := by
  unfold State.passDecision
  dsimp only
  split
  · exact State.state_trialCheck _ x m
  · split
    · exact State.state_trialCheck _ x m
    · exact State.state_endClimb s x m

theorem State.state_climbReply (s : State) (x : LaneSide) (o : ReplyOutcome) (m : LegId) :
    ((s.climbReply x o).leg m).state = (s.leg m).state := by
  unfold State.climbReply
  dsimp only
  split
  · rfl
  · split
    · rfl
    · rfl
    · exact State.state_endClimb _ x m
    · exact State.state_passDecision _ x m
  · split
    · exact State.state_endClimb _ x m
    · exact State.state_passDecision _ x m
  · rfl

theorem State.state_takeReply (s : State) (x : LaneSide) (f : RxFrame) (m : LegId) :
    ((s.takeReply x f).leg m).state = (s.leg m).state := by
  unfold State.takeReply
  split
  · rfl
  · exact State.state_climbReply _ x _ m

end Sys2Proof.Machine
end

section
/-! Every operation of a leg controller, and of the tuning exchange on one lane side, is made of moves. -/

namespace Sys2Proof.Machine

variable {k : Known} {s : State} {xs : List InHand} {l : LegId}

/-! ### Leaving a state -/

theorem LaneState.abandon_quiet (v : LaneState) : v.abandon.taps = v.taps ∧ v.abandon.counters = v.counters := ⟨rfl, rfl⟩

theorem LaneState.rest_quiet (v : LaneState) : v.rest.taps = v.taps ∧ v.rest.counters = v.counters := ⟨rfl, rfl⟩

theorem LaneState.standBy_quiet (v : LaneState) : v.standBy.taps = v.taps ∧ v.standBy.counters = v.counters := ⟨rfl, rfl⟩

theorem LaneState.failSession_quiet (v : LaneState) :
    v.failSession.taps = v.taps ∧ v.failSession.counters = v.counters := by
  unfold LaneState.failSession
  split <;> exact ⟨rfl, rfl⟩

theorem moves_abandonSide (s : State) (l : LegId) (d : Side) : Moves k s xs (s.abandonSide l d) xs := by
  unfold State.abandonSide
  split
  · exact (moves_modLanes_quiet s _ LaneState.abandon_quiet).trans (moves_modLegSide _ l d _)
  · exact moves_modLanes_quiet s _ LaneState.rest_quiet

theorem moves_abandonSessions (s : State) (l : LegId) : Moves k s xs (s.abandonSessions l) xs := by
  unfold State.abandonSessions
  split
  · exact (moves_abandonSide s l .line).trans (moves_abandonSide _ l .switch)
  · exact .refl s xs

theorem moves_leaveCarrying (s : State) (l : LegId) : Moves k s xs (s.leaveCarrying l) xs := by
  unfold State.leaveCarrying
  split
  · exact (moves_legNotice s l).trans (moves_interruptScans _ l)
  · exact .refl s xs

/-- What every way out of TUNE and CARRYING begins with. -/
theorem moves_leave (s : State) (l : LegId) : Moves k s xs ((s.abandonSessions l).leaveCarrying l) xs :=
  (moves_abandonSessions s l).trans (moves_leaveCarrying _ l)

@[simp] theorem State.state_leave (s : State) (l m : LegId) :
    ((((s.abandonSessions l).leaveCarrying l)).leg m).state = (s.leg m).state := by
  rw [State.leg_leaveCarrying, State.state_abandonSessions]

theorem moves_parkLeg (s : State) (l : LegId) : Moves k s xs (s.parkLeg l) xs :=
  (moves_leave s l).tail (Move.leg _ xs l (fun g =>
    { g.modSides (fun d => { d with relay := d.relay.ended }) with lockTimer := none, state := .parked }) rfl id (.inl rfl)
    id)

/-- A change of a leg's items that keeps its state, its setup values and its counters, and gives it no intent. -/
theorem moves_modLeg_items (s : State) (l : LegId) {f : Leg → Leg}
    (hf : ∀ g, (f g).setup = g.setup ∧ (f g).state = g.state ∧ ((f g).intent = true → g.intent = true) ∧
      (g.CountersBounded → (f g).CountersBounded)) : Moves k s xs (s.modLeg l f) xs := by
  obtain ⟨hsetup, hstate, hintent, hcounters⟩ := hf (s.leg l)
  exact (Move.leg s xs l f (by rw [hsetup]) hintent (parked_or_mayBeOut hstate) hcounters).moves

theorem moves_giveUp (s : State) (l : LegId) : Moves k s xs (s.giveUp l) xs := by
  refine ((moves_parkLeg s l).trans ?_).trans ((moves_legNotice _ l).trans (moves_reportOutcome _ l .bringUpFailed))
  exact moves_modLeg_items _ l (f := fun g => { g with intent := false, givenUp := true })
    fun g => ⟨rfl, rfl, nofun, id⟩

/-! ### Entering a state -/

/-- R3: the member lane sides of a leg belong to it. -/
theorem State.legOf_of_mem_memberSides (hmap : s.MapPermutes) {d : Side} {x : LaneSide} (hx : x ∈ s.memberSides l d) :
    s.legOf x = l := by
  obtain ⟨i, hi, rfl⟩ := List.mem_map.mp hx
  have hmember := State.mem_members.mp hi
  cases d with
  | line => exact hmember
  | switch => simpa [State.legOf, State.lineOf, State.sideOf, State.fedBy_source hmap] using hmember

theorem State.rateOf_of_mem_memberSides (hmap : s.MapPermutes) {d : Side} {x : LaneSide}
    (hx : x ∈ s.memberSides l d) : s.rateOf x = (s.leg l).setup.rate := by
  rw [State.rateOf, State.legOf_of_mem_memberSides hmap hx]

theorem loadPreset_valid (rate : RateClass) (n : Fin 5) : (loadPreset rate n).valid rate = true := by
  revert n
  cases rate <;> decide

theorem LaneState.counters_startSession (v : LaneState) (g : Setup) (kind : SessionKind) :
    (v.startSession g kind).counters = v.counters := by
  cases kind <;> rfl

theorem LaneState.valid_startSession {v : LaneState} {g : Setup} (kind : SessionKind)
    (h : v.taps.valid g.rate = true) : (v.startSession g kind).taps.valid g.rate = true := by
  cases kind with
  | bringUp => exact loadPreset_valid g.rate g.ownPreset
  | retune => exact h

theorem moves_startSession (s : State) (l : LegId) (kind : SessionKind) (d : Side) :
    Moves k s xs (s.startSession l kind d) xs := by
  refine (moves_modLanes (fun v hv => ?_) _ s (fun x hx hmap v hv => ?_)).trans (moves_modLegSide _ l d _)
  · rwa [LaneState.counters_startSession]
  · rw [State.rateOf_of_mem_memberSides hmap hx] at hv ⊢
    exact LaneState.valid_startSession kind hv

theorem moves_enterTuneSide (s : State) (l : LegId) (kind : SessionKind) (named : List Side) (d : Side) :
    Moves k s xs (s.enterTuneSide l kind named d) xs := by
  unfold State.enterTuneSide
  split
  · exact moves_startSession s l kind d
  · exact (moves_modLanes_quiet s _ LaneState.standBy_quiet).trans (moves_modLegSide _ l d _)

theorem moves_enterTune (s : State) (kind : SessionKind) (named : List Side) (h : s.MayBeOut l) :
    Moves k s xs (s.enterTune l kind named) xs :=
  ((Move.leg s xs l (fun g => { g with state := .tune, kind := kind }) rfl id (.inr h) id).moves.trans
    (moves_enterTuneSide _ l kind named .line)).trans (moves_enterTuneSide _ l kind named .switch)

theorem moves_tryTune (s : State) (h : (s.leg l).state ≠ .parked) : Moves k s xs (s.tryTune l) xs := by
  unfold State.tryTune
  split
  · refine (moves_modLeg_items s l (f := fun g => { g with lockTimer := none }) fun g => ⟨rfl, rfl, id, id⟩).trans
      (moves_enterTune _ .bringUp _ (.inl ?_))
    simpa using h
  · exact .refl s xs

theorem moves_enterAcquire (s : State) (h : s.MayBeOut l) : Moves k s xs (s.enterAcquire l) xs :=
  (Move.leg s xs l (fun g => { g with state := .acquire, lockTimer := some (g.setup.lockTimeout * 1000) }) rfl id (.inr h)
    id).moves.trans (moves_tryTune _ (by simp))

theorem moves_enterDark (s : State) (h : s.MayBeOut l) : Moves k s xs (s.enterDark l) xs := by
  have hdark := (Move.leg (k := k) s xs l (fun g => { g with state := .dark, lockTimer := none }) rfl id (.inr h) id).moves
  unfold State.enterDark
  dsimp only
  split
  · exact hdark.trans (moves_enterAcquire _ (.inl (by simp)))
  · exact hdark

theorem moves_enterCarrying (s : State) (grade : Grade) (h : s.MayBeOut l) :
    Moves k s xs (s.enterCarrying l grade) xs := by
  refine ((moves_modLanes_quiet s _ LaneState.rest_quiet).tail (Move.leg _ xs l _ ?rate ?intent (.inr ?out)
    ?counters)).trans ((moves_legNotice _ l).trans (moves_reportOutcome _ l _))
  case rate => rfl
  case intent => exact id
  case out => simpa [State.MayBeOut] using h
  case counters => exact fun ⟨hc, hp, hf⟩ => ⟨countUp_le hc, hp, hf⟩

/-! ### Sessions -/

theorem moves_sessionDone (s : State) (d : Side) (h : (s.leg l).state ≠ .parked) :
    Moves k s xs (s.sessionDone l d) xs := by
  have hdone := moves_modLegSide (k := k) (xs := xs) s l d (fun d => { d with session := .done, timer := none })
  unfold State.sessionDone
  dsimp only
  split
  · exact hdone.trans (moves_enterCarrying _ _ (.inl (by rwa [State.state_modLegSide])))
  · exact hdone

theorem moves_fallBack (s : State) (h : (s.leg l).state ≠ .parked) : Moves k s xs (s.fallBack l) xs := by
  unfold State.fallBack
  split
  · exact moves_enterCarrying s .degraded (.inl h)
  · dsimp only
    have hcounted := (moves_abandonSessions (k := k) (xs := xs) s l).trans (moves_modLeg_items _ l
      (f := fun g => { g with attempts := g.attempts + 1 }) fun g => ⟨rfl, rfl, id, id⟩)
    split
    · exact hcounted.trans (moves_enterAcquire _ (.inl (by simpa using h)))
    · exact hcounted.trans (moves_giveUp _ l)
  · exact (moves_parkLeg s l).trans ((moves_modLeg_items _ l (f := fun g => { g with intent := false })
      fun g => ⟨rfl, rfl, nofun, id⟩).trans ((moves_legNotice _ l).trans (moves_reportOutcome _ l .bringUpFailed)))

@[simp] theorem State.state_abandonRunning (s : State) (l : LegId) (d : Side) (m : LegId) :
    ((s.abandonRunning l d).leg m).state = (s.leg m).state := by
  unfold State.abandonRunning
  split
  · exact State.state_abandonSide s l d m
  · rfl

theorem moves_abandonRunning (s : State) (l : LegId) (d : Side) : Moves k s xs (s.abandonRunning l d) xs := by
  unfold State.abandonRunning
  split
  · exact moves_abandonSide s l d
  · exact .refl s xs

theorem moves_sessionFailed (s : State) (d : Side) (cause : FailureCause) (h : (s.leg l).state ≠ .parked) :
    Moves k s xs (s.sessionFailed l d cause) xs := by
  have hfailed := ((moves_modLanes_quiet (k := k) (xs := xs) s (s.memberSides l d) LaneState.failSession_quiet).trans
    (moves_modLegSide _ l d (fun d => { d with session := .failed, timer := none }))).trans
    (moves_modLeg_items _ l (f := fun g =>
      { g with cause := cause, failedSessions := countUp Config.legCounterMax g.failedSessions })
      fun g => ⟨rfl, rfl, id, fun ⟨hc, hp, hf⟩ => ⟨hc, hp, countUp_le hf⟩⟩)
  refine (hfailed.trans (moves_abandonRunning _ l (otherSide d))).trans (moves_fallBack _ ?_)
  simpa [State.state_modLegSide] using h

/-! ### The loss relay -/

theorem moves_modRelay (s : State) (l : LegId) (d : Side) (f : RelayDirection → RelayDirection) :
    Moves k s xs (s.modRelay l d f) xs := moves_modLegSide s l d _

theorem moves_relayExpire (s : State) (l : LegId) (d : Side) : Moves k s xs (s.relayExpire l d) xs := by
  unfold State.relayExpire
  dsimp only
  split <;> exact moves_modRelay s l d _

theorem moves_relayStart (s : State) (l : LegId) (d : Side) : Moves k s xs (s.relayStart l d) xs := by
  unfold State.relayStart
  dsimp only
  split
  · exact moves_relayExpire s l d
  · exact moves_modRelay s l d _

theorem moves_relayTrigger (s : State) (l : LegId) (d : Side) : Moves k s xs (s.relayTrigger l d) xs := by
  unfold State.relayTrigger
  dsimp only
  split
  · exact .refl s xs
  · split
    · exact moves_relayStart s l d
    · exact .refl s xs
  · split
    · exact (moves_modRelay s l d _).trans (moves_relayStart _ l d)
    · exact .refl s xs

theorem moves_relayRelease (s : State) (l : LegId) (d : Side) : Moves k s xs (s.relayRelease l d) xs := by
  unfold State.relayRelease
  split
  · exact .refl s xs
  · exact moves_modRelay s l d _
  · exact moves_modRelay s l d _

/-! ### Presence and lock events -/

theorem moves_legPresenceLoss (s : State) (l : LegId) : Moves k s xs (s.legPresenceLoss l) xs := by
  have hlost (hp : (s.leg l).state ≠ .parked) : Moves k s xs ((((s.abandonSessions l).leaveCarrying l).modLeg l (fun g =>
      { g with presenceLosses := countUp Config.legCounterMax g.presenceLosses })).enterDark l) xs :=
    ((moves_leave s l).trans (moves_modLeg_items _ l (f := fun g =>
      { g with presenceLosses := countUp Config.legCounterMax g.presenceLosses })
      fun g => ⟨rfl, rfl, id, fun ⟨hc, hp, hf⟩ => ⟨hc, countUp_le hp, hf⟩⟩)).trans
      (moves_enterDark _ (.inl (by simpa using hp)))
  unfold State.legPresenceLoss
  split
  · exact .refl s xs
  · exact .refl s xs
  · next hp _ => exact hlost hp

theorem moves_legPresenceGain (s : State) (l : LegId) : Moves k s xs (s.legPresenceGain l) xs := by
  unfold State.legPresenceGain
  split
  · next h => exact moves_enterAcquire s (.inl (by rw [h.1]; decide))
  · exact .refl s xs

theorem moves_wakeWatch (s : State) (l : LegId) : Moves k s xs (s.wakeWatch l) xs := by
  unfold State.wakeWatch
  split
  · exact moves_legNotice s l
  · exact .refl s xs

theorem LaneCounters.bounded_iff (c : LaneCounters) : c.bounded = true ↔
    c.presenceDrops ≤ 4294967295 ∧ c.lockLosses ≤ 4294967295 ∧ c.badFrames ≤ 4294967295 ∧
      c.requestsAnswered ≤ 4294967295 := by
  simp [LaneCounters.bounded, and_assoc]

theorem moves_becomeAbsent (s : State) (x : LaneSide) : Moves k s xs (s.becomeAbsent x) xs := by
  have hlane : Moves k s xs (s.modLane x (fun v =>
      { v with presence := { v.presence with qualified := false }, locked := false
               counters := { v.counters with
                 presenceDrops := countUp Config.laneCounterMax v.counters.presenceDrops } })) xs := by
    refine moves_modLane s x (fun _ _ hv => hv) (fun v hv => ?_)
    obtain ⟨hd, hrest⟩ := v.counters.bounded_iff.mp hv
    exact (LaneCounters.bounded_iff _).mpr ⟨countUp_le hd, hrest⟩
  unfold State.becomeAbsent
  dsimp only
  split
  · exact hlane.trans (moves_legPresenceLoss _ _)
  · exact (hlane.trans (moves_legPresenceLoss _ _)).trans (moves_relayTrigger _ _ x.side)

theorem moves_becomePresent (s : State) (x : LaneSide) : Moves k s xs (s.becomePresent x) xs := by
  have hgain := (moves_modLane_quiet (k := k) (xs := xs) s x (f := fun v =>
    { v with presence := { v.presence with qualified := true } }) fun _ => ⟨rfl, rfl⟩).trans
    (moves_legPresenceGain _ (s.legOf x))
  unfold State.becomePresent
  dsimp only
  split
  · exact hgain.trans (moves_relayRelease _ _ x.side)
  · exact hgain

theorem moves_presenceEvent (s : State) (x : LaneSide) : Moves k s xs (s.presenceEvent x) xs := by
  have hstop := moves_modLane_quiet (k := k) (xs := xs) s x (f := fun v =>
    { v with presence := { v.presence with timer := none } }) fun _ => ⟨rfl, rfl⟩
  unfold State.presenceEvent
  dsimp only
  split
  · exact hstop
  · have hwatch {t u : State} (h : Moves k t xs u xs) : Moves k t xs
        (if (u.lane x).mask.timer.isNone = true then u.wakeWatch (u.legOf x) else u) xs := by
      split
      · exact h.trans (moves_wakeWatch u _)
      · exact h
    cases (s.lane x).presence.raw with
    | true => exact hstop.trans (hwatch (moves_becomePresent _ x))
    | false => exact hstop.trans (hwatch (moves_becomeAbsent _ x))

theorem moves_lockEvent (s : State) (x : LaneSide) : Moves k s xs (s.lockEvent x) xs := by
  have hlane := moves_modLane_quiet (k := k) (xs := xs) s x (f := fun v => { v with locked := true })
    fun _ => ⟨rfl, rfl⟩
  unfold State.lockEvent
  dsimp only
  split
  · next h => exact hlane.trans (moves_tryTune _ (by rw [h]; decide))
  · exact hlane

theorem moves_unlockEvent (s : State) (x : LaneSide) : Moves k s xs (s.unlockEvent x) xs := by
  have hlane := moves_modLane_quiet (k := k) (xs := xs) s x (f := fun v => { v with locked := false })
    fun _ => ⟨rfl, rfl⟩
  have hlost (t : State) (hp : (t.leg (s.legOf x)).state ≠ .parked) : Moves k t xs
      ((((t.modLane x (fun v => { v with counters := { v.counters with
        lockLosses := countUp Config.laneCounterMax v.counters.lockLosses } })).abandonSessions (s.legOf x)).leaveCarrying
          (s.legOf x)).enterAcquire (s.legOf x)) xs := by
    refine ((moves_modLane t x (f := fun v => { v with counters := { v.counters with
        lockLosses := countUp Config.laneCounterMax v.counters.lockLosses } }) (fun _ _ hv => hv) (fun v hv => ?_)).trans
      (moves_leave _ _)).trans (moves_enterAcquire _ (.inl (by simpa using hp)))
    obtain ⟨hd, hl, hrest⟩ := v.counters.bounded_iff.mp hv
    exact (LaneCounters.bounded_iff _).mpr ⟨hd, countUp_le hl, hrest⟩
  unfold State.unlockEvent
  dsimp only
  split
  · next h => exact hlane.trans (hlost _ (by rw [h]; decide))
  · next h => exact hlane.trans (hlost _ (by rw [h]; decide))
  · exact hlane

theorem moves_lockTimerExpire (s : State) (l : LegId) : Moves k s xs (s.lockTimerExpire l) xs := by
  have hcounted := moves_modLeg_items (k := k) (xs := xs) s l (f := fun g =>
    { g with attempts := g.attempts + 1, cause := .lockTimeout, lockTimer := none }) fun _ => ⟨rfl, rfl, id, id⟩
  unfold State.lockTimerExpire
  dsimp only
  split
  · exact hcounted.trans (moves_modLeg_items _ l fun _ => ⟨rfl, rfl, id, id⟩)
  · exact hcounted.trans (moves_giveUp _ l)

/-! ### Tasks and the power at the leg controller -/

theorem moves_parkByTask (s : State) (l : LegId) : Moves k s xs (s.parkByTask l) xs := by
  have hintent := moves_modLeg_items (k := k) (xs := xs) s l (f := fun g => { g with intent := false })
    fun _ => ⟨rfl, rfl, nofun, id⟩
  unfold State.parkByTask
  dsimp only
  split
  · exact hintent
  · exact hintent.trans ((moves_parkLeg _ l).trans (moves_reportOutcome _ l .superseded))

theorem moves_parkByPower (s : State) (l : LegId) : Moves k s xs (s.parkByPower l) xs := by
  unfold State.parkByPower
  split
  · exact .refl s xs
  · exact (moves_parkLeg _ l).trans (moves_reportOutcome _ l .superseded)

theorem moves_retune (s : State) (named : List Side) (h : (s.leg l).state = .carrying) :
    Moves k s xs (s.retune l named) xs :=
  (moves_leaveCarrying s l).trans (moves_enterTune _ .retune named (.inl (by simp [h])))

/-! ### The tuning exchange -/

theorem moves_formFrame (s : State) (x : LaneSide) : Moves k s xs (s.formFrame x) xs := by
  unfold State.formFrame
  exact moves_modLane_quiet s x fun _ => ⟨rfl, rfl⟩

/-- R63: a wait count advances in TUNE. -/
theorem State.state_of_nextWait {x : LaneSide} {c : Nat × Nat} (h : s.nextWait x = some c) :
    (s.leg (s.legOf x)).state = .tune := by
  unfold State.nextWait at h
  split at h
  · split at h
    · next hc => exact hc.1
    · cases h
  · cases h

theorem moves_framePeriod (s : State) (x : LaneSide) : Moves k s xs (s.framePeriod x) xs := by
  unfold State.framePeriod
  split
  · exact moves_formFrame s x
  · next count limit h =>
    have hcounted := (moves_formFrame (k := k) (xs := xs) s x).trans
      (moves_modTuner _ x (fun t => { t with waitCount := count }))
    dsimp only
    split
    · refine hcounted.trans (moves_sessionFailed _ x.side .noReply ?_)
      have htune := State.state_of_nextWait h
      show (s.leg (s.legOf x)).state ≠ .parked
      rw [htune]
      decide
    · exact hcounted

theorem moves_badFrame (s : State) (x : LaneSide) : Moves k s xs (s.badFrame x) xs := by
  refine moves_modLane s x (fun _ _ hv => hv) (fun v hv => ?_)
  obtain ⟨hd, hl, hb, hr⟩ := v.counters.bounded_iff.mp hv
  exact (LaneCounters.bounded_iff _).mpr ⟨hd, hl, countUp_le hb, hr⟩

end Sys2Proof.Machine
end

section
/-! The handling of a received frame, and every task, is made of moves. -/

namespace Sys2Proof.Machine

variable {k : Known} {s t : State} {xs : List InHand} {l : LegId}

/-! ### The answer to a request keeps the taps valid (R78, R84, R86) -/

theorem valid_of_tryFixed {rate : RateClass} {t t' : Taps} {tap : Tap} {step : Int} (ht : t.valid rate = true)
    (h : tryFixed rate t tap step = some t') : t'.valid rate = true := by
  obtain ⟨hrange, rfl, hbudget, hfloor⟩ := tryFixed_eq_some.mp h
  obtain ⟨⟨hpre, hmain, hpost⟩, -, -⟩ := Taps.valid_iff.mp ht
  refine Taps.valid_iff.mpr ⟨?_, hbudget, hfloor⟩
  cases tap with
  | pre => exact ⟨by simpa [tapInRange, Taps.put] using hrange, hmain, hpost⟩
  | main => exact ⟨hpre, by simpa [tapInRange, Taps.put] using hrange, hpost⟩
  | post => exact ⟨hpre, hmain, by simpa [tapInRange, Taps.put] using hrange⟩

theorem valid_of_tryBalanced {rate : RateClass} {t t' : Taps} {tap : Tap} {step : Int} (htap : tap ≠ .main)
    (ht : t.valid rate = true) (h : tryBalanced rate t tap step = some t') : t'.valid rate = true := by
  obtain ⟨hrange, rfl, hmain, hfloor⟩ := (tryBalanced_eq_some htap).mp h
  obtain ⟨⟨hpre, hmain', hpost⟩, -, -⟩ := Taps.valid_iff.mp ht
  refine Taps.valid_iff.mpr ⟨?_, ?_, hfloor⟩
  · cases tap with
    | pre => exact ⟨by simpa [tapInRange, Taps.put] using hrange, ⟨hmain, by simp only; omega⟩, hpost⟩
    | main => exact absurd rfl htap
    | post => exact ⟨hpre, ⟨hmain, by simp only; omega⟩, by simpa [tapInRange, Taps.put] using hrange⟩
  · have hm := Taps.main_put (t := t) htap (t.get tap + step)
    simp only [Taps.budget] at *
    omega

theorem valid_of_tryStep {mode : BudgetMode} {rate : RateClass} {t t' : Taps} {tap : Tap} {step : Int}
    (ht : t.valid rate = true) (h : tryStep mode rate t tap step = some t') : t'.valid rate = true := by
  by_cases hb : mode = .balanced ∧ tap ≠ .main ∧ step < 0
  · obtain ⟨rfl, htap, hneg⟩ := hb
    exact valid_of_tryBalanced htap ht (tryStep_of_balanced htap hneg ▸ h)
  · refine valid_of_tryFixed (tap := tap) (step := step) ht ?_
    rw [← h]
    unfold tryStep
    cases mode <;> cases tap <;> simp_all

theorem nudge_valid (mode : BudgetMode) {rate : RateClass} {t : Taps} (tap : Tap) (step : Int)
    (ht : t.valid rate = true) : (nudge mode rate t tap step).2.valid rate = true := by
  unfold nudge
  split
  · exact ht
  · next h =>
    obtain ⟨_, _, -, hstep, -⟩ := firstQualifying_eq_some h
    exact valid_of_tryStep ht hstep

theorem answerRequest_valid (mode : BudgetMode) {rate : RateClass} {t : Taps} (f : RxFrame)
    (ht : t.valid rate = true) : (answerRequest mode rate t f).2.valid rate = true := by
  unfold answerRequest
  split
  · split
    · exact ht
    · split
      · exact nudge_valid mode _ _ ht
      · exact ht
  · split
    · exact ht
    · exact loadPreset_valid rate _
  · exact ht

theorem LaneState.valid_respond {v : LaneState} (g : Setup) (f : RxFrame) (h : v.taps.valid g.rate = true) :
    (v.respond g f).taps.valid g.rate = true := by
  unfold LaneState.respond LaneState.answer
  split
  · exact h
  · dsimp only
    split
    · exact h
    · exact answerRequest_valid g.budget f h

theorem LaneState.bounded_respond {v : LaneState} (g : Setup) (f : RxFrame) (h : v.counters.bounded = true) :
    (v.respond g f).counters.bounded = true := by
  unfold LaneState.respond
  split
  · exact h
  · obtain ⟨hd, hl, hb, hr⟩ := v.counters.bounded_iff.mp h
    exact (LaneCounters.bounded_iff _).mpr ⟨hd, hl, hb, countUp_le hr⟩

/-! ### A received frame -/

theorem moves_takeReply (s : State) (x : LaneSide) (f : RxFrame) : Moves k s xs (s.takeReply x f) xs := by
  unfold State.takeReply
  split
  · exact .refl s xs
  · exact (moves_modTuner s x _).trans (moves_climbReply _ x _)

theorem State.legOf_congr (hmap : t.map = s.map) (hstraps : t.straps = s.straps) (x : LaneSide) :
    t.legOf x = s.legOf x := by
  have hfed (i : LaneId) : t.fedBy i = s.fedBy i := by
    unfold State.fedBy State.entry
    rw [hmap]
  obtain ⟨d, i⟩ := x
  cases d with
  | line => simp only [State.legOf, State.lineOf, hstraps]
  | switch => simp only [State.legOf, State.lineOf, hfed, hstraps]

theorem State.map_endClimb (s : State) (x : LaneSide) : (s.endClimb x).map = s.map := by
  unfold State.endClimb
  dsimp only
  split <;> rfl

theorem State.map_trialCheck (s : State) (x : LaneSide) : (s.trialCheck x).map = s.map := by
  unfold State.trialCheck
  dsimp only
  split
  · rfl
  · exact State.map_endClimb s x

theorem State.map_passDecision (s : State) (x : LaneSide) : (s.passDecision x).map = s.map := by
  unfold State.passDecision
  dsimp only
  split
  · exact State.map_trialCheck _ x
  · split
    · exact State.map_trialCheck _ x
    · exact State.map_endClimb s x

theorem State.map_climbReply (s : State) (x : LaneSide) (o : ReplyOutcome) : (s.climbReply x o).map = s.map := by
  unfold State.climbReply
  dsimp only
  split
  · rfl
  · split
    · rfl
    · rfl
    · exact State.map_endClimb _ x
    · exact State.map_passDecision _ x
  · split
    · exact State.map_endClimb _ x
    · exact State.map_passDecision _ x
  · rfl

theorem State.map_takeReply (s : State) (x : LaneSide) (f : RxFrame) : (s.takeReply x f).map = s.map := by
  unfold State.takeReply
  split
  · rfl
  · exact State.map_climbReply _ x _

theorem State.legOf_takeReply (s : State) (x : LaneSide) (f : RxFrame) (y : LaneSide) :
    (s.takeReply x f).legOf y = s.legOf y :=
  State.legOf_congr (State.map_takeReply s x f) (State.straps_of_fixed (State.takeReply_fixed s x f)) y

theorem moves_takeAgreement (s : State) (x : LaneSide) (content : Bool) (h : (s.leg (s.legOf x)).state ≠ .parked) :
    Moves k s xs (s.takeAgreement x content) xs := by
  have hhold := moves_modTuner (k := k) (xs := xs) s x (fun t => t.countHold content)
  unfold State.takeAgreement
  dsimp only
  split
  · exact hhold.trans (moves_sessionDone _ x.side h)
  · exact hhold

theorem moves_goodFrame (s : State) (x : LaneSide) (f : RxFrame) (h : (s.leg (s.legOf x)).state ≠ .parked) :
    Moves k s xs (s.goodFrame x f) xs := by
  refine (((moves_modTuner s x (fun t => t.takeMark f.mark)).trans (moves_modLane _ x (fun _ v hv => ?_)
    (fun v hv => LaneState.bounded_respond _ f hv))).trans (moves_takeReply _ x f)).trans
    (moves_takeAgreement _ x f.content ?_)
  · exact LaneState.valid_respond _ f hv
  · rw [State.state_takeReply, State.legOf_takeReply]
    exact h

theorem moves_receiveFrame (s : State) (x : LaneSide) (frame : Vector Byte 8)
    (h : (s.leg (s.legOf x)).state ≠ .parked) : Moves k s xs (s.receiveFrame x frame) xs := by
  unfold State.receiveFrame
  dsimp only
  split
  · exact moves_goodFrame s x _ h
  · exact moves_badFrame s x

/-! ### The tasks of the leg queues -/

theorem moves_runLegSetup (s : State) (l : LegId) (e : Entry) :
    Moves k s (.task (some l) e :: xs) (s.runLegSetup l e) xs := by
  unfold State.runLegSetup
  split
  · exact moves_endTask s _ e .badArgument (by simp)
  · next v _ =>
    split
    · exact moves_endTask s _ e .wrongState (by simp)
    · exact (Move.setup s _ l v).moves.trans (moves_endTask _ _ e .ok (by simp [Setup.bytes]))

theorem moves_launch (s : State) (l : LegId) (e : Entry) : Moves k s (.task (some l) e :: xs) (s.launch l e) xs := by
  unfold State.launch
  split
  · next ha => exact (Move.launch s xs l e ha).moves
  · exact moves_endTask s _ e .ok (by simp)

theorem Leg.length_bringUpResult (g : Leg) : g.bringUpResult.length = 5 := rfl

theorem State.endTask_leg (s : State) (e : Entry) (result : List Byte) (st : Status) (m : LegId) :
    (s.endTask e result st).leg m = s.leg m := by
  unfold State.endTask
  split
  · rfl
  · unfold State.endPosted
    split
    · obtain ⟨_, _, _, _, h⟩ := s.reportFault_eq_update _
      rw [h]
      rfl
    · rfl

@[simp] theorem State.leg_launch (s : State) (l : LegId) (e : Entry) (m : LegId) : (s.launch l e).leg m = s.leg m := by
  unfold State.launch
  split
  · rfl
  · exact State.endTask_leg s e [] .ok m

@[simp] theorem State.effective_reportFault (s : State) (r : FaultRecord) :
    (s.reportFault r).effective = s.effective := by
  obtain ⟨_, _, _, _, h⟩ := s.reportFault_eq_update r
  rw [h]

@[simp] theorem State.effective_endTask (s : State) (e : Entry) (result : List Byte) (st : Status) :
    (s.endTask e result st).effective = s.effective := by
  unfold State.endTask
  split
  · rfl
  · unfold State.endPosted
    split
    · exact State.effective_reportFault s _
    · rfl

@[simp] theorem State.effective_launch (s : State) (l : LegId) (e : Entry) :
    (s.launch l e).effective = s.effective := by
  unfold State.launch
  split
  · rfl
  · exact State.effective_endTask s e [] .ok

theorem moves_runLegStart (s : State) (l : LegId) (e : Entry) :
    Moves k s (.task (some l) e :: xs) (s.runLegStart l e) xs := by
  unfold State.runLegStart
  split
  · exact moves_endTask s _ e .already (by simp [Leg.length_bringUpResult])
  · split
    · exact moves_endTask s _ e .wrongState (by simp)
    · next hcarry =>
      have hintent := (Move.intent (k := k) s (.task (some l) e :: xs) l (fun _ => by simpa using hcarry)
        (.inr ⟨e, List.mem_cons_self⟩)).moves
      split
      · next he =>
        exact (hintent.trans (moves_launch _ l e)).trans
          (moves_enterDark _ (.inr ⟨by simp [State.takeIntent], by simpa [State.takeIntent] using he⟩))
      · exact hintent.trans (moves_endTask _ _ e .heldLow (by simp [Leg.length_bringUpResult]))

theorem moves_runLegPark (s : State) (l : LegId) (e : Entry) :
    Moves k s (.task (some l) e :: xs) (s.runLegPark l e) xs :=
  (moves_parkByTask s l).trans (moves_endTask _ _ e .ok (by simp))

theorem moves_runLegRetune (e : Entry) (h : s.runLegRetune l e = some t) : Moves k s (.task (some l) e :: xs) t xs := by
  unfold State.runLegRetune at h
  split at h
  · obtain rfl := Option.some.inj h
    exact moves_endTask s _ e .badArgument (by simp)
  · split at h
    · next named _ hc =>
      obtain rfl := Option.some.inj h
      exact (moves_retune s named hc).trans (moves_launch _ l e)
    · cases h

theorem moves_maskPair (s : State) (i : LaneId) : Moves k s xs (s.maskPair i) xs :=
  moves_modLanes_quiet s _ (f := LaneState.startMask) fun _ => ⟨rfl, rfl⟩

theorem State.legOfLine_of_memberArg {b : Byte} {i : LaneId} (h : s.memberArg l b = some i) :
    legOfLine s.straps.profile i = l := State.mem_members.mp (State.memberArg_eq_some.mp h).1

theorem moves_runLaneFunction (s : State) (l : LegId) (e : Entry) :
    Moves k s (.task (some l) e :: xs) (s.runLaneFunction l e) xs := by
  unfold State.runLaneFunction
  split
  · next i f hi _ =>
    split
    · exact moves_endTask s _ e .wrongState (by simp)
    · next hp =>
      split
      · exact moves_endTask s _ e .wrongState (by simp)
      · next hf =>
        refine Moves.trans ?_ (moves_endTask _ (some l) e .ok (by simp))
        unfold State.setFunction
        split
        · exact .refl s _
        · refine (Move.function s _ l i f (State.legOfLine_of_memberArg hi) ⟨e, List.mem_cons_self⟩
            (not_not.mp hp) ?_).moves.trans (moves_maskPair _ i)
          by_cases hcarry : f = .carry
          · exact .inl hcarry
          · exact .inr (Bool.eq_false_iff.mpr fun hintent => hf ⟨hcarry, hintent⟩)
  · exact moves_endTask s _ e .badArgument (by simp)

theorem moves_runSetTaps (e : Entry) (h : s.runSetTaps l e = some t) : Moves k s (.task (some l) e :: xs) t xs := by
  unfold State.runSetTaps at h
  split at h
  · next d i _ hi =>
    split at h
    · obtain rfl := Option.some.inj h
      refine (moves_modLane s (s.sideOf i d) (f := fun v =>
        { v with taps := (saturate (s.leg l).setup.rate
            (⟨(s.arg e 2).toInt, (s.arg e 3).toInt, (s.arg e 4).toInt⟩ : Taps)) }) (fun hmap v _ => ?_) (fun v hv => hv)).trans
        (moves_endTask _ _ e .ok (by simp [Taps.bytes]))
      have hmember : s.sideOf i d ∈ s.memberSides l d :=
        List.mem_map_of_mem (State.mem_members.mpr (State.legOfLine_of_memberArg hi))
      rw [State.rateOf_of_mem_memberSides hmap hmember]
      exact saturate_valid _ _
    · cases h
  · obtain rfl := Option.some.inj h
    exact moves_endTask s _ e .badArgument (by simp)

theorem moves_runEyeScan (e : Entry) (hk : e.kind = .eyeScan) (h : s.runEyeScan l e = some t) :
    Moves k s (.task (some l) e :: xs) t xs := by
  unfold State.runEyeScan at h
  split at h
  · next d i p dwell _ _ _ _ =>
    split at h
    · split at h
      · next hfree =>
        obtain rfl := Option.some.inj h
        exact (Move.openPage s xs l e p ⟨.busy e.slot (dwell * 1000), l, d, i, dwell, 0, .none⟩ (dwell * 1000) hk hfree
          rfl rfl).moves.trans (moves_modLane_quiet _ (s.sideOf i d) (f := fun v => { v with monitor := .scanning })
            fun _ => ⟨rfl, rfl⟩)
      · obtain rfl := Option.some.inj h
        exact moves_endTask s _ e .pageBusy (by simp)
    · cases h
  · obtain rfl := Option.some.inj h
    exact moves_endTask s _ e .badArgument (by simp)

theorem moves_runSnapshot (s : State) (l : LegId) (e : Entry) :
    Moves k s (.task (some l) e :: xs) (s.runSnapshot l e) xs := by
  unfold State.runSnapshot
  split
  · next d clearAfter _ _ =>
    refine Moves.trans ?_ (moves_endTask _ (some l) e .ok (s.length_counterBytes_memberSides_le l d))
    split
    · exact moves_modLanes (fun _ _ => rfl) _ s (fun _ _ _ _ hv => hv)
    · exact .refl s _
  · exact moves_endTask s _ e .badArgument (by simp)

theorem moves_runLegTask (e : Entry) (h : s.runLegTask l e = some t) : Moves k s (.task (some l) e :: xs) t xs := by
  unfold State.runLegTask at h
  split at h
  · obtain rfl := Option.some.inj h
    exact moves_endTask s _ e .badArgument (by simp)
  · split at h
    · obtain rfl := Option.some.inj h
      exact moves_runLegSetup s l e
    · obtain rfl := Option.some.inj h
      exact moves_runLegStart s l e
    · obtain rfl := Option.some.inj h
      exact moves_runLegPark s l e
    · exact moves_runLegRetune e h
    · obtain rfl := Option.some.inj h
      exact moves_runLaneFunction s l e
    · exact moves_runSetTaps e h
    · next hk => exact moves_runEyeScan e hk h
    · obtain rfl := Option.some.inj h
      exact moves_runSnapshot s l e
    · obtain rfl := Option.some.inj h
      exact (Move.drop s xs _ e).moves
    · obtain rfl := Option.some.inj h
      exact (Move.drop s xs _ e).moves

/-! ### REMAP -/

theorem mem_allLanes (i : LaneId) : i ∈ allLanes := by revert i; decide

/-- R21, step 1: a permutation names every switch lane. -/
theorem exists_of_isPermutation {g : Nat → Byte} (h : isPermutation ((List.range 8).map g) = true) (sw : LaneId) :
    ∃ i : LaneId, (g i.val).toNat = sw.val := by
  have hany := List.all_eq_true.mp (Bool.and_eq_true_iff.mp h).1 sw (mem_allLanes sw)
  obtain ⟨b, hb, hv⟩ := List.any_eq_true.mp hany
  obtain ⟨i, hi, rfl⟩ := List.mem_map.mp hb
  exact ⟨⟨i, List.mem_range.mp hi⟩, of_decide_eq_true hv⟩

theorem moves_runRemap (s : State) (e : Entry) : Moves k s (.task none e :: xs) (s.runRemap e) xs := by
  unfold State.runRemap
  split
  · next hperm =>
    dsimp only
    split
    · refine (((Move.remap s _ (s.remapped e) (fun sw => ?_) (fun i => ?_)).moves).trans
        (moves_foldl (fun t i => moves_maskPair t i) _ _)).trans (moves_endTask _ _ e .ok (by simp))
      · obtain ⟨i, hi⟩ := exists_of_isPermutation hperm sw
        refine ⟨i, Fin.ext ?_⟩
        simp only [State.remapped, remapEntry, Fin.getElem_fin, Vector.getElem_ofFn, hi]
        exact Nat.mod_eq_of_lt sw.isLt
      · simp [State.remapped, remapEntry]
    · exact moves_endTask s _ e .wrongState (by simp)
  · exact moves_endTask s _ e .badArgument (by simp)

end Sys2Proof.Machine
end

section
/-! Every operation of the queues, of the power unit and of start-up is made of moves. -/

namespace Sys2Proof.Machine

variable {k : Known} {s t : State} {xs : List InHand} {l : LegId}

/-! ### Entries that leave a leg queue -/

theorem perm_dropAt {q : List Entry} {j : Nat} {e : Entry} (h : q[j]? = some e) : List.Perm q ([e] ++ dropAt q j) := by
  obtain ⟨hj, rfl⟩ := List.getElem?_eq_some_iff.mp h
  conv_lhs => rw [← List.take_append_drop j q, List.drop_eq_getElem_cons hj]
  exact List.perm_middle

theorem moves_leaveAt (s : State) {j : Nat} {e : Entry} (h : (s.engine l).queue[j]? = some e) :
    Moves k s xs (s.setQueue l (dropAt (s.engine l).queue j)) (.task (some l) e :: xs) :=
  (Move.leaveQueue s xs l _ [e] (perm_dropAt h)).moves

theorem moves_attemptAt {j : Nat} {e : Entry} (hq : (s.engine l).queue[j]? = some e) (h : s.attemptAt l j e = some t) :
    Moves k s xs t xs := (moves_leaveAt s hq).trans (moves_runLegTask e h)

theorem Entry.undeferred_deferEntry (e : Entry) : e.deferEntry.undeferred = e.undeferred := by
  unfold Entry.deferEntry
  split <;> rfl

theorem map_undeferred_modify (q : List Entry) (j : Nat) :
    (q.modify j Entry.deferEntry).map Entry.undeferred = q.map Entry.undeferred := by
  induction q generalizing j with
  | nil => simp
  | cons e q ih =>
    cases j with
    | zero => simp [Entry.undeferred_deferEntry]
    | succ j => simp [ih]

theorem moves_deferAt (s : State) (l : LegId) (j : Nat) : Moves k s xs (s.deferAt l j) xs :=
  (Move.deferQueue s xs l _ (map_undeferred_modify _ j)).moves

theorem moves_passEntries (l : LegId) (fuel : Nat) (s : State) : Moves k s xs (s.passEntries l fuel) xs := by
  induction fuel generalizing s with
  | zero => exact .refl s xs
  | succ fuel ih =>
    unfold State.passEntries
    split
    · next hq =>
      split
      · split
        · next ht => exact (moves_attemptAt (by simp [hq]) ht).trans (ih _)
        · exact moves_deferAt s l 1
      · exact .refl s xs
    · exact .refl s xs

/-! ### Entries superseded -/

theorem moves_supersedeAwaited (l : LegId) (es : List Entry) (s : State) :
    Moves k s (es.map (InHand.task (some l)) ++ xs) (s.supersedeAwaited l es) xs := by
  induction es generalizing s with
  | nil => exact .refl s xs
  | cons e es ih =>
    unfold State.supersedeAwaited at ih ⊢
    cases ha : e.awaited with
    | true =>
      rw [List.filter_cons_of_pos (by simpa using ha)]
      refine (moves_endTask s _ e .superseded ?_).trans (ih _)
      unfold State.supersededResult
      split <;> simp [Leg.length_bringUpResult]
    | false =>
      rw [List.filter_cons_of_neg (by simp [ha])]
      exact (Move.drop s _ _ e).moves.trans (ih s)

theorem mem_insertAt {α : Type} {v a : α} {as : List α} {j : Nat} : a ∈ insertAt v as j ↔ a = v ∨ a ∈ as := by
  induction as generalizing j with
  | nil => simp [insertAt]
  | cons b as ih =>
    cases j with
    | zero => simp [insertAt]
    | succ j =>
      simp only [insertAt, List.mem_cons, ih]
      tauto

/-- An order that the spec leaves open is of the same things. -/
theorem mem_arrange {α : Type} {a : α} {j : Nat} {as : List α} : a ∈ arrange j as ↔ a ∈ as := by
  induction as generalizing j with
  | nil => simp [arrange]
  | cons b as ih => simp [arrange, mem_insertAt, ih]

theorem moves_foldl_mem {α : Type} {f : State → α → State} (as : List α)
    (h : ∀ s, ∀ a ∈ as, Moves k s xs (f s a) xs) (s : State) : Moves k s xs (as.foldl f s) xs := by
  induction as generalizing s with
  | nil => exact .refl s xs
  | cons a as ih =>
    exact (h s a List.mem_cons_self).trans (ih (fun s b hb => h s b (List.mem_cons_of_mem a hb)) (f s a))

theorem moves_freeCount (s : State) (n : Nat) : Moves k s xs { s with freeCount := n } xs := (Move.free s xs ..).moves

theorem moves_endTask_posted (s : State) {e : Entry} (ha : e.awaited = false) (st : Status) :
    Moves k s xs (s.endTask e [] st) xs := by
  rw [State.endTask, if_neg (by simp [ha])]
  exact moves_endPosted s ..

theorem moves_supersedePosted (s : State) (es : List Entry) : Moves k s xs (s.supersedePosted es) xs := by
  refine (moves_foldl_mem (arrange s.freeCount (es.filter fun e => !e.awaited)) (fun t e he => ?_) s).trans
    (moves_freeCount _ _)
  exact moves_endTask_posted t (by simpa using (List.mem_filter.mp (mem_arrange.mp he)).2) .superseded

theorem moves_passPark (h : s.passPark l = some t) : Moves k s xs t xs := by
  unfold State.passPark at h
  split at h
  · cases h
  · next j _ =>
    split at h
    · cases h
    · next e hq =>
      split at h
      · obtain rfl := Option.some.inj h
        have hperm : List.Perm (s.engine l).queue
            ((e :: (s.engine l).queue.take j) ++ (s.engine l).queue.drop (j + 1)) := perm_dropAt hq
        exact (((Move.leaveQueue s xs l _ _ hperm).moves.trans (moves_runLegPark _ l e)).trans
          (moves_supersedeAwaited l _ _)).trans (moves_supersedePosted _ _)
      · obtain rfl := Option.some.inj h
        exact (moves_leaveAt s hq).trans (moves_endTask _ _ e .badArgument (by simp))

/-! ### Examinations -/

theorem moves_examineRounds (l : LegId) (fuel : Nat) (s : State) : Moves k s xs (s.examineRounds l fuel) xs := by
  induction fuel generalizing s with
  | zero => exact .refl s xs
  | succ fuel ih =>
    unfold State.examineRounds
    split
    · exact .refl s xs
    · next hq =>
      split
      · next ht => exact (moves_attemptAt (by simp [hq]) ht).trans (ih _)
      · have hpassed := (moves_deferAt (k := k) (xs := xs) s l 0).trans
          (moves_passEntries l ((s.deferAt l 0).engine l).queue.length _)
        dsimp only
        split
        · next ht => exact (hpassed.trans (moves_passPark ht)).trans (ih _)
        · exact hpassed

theorem moves_examineLeg (s : State) (l : LegId) : Moves k s xs (s.examineLeg l) xs := moves_examineRounds l _ s

theorem moves_examineLegs (s : State) : Moves k s xs s.examineLegs xs :=
  (moves_freeCount s _).trans (moves_foldl (fun t l => moves_examineLeg t l) _ _)

@[simp] theorem State.engine_reportFault (s : State) (r : FaultRecord) (m : LegId) :
    (s.reportFault r).engine m = s.engine m := by
  obtain ⟨_, _, _, _, h⟩ := s.reportFault_eq_update r
  rw [h]
  rfl

@[simp] theorem State.engine_endTask (s : State) (e : Entry) (result : List Byte) (st : Status) (m : LegId) :
    (s.endTask e result st).engine m = s.engine m := by
  unfold State.endTask
  split
  · rfl
  · unfold State.endPosted
    split
    · exact State.engine_reportFault s _ m
    · rfl

theorem State.engine_supersedeAwaited (s : State) (l : LegId) (es : List Entry) (m : LegId) :
    (s.supersedeAwaited l es).engine m = s.engine m :=
  foldl_keeps (fun t => t.engine m) _ (fun t e => State.engine_endTask t e _ .superseded m) _ s

theorem moves_supersedeDeferred (s : State) : Moves k s xs s.supersedeDeferred xs := by
  refine Moves.trans ?_ (moves_supersedePosted _ _)
  have hlegs (ls : List LegId) (hn : ls.Nodup) (t : State) (ht : ∀ l ∈ ls, t.engine l = s.engine l) :
      Moves k t xs (ls.foldl (fun t l => (t.setQueue l ((s.engine l).queue.filter fun e => !e.deferred)).supersedeAwaited
        l ((s.engine l).queue.filter fun e => e.deferred)) t) xs := by
    induction ls generalizing t with
    | nil => exact .refl t xs
    | cons l ls ih =>
      obtain ⟨hl, hn⟩ := List.nodup_cons.mp hn
      refine ((Move.leaveQueue t xs l _ ((s.engine l).queue.filter fun e => e.deferred) ?_).moves.trans
        (moves_supersedeAwaited l _ _)).trans (ih hn _ fun m hm => ?_)
      · rw [ht l List.mem_cons_self]
        exact (List.filter_append_perm _ _).symm
      · rw [State.engine_supersedeAwaited, State.engine_setQueue, if_neg (fun h : m = l => hl (h ▸ hm)),
          ht m (List.mem_cons_of_mem l hm)]
  exact hlegs allLegs (by decide) s fun _ _ => rfl

/-! ### Patience and cancels -/

theorem moves_giveUpEntry {j : Nat} {e : Entry} (h : s.waitingEntry l j = some e) :
    Moves k s xs (s.giveUpEntry l j e) xs := by
  have hq : (s.engine l).queue[j]? = some e := by
    obtain ⟨e', he', hif⟩ := Option.bind_eq_some_iff.mp h
    split at hif
    · obtain rfl := Option.some.inj hif
      exact he'
    · cases hif
  exact ((moves_leaveAt s hq).trans (moves_endTask _ _ e .gaveUp (by simp))).trans (moves_examineLeg _ l)

theorem moves_cancelInLeg (s : State) (n : SlotId) (l : LegId) : Moves k s xs (s.cancelInLeg n l) xs := by
  unfold State.cancelInLeg
  split
  · next j hj =>
    obtain ⟨hlt, he, -⟩ := List.findIdx?_eq_some_iff_getElem.mp hj
    obtain ⟨ha, hslot⟩ : (s.engine l).queue[j].awaited = true ∧ (s.engine l).queue[j].slot = n := by simpa using he
    refine Moves.trans ?_ (moves_examineLeg _ l)
    have hleft := (moves_leaveAt (k := k) (xs := xs) s (List.getElem?_eq_getElem hlt)).tail (Move.toSlot _ xs _ _ ha)
    rw [hslot] at hleft
    exact hleft.tail (Move.finish _ xs n [] .cancelled (by simp))
  · split
    · next hn => exact (Move.land s xs l n hn).moves.tail (Move.finish _ xs n [] .cancelled (by simp))
    · exact .refl s xs

theorem moves_takeCancel (s : State) (n : SlotId) : Moves k s xs (s.takeCancel n) xs := by
  unfold State.takeCancel
  refine (Move.askCancel s xs n).moves.trans ?_
  generalize s.modSlot n (fun c => { c with cancelAsked := true }) = t
  dsimp only
  split
  · exact moves_cancelInLeg t n _
  · split
    · next hn => exact (Move.leaveWait t xs n hn).moves.tail (Move.finish _ xs n [] .cancelled (by simp))
    · exact .refl t xs

/-! ### The power unit -/

theorem moves_finishPowerWait (s : State) (st : Status) : Moves k s xs (s.finishPowerWait st) xs := by
  have hfinish (ns : List SlotId) (result : List Byte) (hr : result.length ≤ 0x80) (t : State) :
      Moves k t (ns.map InHand.slot ++ xs) (ns.foldl (fun t n => t.endAwaited n result st) t) xs := by
    induction ns generalizing t with
    | nil => exact .refl t xs
    | cons n ns ih => exact (Move.finish t _ n result st hr).moves.trans (ih _)
  exact (Move.endWait s xs).moves.trans (hfinish s.powerWait s.powerResult (by simp [State.powerResult]) _)

theorem State.state_parkByPower (s : State) (l m : LegId) :
    ((s.parkByPower l).leg m).state = if m = l then .parked else (s.leg m).state := by
  unfold State.parkByPower
  split
  · next h =>
    split
    · next hm => rw [hm, h]
    · rfl
  · rw [State.leg_reportOutcome, State.parkLeg, State.leg_modLeg]
    split
    · rfl
    · rw [State.state_leave]

/-- R29: after the fall every leg is PARKED. -/
theorem State.parked_of_parkByPower (s : State) (ls : List LegId) {m : LegId}
    (h : m ∈ ls ∨ (s.leg m).state = .parked) :
    ((ls.foldl (fun s l => s.parkByPower l) s).leg m).state = .parked := by
  induction ls generalizing s with
  | nil => exact h.resolve_left List.not_mem_nil
  | cons l ls ih =>
    refine ih _ ?_
    rw [State.state_parkByPower]
    by_cases hm : m = l
    · exact .inr (if_pos hm)
    · rw [if_neg hm]
      exact h.imp_left fun h => (List.mem_cons.mp h).resolve_left hm

theorem mem_allLegs (l : LegId) : l ∈ allLegs := by revert l; decide

theorem moves_powerLow (s : State) (st : Status) : Moves k s xs (s.powerLow st) xs := by
  unfold State.powerLow
  dsimp only
  have hlow : Moves k s xs ({ s with effective := .low, riseTimer := none }.modAllLanes fun v => { v with locked := false })
      (.fall :: xs) :=
    (((Move.fall s xs).moves.tail (Move.free { s with effective := .low } ..)).tail
      (Move.everyLane _ _ (fun v => { v with locked := false }) fun _ => ⟨rfl, rfl⟩))
  have hparked := (hlow.trans (moves_foldl (fun s l => moves_parkByPower s l) allLegs _)).tail
    (Move.fallen _ xs fun m => State.parked_of_parkByPower _ allLegs (.inl (mem_allLegs m)))
  exact (((hparked.trans (moves_supersedeDeferred _)).trans (moves_finishPowerWait _ st)).tail
    (Move.raise _ xs powerBit (by decide) (by decide))).trans (moves_examineLegs _)

theorem moves_tryRise (s : State) : Moves k s xs s.tryRise xs := by
  unfold State.tryRise
  split
  · next h =>
    exact ((Move.power s xs .rising (.inr (by rw [h.1]; decide))).moves.tail
      (Move.free { s with effective := .rising } ..)).trans (moves_examineLegs _)
  · exact .refl s xs

theorem moves_riseLeg (s : State) (l : LegId) (he : s.effective = .active) : Moves k s xs (s.riseLeg l) xs := by
  unfold State.riseLeg
  split
  · next h =>
    exact (moves_modLeg_items s l (f := fun g => { g with attempts := 0 }) fun _ => ⟨rfl, rfl, id, id⟩).trans
      (moves_enterDark _ (.inr ⟨by simpa using h.2.2, he⟩))
  · exact .refl s xs

theorem State.effective_riseLeg (s : State) (l : LegId) : (s.riseLeg l).effective = s.effective := by
  unfold State.riseLeg
  split
  · exact (State.keepsSignals_enterDark _ l).effective
  · rfl

theorem moves_completeRise (s : State) : Moves k s xs s.completeRise xs := by
  unfold State.completeRise
  dsimp only
  have hlegs (ls : List LegId) (t : State) (he : t.effective = .active) :
      Moves k t xs (ls.foldl (fun s l => s.riseLeg l) t) xs := by
    induction ls generalizing t with
    | nil => exact .refl t xs
    | cons l ls ih => exact (moves_riseLeg t l he).trans (ih _ (by rw [State.effective_riseLeg, he]))
  have hactive := (((Move.power (k := k) s xs .active (.inl rfl)).moves.tail
    (Move.free { s with effective := .active } xs s.pending s.resetHeld s.lowpwr s.requested none s.initTimer
      s.initByPowerOn s.resetTimer s.lastCause s.releaseCause s.owed s.latchedMode s.holdIntake s.latchedLine s.offset
      s.readOpen s.acknowledged s.readData s.freeCount)).tail (Move.raise _ xs powerBit (by decide) (by decide)))
  exact ((hactive.trans (hlegs allLegs _ rfl)).trans (moves_finishPowerWait _ .ok)).trans (moves_examineLegs _)

/-! ### The device queue -/

theorem State.length_powerResult (s : State) : s.powerResult.length = 2 := rfl

theorem moves_requested (s : State) (p : RequestedPower) : Moves k s xs { s with requested := p } xs :=
  (Move.free s xs ..).moves

theorem moves_runPower (s : State) (e : Entry) : Moves k s (.task none e :: xs) (s.runPower e) xs := by
  have hend (t : State) (st : Status) : Moves k t (.task none e :: xs) (t.endTask e t.powerResult st) xs :=
    moves_endTask t none e st (by simp [State.length_powerResult])
  unfold State.runPower
  split
  · exact moves_endTask s none e .badArgument (by simp)
  · refine (moves_requested s .low).trans (Moves.trans ?_ (hend _ .ok))
    split
    · exact .refl _ _
    · exact moves_powerLow _ .superseded
  · refine (moves_requested s .active).trans ?_
    dsimp only
    split
    · exact hend _ .ok
    · split
      · exact hend _ .heldLow
      · refine (moves_tryRise _).trans ?_
        split
        · next ha => exact (Move.wait _ xs e ha).moves
        · exact moves_endTask _ none e .ok (by simp)

theorem moves_runDeviceTask (s : State) (e : Entry) : Moves k s (.task none e :: xs) (s.runDeviceTask e) xs := by
  unfold State.runDeviceTask
  split
  · exact moves_endTask s none e .badArgument (by simp)
  · split
    · exact moves_runRemap s e
    · exact moves_runPower s e

theorem moves_examineDeviceRounds (fuel : Nat) (s : State) : Moves k s xs (s.examineDeviceRounds fuel) xs := by
  induction fuel generalizing s with
  | zero => exact .refl s xs
  | succ fuel ih =>
    unfold State.examineDeviceRounds
    split
    · exact .refl s xs
    · next e q hq => exact ((Move.leaveDevice s xs e q hq).moves.trans (moves_runDeviceTask _ e)).trans (ih _)

theorem moves_examineDevice (s : State) : Moves k s xs s.examineDevice xs := moves_examineDeviceRounds _ s

/-! ### The end of an initialization -/

theorem State.entry_keepsSignals (h : s.KeepsSignals t) (i : LaneId) : t.entry i = s.entry i := by
  obtain ⟨_, _, _, rfl⟩ := h.update
  rfl

theorem moves_autostartLeg (s : State) (l : LegId) (hf : k.carry → ∀ i, (s.entry i).function = .carry) :
    Moves k s xs (s.autostartLeg l) xs := by
  unfold State.autostartLeg
  split
  · next hu =>
    have hintent := (Move.intent (k := k) s xs l (fun hk => State.allCarry_of_functions (hf hk) l) (.inl hu)).moves
    dsimp only
    split
    · next he => exact hintent.trans (moves_enterDark _ (.inr ⟨by simp [State.takeIntent], he⟩))
    · exact hintent
  · exact .refl s xs

theorem moves_autostart (ls : List LegId) (s : State) (hf : k.carry → ∀ i, (s.entry i).function = .carry) :
    Moves k s xs (ls.foldl (fun s l => s.autostartLeg l) s) xs := by
  induction ls generalizing s with
  | nil => exact .refl s xs
  | cons l ls ih =>
    refine (moves_autostartLeg s l hf).trans (ih _ fun hk i => ?_)
    rw [State.entry_keepsSignals (State.keepsSignals_autostartLeg s l)]
    exact hf hk i

theorem moves_completeInit (s : State) (hd : s.device = .initializing)
    (hf : k.carry → ∀ i, (s.entry i).function = .carry) : Moves k s [] s.completeInit [] := by
  have hready : Moves k s [] { s with initTimer := none }.becomeReady [] :=
    (Move.free s [] ..).moves.tail (Move.ready { s with initTimer := none } hd)
  refine (hready.trans ?_).trans (moves_examineLegs _)
  split
  · exact moves_autostart allLegs _ hf
  · exact .refl _ []

end Sys2Proof.Machine
end

section
/-! The intake, the management line and every command are made of moves, in a state that keeps what the moves build
on. -/

namespace Sys2Proof.Machine

variable {k : Known} {s t : State} {xs ys : List InHand} {l : LegId}

/-- The invariants that the moves build on, of those that are known. -/
def Listed (k : Known) (s : State) (xs : List InHand) : Prop := (k.slots → s.Accounted xs) ∧ (k.carry → s.LegRules xs)

theorem Moves.listed (m : Moves k s xs t ys) (h : Listed k s xs) : Listed k t ys :=
  ⟨fun hk => m.keeps (P := fun s xs => s.Accounted xs) (fun m => m.accounted hk) (h.1 hk),
    fun hk => m.keeps (P := fun s xs => s.LegRules xs) (fun m => m.legRules hk) (h.2 hk)⟩

/-- Moves followed by moves of a state that keeps what they build on. -/
theorem Moves.thenListed {u : State} {zs : List InHand} (m : Moves k s xs t ys) (h : Listed k s xs)
    (m' : Listed k t ys → Moves k t ys u zs) : Moves k s xs u zs := m.trans (m' (m.listed h))

theorem Listed.nodup (h : Listed k s xs) (hk : k.slots) : s.handOver.Nodup := (h.1 hk).list.1

theorem Listed.ready_of_waiting (h : Listed k s xs) (hk : k.carry) (hw : s.handOver ≠ []) : s.device ≠ .initializing :=
  fun hd =>
    have ⟨_, hwork, _⟩ := (h.2 hk).start hd
    hw hwork.1

theorem Listed.ready_of_writing (h : Listed k s xs) (hk : k.carry) (hw : s.writeOpen ≠ none) :
    s.device ≠ .initializing :=
  fun hd =>
    have ⟨_, _, hwrite, _⟩ := (h.2 hk).start hd
    hw hwrite

/-! ### The intake -/

/-- R138: what the checks of a header establish of a slot that passes them. -/
theorem State.checkSlot_ok {n : SlotId} {kd : TaskKind} {g : Target} (h : s.checkSlot n = .ok (kd, g)) :
    (s.slotByte n 1 = 1 → kd.postable = true) ∧ ∀ l, g = .leg l → s.used l = true := by
  unfold State.checkSlot at h
  split at h
  · cases h
  · next kd' _ =>
    split at h
    · cases h
    · next hp =>
      have hpost : s.slotByte n 1 = 1 → kd'.postable = true := fun h1 => by simpa [h1] using hp
      dsimp only at h
      split at h
      · cases h
        exact ⟨hpost, nofun⟩
      · split at h
        · cases h
        · split at h
          · cases h
          · next hu =>
            split at h
            · cases h
              exact ⟨hpost, nofun⟩
            · cases h
              refine ⟨hpost, fun l hl => ?_⟩
              cases hl
              simpa using hu

/-- The leg of a target queue; none is the device queue. -/
def Target.leg? : Target → Option LegId
  | .leg l => some l
  | .device => none

theorem moves_takeTask {n : SlotId} {kd : TaskKind} {g : Target} (hc : s.checkSlot n = .ok (kd, g))
    (hr : s.hasRoom g = true) (hlist : k.slots → n ∈ s.handOver) (hready : k.carry → s.device ≠ .initializing) :
    Moves k s xs (s.takeTask n kd g) xs := by
  have htaken : Moves k s xs (s.takeSlot n (s.makeEntry n kd).awaited) (.task g.leg? (s.makeEntry n kd) :: xs) := by
    have hused (u : State) (hu : u.straps = s.straps) (m : LegId) (hm : g.leg? = some m) : u.used m = true := by
      cases g with
      | leg l =>
        obtain rfl := Option.some.inj hm
        rw [State.used_congr hu, (State.checkSlot_ok hc).2 l rfl]
      | device => cases hm
    have htake := (Move.take s xs n (s.makeEntry n kd).awaited hlist hready).moves
    cases ha : (s.makeEntry n kd).awaited with
    | true =>
      rw [ha] at htake
      exact htake.tail (Move.adopt _ xs g.leg? (s.makeEntry n kd) ha (hused _ rfl) hready)
    | false =>
      rw [ha] at htake
      refine htake.tail (Move.post _ xs g.leg? (s.makeEntry n kd) ha (fun hscan => ?_) (hused _ rfl) hready)
      have hpost := (State.checkSlot_ok hc).1 (by simpa [State.makeEntry] using ha)
      rw [show kd = .eyeScan from hscan] at hpost
      cases hpost
  have hengines (a : Bool) : (s.takeSlot n a).engines = s.engines ∧ (s.takeSlot n a).deviceQueue = s.deviceQueue := by
    cases a <;> exact ⟨rfl, rfl⟩
  obtain ⟨hengine, hdevice⟩ := hengines (s.makeEntry n kd).awaited
  unfold State.takeTask
  cases g with
  | leg l =>
    refine (htaken.tail (Move.joinQueue _ xs l _ ?_)).trans (moves_examineLeg _ l)
    rw [State.engine, hengine]
    exact of_decide_eq_true hr
  | device =>
    refine (htaken.tail (Move.joinDevice _ xs _ ?_)).trans (moves_examineDevice _)
    rw [hdevice]
    exact of_decide_eq_true hr

theorem State.modSlot_modSlot (s : State) (n : SlotId) (f g : Slot → Slot) :
    (s.modSlot n f).modSlot n g = s.modSlot n (fun c => g (f c)) := by
  simp [State.modSlot]

/-- R138: an awaited refusal is a take whose task finishes at once. -/
theorem State.refuseSlot_awaited (s : State) {n : SlotId} (h : s.slotByte n 1 ≠ 1) (st : Status) :
    s.refuseSlot n st = (s.takeSlot n true).endAwaited n [] st := by
  have hmerge (u : State) (f : Slot → Slot) : (u.modSlot n f).endAwaited n [] st =
      (u.modSlot n fun c => { f c with state := .done, status := st }).raise (slotBit n) :=
    congrArg (State.raise · (slotBit n))
      (State.modSlot_modSlot u n f fun c => { c with state := .done, status := st })
  unfold State.refuseSlot State.takeSlot
  dsimp only
  rw [if_pos (by simpa using h), if_pos rfl, hmerge, hmerge]

theorem moves_refuseSlot {n : SlotId} (st : Status) (hlist : k.slots → n ∈ s.handOver)
    (hready : k.carry → s.device ≠ .initializing) : Moves k s xs (s.refuseSlot n st) xs := by
  by_cases h : s.slotByte n 1 = 1
  · unfold State.refuseSlot
    dsimp only
    rw [if_neg (by simpa using h)]
    exact (Move.take s xs n false hlist hready).moves.trans (moves_endPosted _ ..)
  · rw [State.refuseSlot_awaited s h]
    exact (Move.take s xs n true hlist hready).moves.tail (Move.finish _ xs n [] st (by simp))

theorem moves_considerSlot {n : SlotId} (hlist : k.slots → n ∈ s.handOver)
    (hready : k.carry → s.device ≠ .initializing) : Moves k s xs (s.considerSlot n) xs := by
  unfold State.considerSlot
  split
  · exact moves_refuseSlot _ hlist hready
  · next hc =>
    split
    · exact .refl s xs
    · next hw =>
      obtain ⟨-, hroom⟩ : s.olderWaits n _ = false ∧ s.hasRoom _ = true := by simpa using hw
      exact moves_takeTask hc hroom hlist hready

theorem State.mem_handOver_considerSlot {n m : SlotId} (hne : m ≠ n) (h : m ∈ s.handOver) :
    m ∈ (s.considerSlot n).handOver := by
  have hmem : m ∈ s.handOver.filter (fun m => m ≠ n) := List.mem_filter.mpr ⟨h, by simpa using hne⟩
  unfold State.considerSlot
  split
  · rwa [State.refuseSlot_handOver]
  · split
    · exact h
    · rwa [State.takeTask_handOver]

theorem moves_intakePass (ns : List SlotId) (s : State) (hlist : k.slots → ns.Nodup ∧ ∀ n ∈ ns, n ∈ s.handOver)
    (hready : k.carry → ns ≠ [] → s.device ≠ .initializing) : Moves k s xs (s.intakePass ns) xs := by
  unfold State.intakePass
  induction ns generalizing s with
  | nil => exact .refl s xs
  | cons n ns ih =>
    have hdevice : k.carry → s.device ≠ .initializing := fun hk => hready hk (List.cons_ne_nil n ns)
    rw [List.foldl_cons]
    split
    · exact ih s (fun hk => ⟨(List.nodup_cons.mp (hlist hk).1).2, fun m hm => (hlist hk).2 m (List.mem_cons_of_mem n hm)⟩)
        fun hk _ => hdevice hk
    · refine (moves_considerSlot (fun hk => (hlist hk).2 n List.mem_cons_self) hdevice).trans (ih _ (fun hk => ?_)
        fun hk _ => ?_)
      · obtain ⟨hnodup, hmem⟩ := hlist hk
        obtain ⟨hn, hns⟩ := List.nodup_cons.mp hnodup
        exact ⟨hns, fun m hm => State.mem_handOver_considerSlot (fun h => hn (h ▸ hm))
          (hmem m (List.mem_cons_of_mem n hm))⟩
      · rw [State.device_of_fixed (State.considerSlot_fixed s n)]
        exact hdevice hk

theorem moves_intakeRounds (fuel : Nat) (s : State) (h : Listed k s xs) : Moves k s xs (s.intakeRounds fuel) xs := by
  induction fuel generalizing s with
  | zero => exact .refl s xs
  | succ fuel ih =>
    have hpass : Moves k s xs (s.intakePass s.handOver) xs :=
      moves_intakePass s.handOver s (fun hk => ⟨h.nodup hk, fun _ => id⟩) fun hk => h.ready_of_waiting hk
    unfold State.intakeRounds
    dsimp only
    split
    · exact .refl s xs
    · split
      · exact hpass.thenListed h (ih _)
      · exact hpass

theorem moves_intake (h : Listed k s xs) : Moves k s xs s.intake xs := moves_intakeRounds _ s h

/-! ### Events at the engines -/

theorem moves_putOff (s : State) (l : LegId) : Moves k s xs (s.putOff l) xs := (Move.free s xs ..).moves

theorem moves_engineEvent (l : LegId) (h : Listed k s xs) : Moves k s xs (s.engineEvent l) xs := by
  have hexamined {t : State} (ht : Listed k t xs) : Moves k t xs (t.examineLeg l).intake xs :=
    (moves_examineLeg t l).thenListed ht moves_intake
  unfold State.engineEvent
  split
  · refine (moves_freeCount s (s.freeCount + 1)).thenListed h fun ht => ?_
    split
    · exact moves_putOff _ l
    · exact hexamined ht
  · exact hexamined h

theorem moves_afterLegEvent (before : State) (l : LegId) (h : Listed k s xs) :
    Moves k s xs (s.afterLegEvent before l) xs := by
  unfold State.afterLegEvent
  split
  · exact .refl s xs
  · exact moves_engineEvent l h

theorem moves_makeOwedChecks (h : Listed k s xs) : Moves k s xs s.makeOwedChecks xs := by
  unfold State.makeOwedChecks
  exact (((Move.free s xs ..).moves).trans (moves_foldl (fun t l => moves_examineLeg t l) _ _)).thenListed h moves_intake

theorem moves_idle (h : Listed k s []) : Moves k s [] s.idle [] := by
  unfold State.idle
  split
  · exact (Move.tick s).moves
  · exact moves_makeOwedChecks h

/-! ### The hand-over byte, the pages, exchange control -/

theorem getLsbD_slotBit (n : SlotId) : (slotBit n).getLsbD 24 = false := by revert n; decide

theorem moves_writeHandOver (n : SlotId) (v : Byte) (h : Listed k s xs) (hready : k.carry → s.device ≠ .initializing) :
    Moves k s xs (s.writeHandOver n v) xs := by
  unfold State.writeHandOver
  split
  · exact .refl s xs
  · next hreset =>
    split
    · next hempty _ => exact (Move.fill s xs n hempty hreset hready).moves.thenListed h moves_intake
    · next hfilled _ => exact (Move.retract s xs n hfilled).moves
    · split
      · exact .refl s xs
      · exact (moves_takeCancel s n).thenListed h moves_intake
    · next hdone _ =>
      exact (Move.release s xs n hdone).moves.tail (Move.lower _ xs (slotBit n) (getLsbD_slotBit n))
    · exact .refl s xs
    · exact .refl s xs
    · exact .refl s xs
    · exact moves_reportFault s _

theorem moves_writePage (s : State) (p : PageId) (v : Byte) : Moves k s xs (s.writePage p v) xs := by
  unfold State.writePage
  split
  · exact .refl s xs
  · split
    · exact moves_reportFault s _
    · split
      · next hheld => exact (Move.freePage s xs p hheld).moves
      · exact .refl s xs
      · exact moves_reportFault s _

theorem State.modPage_modPage (s : State) (p : PageId) (f g : Page → Page) :
    (s.modPage p f).modPage p g = s.modPage p (fun c => g (f c)) := by
  simp [State.modPage]

theorem State.page_writeCell (s : State) (p : PageId) (count : Byte) (st : PageState) (o : ScanOutcome) :
    (s.writeCell p count st o).page p =
      { s.page p with cellsDone := (s.page p).cellsDone + 1, state := st, outcome := o } := by
  rw [State.writeCell, State.page_modPage, if_pos rfl]
  rfl

theorem moves_completeCell {p : PageId} {n : SlotId} {left : Nat} (errors : Nat) (h : Listed k s xs)
    (hp : (s.page p).state = .busy n left) : Moves k s xs (s.completeCell p n errors) xs := by
  have hwritten (count : Byte) : { s with mem := s.mem.write (pageBase p + 0x200 + (s.page p).cellsDone) count }.modPage p
      (fun c => { c with cellsDone := c.cellsDone + 1, state := .busy n (c.dwell * 1000) }) =
      s.writeCell p count (.busy n ((s.page p).dwell * 1000)) (s.page p).outcome := by
    unfold State.writeCell State.modPage
    rfl
  have hend (count : Byte) (left' : Nat) (o o' : ScanOutcome) (st : Status) :
      Moves k s xs (((s.writeCell p count (.busy n left') o).endScan p n o' st).engineEvent (s.page p).leg) xs := by
    have hclosed : (s.writeCell p count (.busy n left') o).modPage p (fun c => { c with state := .held, outcome := o' }) =
        s.writeCell p count .held o' := State.modPage_modPage ..
    have hmoves : Moves k s xs ((s.writeCell p count (.busy n left') o).endScan p n o' st) xs := by
      unfold State.endScan
      dsimp only
      rw [hclosed]
      exact ((Move.lastCell s xs p n left count o' hp).moves.trans (moves_modLane_quiet _ _
        (f := fun v => { v with monitor := .idle }) fun _ => ⟨rfl, rfl⟩)).tail
        (Move.finish _ xs n _ st (by simp [bytes16]))
    exact hmoves.thenListed h (moves_engineEvent _)
  unfold State.completeCell
  generalize (if 255 < errors then 255 else errors) = errors
  dsimp only
  rw [hwritten]
  split
  · exact hend _ _ _ .cancelled .cancelled
  · split
    · exact hend _ _ _ .complete .ok
    · next hlast =>
      refine (Move.cell s xs p n left _ _ hp ?_).moves
      rw [State.page_writeCell] at hlast
      exact Nat.lt_of_not_le hlast

theorem moves_writeControl (v : Byte) (h : Listed k s []) : Moves k s [] (s.writeControl v) [] := by
  have hmode : Moves k s [] (s.setMode (v.getLsbD 0)) [] := by
    unfold State.setMode
    split
    · exact .refl s []
    · exact (Move.free s [] ..).moves
  have hset : Moves k s [] { s.setMode (v.getLsbD 0) with holdIntake := v.getLsbD 1 } [] :=
    hmode.tail (Move.free (s.setMode (v.getLsbD 0)) [] ..)
  have htriggered (u : State) (hu : Moves k s [] u []) : Moves k s []
      (if v.getLsbD 7 = true ∧ u.device = .ready then u.startExchangeReset else u) [] := by
    split
    · exact hu.tail (Move.startExchangeReset u)
    · exact hu
  unfold State.writeControl
  dsimp only
  split
  · exact (htriggered _ hset).thenListed h moves_intake
  · exact htriggered _ hset

theorem moves_writeRelease (v : Byte) (h : Listed k s xs) : Moves k s xs (s.writeRelease v) xs := by
  unfold State.writeRelease
  split
  · exact .refl s xs
  · exact (Move.releaseFaults s xs).moves.thenListed h moves_intake

/-! ### Write transactions -/

theorem moves_act (c : Nat × Byte) (h : Listed k s []) (hready : k.carry → s.device ≠ .initializing) :
    Moves k s [] (s.act c) [] := by
  unfold State.act
  split
  · exact (Move.lower s [] _ (by simp [clearableBits])).moves
  · split
    · exact moves_writeControl c.2 h
    · split
      · exact moves_writeRelease c.2 h
      · split
        · exact moves_writeHandOver _ c.2 h hready
        · exact moves_writePage s _ c.2

end Sys2Proof.Machine
end

section
/-! The management line and every command are made of moves, and so is every step. -/

namespace Sys2Proof.Machine

variable {k : Known} {s t : State} {xs : List InHand} {l : LegId}

/-! ### Write transactions -/

theorem State.device_setMode (s : State) (latched : Bool) : (s.setMode latched).device = s.device := by
  unfold State.setMode
  split <;> rfl

theorem State.device_writeControl (v : Byte) (h : s.device ≠ .initializing) :
    (s.writeControl v).device ≠ .initializing := by
  have htriggered (u : State) (hu : u.device ≠ .initializing) :
      (if v.getLsbD 7 = true ∧ u.device = .ready then u.startExchangeReset else u).device ≠ .initializing := by
    split
    · exact DeviceState.noConfusion
    · exact hu
  have hset : ({ s.setMode (v.getLsbD 0) with holdIntake := v.getLsbD 1 } : State).device ≠ .initializing := by
    rw [← State.device_setMode s (v.getLsbD 0)] at h
    exact h
  unfold State.writeControl
  dsimp only
  split
  · rw [State.device_of_fixed (State.intake_fixed _)]
    exact htriggered _ hset
  · exact htriggered _ hset

/-- R133: no action byte begins an initialization. -/
theorem State.device_act (c : Nat × Byte) (h : s.device ≠ .initializing) : (s.act c).device ≠ .initializing := by
  unfold State.act
  split
  · exact h
  · split
    · exact State.device_writeControl c.2 h
    · split
      · unfold State.writeRelease
        split
        · exact h
        · rwa [State.device_of_fixed (State.intake_fixed _)]
      · split
        · rwa [State.device_of_fixed (State.writeHandOver_fixed s _ _)]
        · rwa [State.device_of_fixed (State.writePage_fixed s _ _)]

theorem moves_acts (cs : List (Nat × Byte)) (h : Listed k s []) (hready : k.carry → s.device ≠ .initializing) :
    Moves k s [] (cs.foldl State.act s) [] := by
  induction cs generalizing s with
  | nil => exact .refl s []
  | cons c cs ih =>
    exact (moves_act c h hready).thenListed h fun h' => ih h' fun hk => State.device_act c (hready hk)

theorem moves_endWrite (h : Listed k s []) : Moves k s [] s.endWrite [] := by
  unfold State.endWrite
  split
  · exact .refl s []
  · next w hw =>
    exact (Move.writeOpen s [] none (.inl rfl)).moves.thenListed h fun h' =>
      moves_acts w.actions h' fun hk => h.ready_of_writing hk (by simp [hw])

theorem moves_endRead (s : State) : Moves k s xs s.endRead xs := by
  unfold State.endRead
  split
  · exact .refl s xs
  · exact (Move.free s xs ..).moves

theorem moves_endTransaction (h : Listed k s []) : Moves k s [] s.endTransaction [] :=
  (moves_endWrite h).trans (moves_endRead _)

/-- R129: a line interface that answers is past its initialization. -/
theorem State.ready_of_listens (h : s.listens = true) : s.device ≠ .initializing := by
  simp only [State.listens, Bool.and_eq_true, decide_eq_true_eq] at h
  exact h.2

theorem moves_startWrite (target : BitVec 7) (h : Listed k s []) : Moves k s [] (s.startWrite target) [] := by
  refine (moves_endTransaction h).trans ?_
  unfold State.startWrite
  generalize s.endTransaction = u
  dsimp only
  split
  · next hl =>
    exact (Move.free u [] u.pending u.resetHeld u.lowpwr u.requested u.riseTimer u.initTimer u.initByPowerOn
      u.resetTimer u.lastCause u.releaseCause u.owed u.latchedMode u.holdIntake u.latchedLine u.offset u.readOpen true
      u.readData u.freeCount).moves.tail (Move.writeOpen { u with acknowledged := true } [] (some ⟨none, false, []⟩)
        (.inr (.inr (State.ready_of_listens hl.1))))
  · exact (Move.free u [] ..).moves

theorem moves_storeByte (s : State) (a : Nat) (v : Byte) : Moves k s xs (s.storeByte a v) xs := by
  unfold State.storeByte
  split
  · exact (Move.writeEnable s xs _ v).moves
  · split
    · next ha =>
      split
      · exact (Move.store s xs a v ha).moves
      · exact .refl s xs
    · exact .refl s xs

theorem moves_offset (s : State) (a : BitVec 16) : Moves k s xs { s with offset := a } xs := (Move.free s xs ..).moves

theorem moves_writing (s : State) (w : WriteTransaction) (h : s.writeOpen ≠ none) :
    Moves k s xs { s with writeOpen := some w } xs := (Move.writeOpen s xs (some w) (.inr (.inl h))).moves

theorem moves_receiveByte (s : State) (v : Byte) : Moves k s xs (s.receiveByte v) xs := by
  unfold State.receiveByte
  split
  · exact .refl s xs
  · next w hw =>
    have hopen : s.writeOpen ≠ none := by simp [hw]
    split
    · unfold State.receiveData
      refine (moves_offset s (s.offset + 1)).trans ?_
      dsimp only
      split
      · split
        · exact .refl _ xs
        · exact moves_writing { s with offset := s.offset + 1 } _ hopen
      · exact moves_storeByte _ _ v
    · split
      · exact moves_writing s _ hopen
      · next high _ =>
        exact (moves_offset s (high ++ v)).trans (moves_writing { s with offset := high ++ v } _ hopen)

theorem moves_sendBytes (s : State) (data : List Byte) : Moves k s xs (s.sendBytes data) xs :=
  moves_foldl (fun s v => moves_receiveByte s v) data s

theorem moves_transact (target : BitVec 7) (data : List Byte) (h : Listed k s []) :
    Moves k s [] (s.transact target data) [] :=
  ((moves_startWrite target h).trans (moves_sendBytes _ data)).thenListed h moves_endTransaction

theorem moves_hostWrite (a : Nat) (data : List Byte) (h : Listed k s []) : Moves k s [] (s.hostWrite a data) [] :=
  moves_transact _ _ h

/-! ### Read transactions -/

theorem moves_startRead (target : BitVec 7) (h : Listed k s []) : Moves k s [] (s.startRead target) [] := by
  refine (moves_endTransaction h).trans ?_
  unfold State.startRead
  generalize s.endTransaction = u
  dsimp only
  split
  · exact (Move.free u [] ..).moves
  · exact (Move.free u [] ..).moves

theorem moves_clearProgress (s : State) (b : Nat) : Moves k s xs (s.clearProgress b) xs := by
  unfold State.clearProgress
  split
  · next h =>
    refine (moves_freeCount s (s.freeCount + 1)).trans ?_
    dsimp only
    split
    · exact (Move.clearBlock { s with freeCount := s.freeCount + 1 } xs b h.1 h.2).moves
    · exact .refl _ xs
  · exact .refl s xs

theorem moves_copyBlock (s : State) (r : ReadTransaction) (b : Nat) : Moves k s xs (s.copyBlock r b).1 xs := by
  unfold State.copyBlock
  split
  · exact .refl s xs
  · exact moves_clearProgress s b

theorem moves_returnByte (s : State) : Moves k s xs s.returnByte xs := by
  unfold State.returnByte
  split
  · exact .refl s xs
  · next r _ =>
    refine (moves_copyBlock s r (s.offset.toNat / 64)).trans ?_
    exact (Move.free (s.copyBlock r (s.offset.toNat / 64)).1 xs ..).moves

theorem moves_takeBytes (n : Nat) (s : State) : Moves k s xs (s.takeBytes n) xs := by
  induction n generalizing s with
  | zero => exact .refl s xs
  | succ n ih => exact (moves_returnByte s).trans (ih _)

theorem moves_writeEvent (ev : WriteEvent) (h : Listed k s []) : Moves k s [] (s.writeEvent ev) [] := by
  cases ev with
  | start target => exact moves_startWrite target h
  | bytes data => exact moves_sendBytes s data
  | stop => exact moves_endTransaction h
  | whole target data => exact moves_transact target data h

theorem moves_readEvent (ev : ReadEvent) (h : Listed k s []) : Moves k s [] (s.readEvent ev) [] := by
  cases ev with
  | start target => exact moves_startRead target h
  | bytes count => exact moves_takeBytes count s
  | stop => exact moves_endTransaction h
  | whole target offset count =>
    exact (((moves_startWrite target h).trans (moves_sendBytes _ _)).thenListed h fun h' =>
      (moves_startRead target h').trans (moves_takeBytes count _)).thenListed h moves_endTransaction

/-! ### Commands -/

/-- What a command for an event of the part's own does: the event, if it can occur. -/
theorem moves_whenRunning {can : Bool} (event : State → State) (hevent : can = true → Moves k s [] (event s) [])
    (ht : whenRunning s can event = .next t) : Moves k s [] t [] := by
  obtain rfl := Host.Outcome.next.inj ht
  split
  · next hc => exact hevent (Bool.and_eq_true_iff.mp hc).2
  · exact .refl s []

theorem moves_laneEvent {can : Bool} (x : LaneSide) (event : State → State) (h : Listed k s [])
    (hevent : can = true → Moves k s [] (event s) [])
    (ht : whenRunning s can (fun s => s.laneEvent x event) = .next t) : Moves k s [] t [] :=
  moves_whenRunning _ (fun hc => (hevent hc).thenListed h (moves_afterLegEvent s (s.legOf x))) ht

theorem moves_legEvent {can : Bool} (l : LegId) (event : State → State) (h : Listed k s [])
    (hevent : can = true → Moves k s [] (event s) [])
    (ht : whenRunning s can (fun s => s.legEvent l event) = .next t) : Moves k s [] t [] :=
  moves_whenRunning _ (fun hc => (hevent hc).thenListed h (moves_afterLegEvent s l)) ht

theorem moves_maskExpire (s : State) (x : LaneSide) : Moves k s xs (s.maskExpire x) xs := by
  have hstop := moves_modLane_quiet (k := k) (xs := xs) s x (f := fun v =>
    { v with mask := { v.mask with timer := none } }) fun _ => ⟨rfl, rfl⟩
  unfold State.maskExpire
  dsimp only
  split
  · exact hstop
  · exact hstop.trans (moves_wakeWatch _ _)

theorem moves_power_commands (h : Listed k s []) {c : Instr} (hc : c = .lowpwrAssert ∨ c = .lowpwrRelease)
    (ht : exec c s = .next t) : Moves k s [] t [] := by
  rcases hc with rfl | rfl
  · obtain rfl := Host.Outcome.next.inj ht
    have hpin : Moves k s [] { s with lowpwr := true } [] := (Move.free s [] ..).moves
    split
    · exact hpin
    · exact (hpin.trans (moves_powerLow _ .heldLow)).thenListed h moves_intake
  · obtain rfl := Host.Outcome.next.inj ht
    have hpin : Moves k s [] { s with lowpwr := false } [] := (Move.free s [] ..).moves
    split
    · exact hpin
    · exact (hpin.trans (moves_tryRise _)).thenListed h moves_intake

theorem moves_rawDetectChange (x : LaneSide) (signal : Bool) (ht : execRawDetectChange x signal s = .next t) :
    Moves k s [] t [] := by
  obtain rfl := Host.Outcome.next.inj ht
  split
  · exact .refl s []
  · exact moves_modLane_quiet s x fun _ => ⟨rfl, rfl⟩

theorem moves_scanCellComplete (p : PageId) (errors : Nat) (h : Listed k s [])
    (ht : execScanCellComplete p errors s = .next t) : Moves k s [] t [] := by
  unfold execScanCellComplete at ht
  split at ht
  · next n _ hp =>
    exact moves_whenRunning (fun s => s.completeCell p n errors) (fun _ => moves_completeCell errors h hp) ht
  · obtain rfl := Host.Outcome.next.inj ht
    exact .refl s []

theorem moves_patienceExpiry (l : LegId) (place : Fin 2) (h : Listed k s [])
    (ht : execPatienceExpiry l place s = .next t) : Moves k s [] t [] := by
  unfold execPatienceExpiry at ht
  split at ht
  · next e he =>
    exact moves_whenRunning (fun s => (s.giveUpEntry l place.val e).intake)
      (fun _ => (moves_giveUpEntry he).thenListed h moves_intake) ht
  · obtain rfl := Host.Outcome.next.inj ht
    exact .refl s []

theorem moves_exec (c : Instr) (h : Listed k s []) (ht : exec c s = .next t) : Moves k s [] t [] := by
  cases c with
  | powerOn pins lowpwr held lineDetect switchDetect =>
    obtain rfl := Host.Outcome.next.inj ht
    exact (Move.powerUp s pins lowpwr held lineDetect switchDetect).moves
  | resetLAssert => exact moves_whenRunning State.holdReset (fun _ => (Move.holdReset s).moves) ht
  | resetLRelease pins =>
    obtain rfl := Host.Outcome.next.inj ht
    split
    · exact (Move.releaseReset s pins).moves
    · exact .refl s []
  | initializationComplete =>
    refine moves_whenRunning State.completeInit (fun hd => ?_) ht
    have hd : s.device = .initializing := of_decide_eq_true hd
    exact moves_completeInit s hd fun hk => ((h.2 hk).start hd).1
  | lowpwrAssert => exact moves_power_commands h (.inl rfl) ht
  | lowpwrRelease => exact moves_power_commands h (.inr rfl) ht
  | riseCompletion =>
    exact moves_whenRunning (fun s => s.completeRise.intake) (fun _ => (moves_completeRise s).thenListed h moves_intake) ht
  | rawDetectChange x signal => exact moves_rawDetectChange x signal ht
  | qualificationTimerExpiry x =>
    exact moves_laneEvent x (fun s => s.presenceEvent x) h (fun _ => moves_presenceEvent s x) ht
  | maskTimerExpiry x => exact moves_whenRunning (fun s => s.maskExpire x) (fun _ => moves_maskExpire s x) ht
  | receiverLock x => exact moves_laneEvent x (fun s => s.lockEvent x) h (fun _ => moves_lockEvent s x) ht
  | receiverUnlock x => exact moves_laneEvent x (fun s => s.unlockEvent x) h (fun _ => moves_unlockEvent s x) ht
  | lockTimerExpiry l =>
    exact moves_legEvent l (fun s => s.lockTimerExpire l) h (fun _ => moves_lockTimerExpire s l) ht
  | relayDelayExpiry l watched =>
    exact moves_whenRunning (fun s => s.relayExpire l watched) (fun _ => moves_relayExpire s l watched) ht
  | relayPulseEnd l watched =>
    exact moves_whenRunning (fun s => s.modRelay l watched fun r => { r with pulse := none, squelching := false })
      (fun _ => moves_modRelay s l watched _) ht
  | tuningFrameSent x => exact moves_laneEvent x (fun s => s.framePeriod x) h (fun _ => moves_framePeriod s x) ht
  | requestWaitTimeout x => exact moves_laneEvent x (fun s => s.framePeriod x) h (fun _ => moves_framePeriod s x) ht
  | tuningFrameReceived x frame =>
    refine moves_laneEvent x (fun s => s.receiveFrame x frame) h (fun hc => moves_receiveFrame s x frame ?_) ht
    have htune : (s.leg (s.legOf x)).state = .tune := of_decide_eq_true (Bool.and_eq_true_iff.mp hc).1
    rw [htune]
    decide
  | sessionTimerExpiry l d =>
    refine moves_legEvent l (fun s => s.sessionFailed l d .tuneTimeout) h (fun hc =>
      moves_sessionFailed s d .tuneTimeout ?_) ht
    have htune : (s.leg l).state = .tune := of_decide_eq_true (Bool.and_eq_true_iff.mp hc).2
    rw [htune]
    decide
  | marginReadingComplete x value =>
    exact moves_whenRunning (fun s => s.readingDone x value.val) (fun _ => moves_readingDone s x value.val) ht
  | scanCellComplete p errors => exact moves_scanCellComplete p errors h ht
  | patienceExpiry l place => exact moves_patienceExpiry l place h ht
  | attentionSummaryRead ev =>
    obtain rfl := Host.Outcome.next.inj ht
    exact moves_readEvent ev h
  | registerWrite ev =>
    obtain rfl := Host.Outcome.next.inj ht
    exact moves_writeEvent ev h
  | exchangeResetComplete =>
    exact moves_whenRunning State.completeExchangeReset (fun hd => (Move.completeExchangeReset s (of_decide_eq_true hd)).moves) ht
  | slotHandOver | slotRetract | slotCancel | slotRelease | attentionSummaryClear | noticeEnablesWrite
  | faultLogRelease | pageStateWrite | exchangeControlWrite | exchangeReset | legSetup | legStart | legPark | legRetune
  | laneFunction | setTaps | eyeScan | snapshot | remap | power =>
    obtain rfl := Host.Outcome.next.inj ht
    exact moves_hostWrite _ _ h

/-- Every step is made of moves. -/
theorem moves_step (h : Listed k s []) (ht : step s = .next t) : Moves k s [] t [] := by
  unfold step at ht
  split at ht
  · obtain rfl := Host.Outcome.next.inj ht
    exact moves_idle h
  · next c rest _ =>
    have htaken : Moves k s [] { s with pending := rest } [] := (Move.free s [] ..).moves
    exact htaken.thenListed h fun h' => moves_exec c h' ht

end Sys2Proof.Machine
end

section
/-! The hand-over list and the task slots, and the rules of the legs, through every step. -/

namespace Sys2Proof.Machine

/-- Settles O56: the accounting of the slots, tasks in hand included, through the moves of the step. -/
theorem stepKeepsTheTaskSlots : Obligations.StepKeepsTheTaskSlots := by
  intro s t hs ht
  have hlisted : Listed ⟨True, False⟩ s [] := ⟨fun _ => State.accounted_nil.mpr hs, False.elim⟩
  exact State.accounted_nil.mp (((moves_step hlisted ht).listed hlisted).1 trivial)

/-- Settles O58: the rules of the legs, tasks in hand included, through the moves of the step. -/
theorem stepKeepsTheLegRules : Obligations.StepKeepsTheLegRules := by
  intro s t hpower hunused hcarry ht
  have hlisted : Listed ⟨False, True⟩ s [] := ⟨False.elim, fun _ => State.legRules_nil.mpr ⟨hpower, hunused, hcarry⟩⟩
  exact State.legRules_nil.mp (((moves_step hlisted ht).listed hlisted).2 trivial)

end Sys2Proof.Machine
end

section
/-! The registers in range (R17, R47, R145, R163, R165, R168): every move keeps the bounds of the queues and of the
counters, the fault log in step with its bit, and the unimplemented bits 0. -/

namespace Sys2Proof.Machine

variable {k : Known} {s t : State} {xs ys : List InHand} {l : LegId}

/-! ### The queues -/

theorem State.QueuesBounded.setQueue (h : s.QueuesBounded) {q : List Entry} (hq : q.length ≤ 8) :
    (s.setQueue l q).QueuesBounded := by
  refine ⟨fun m => ?_, h.2⟩
  rw [State.engine_setQueue]
  split
  · exact hq
  · exact h.1 m

theorem State.QueuesBounded.modEngine (h : s.QueuesBounded) {f : LegEngine → LegEngine}
    (hf : (f (s.engine l)).queue = (s.engine l).queue) : (s.modEngine l f).QueuesBounded := by
  refine ⟨fun m => ?_, h.2⟩
  rw [State.engine_modEngine]
  split
  · rw [hf]
    exact h.1 l
  · exact h.1 m

theorem State.QueuesBounded.of_sameButLanes (h : s.QueuesBounded) (hs : s.SameButLanes t) : t.QueuesBounded := by
  obtain ⟨_, _, _, rfl⟩ := hs
  exact h

theorem State.queuesBounded_of_reset (hengines : s.engines = Vector.replicate 4 LegEngine.reset)
    (hdevice : s.deviceQueue = []) : s.QueuesBounded := by
  refine ⟨fun l => ?_, by simp [hdevice]⟩
  rw [State.engine, hengines, replicate_getElem_fin]
  exact Nat.zero_le 8

theorem State.QueuesBounded.tick (h : s.QueuesBounded) : s.tick.QueuesBounded := by
  unfold State.tick
  split
  · exact h
  · refine ⟨fun l => ?_, h.2⟩
    have hengine : (mapVector LegEngine.tick s.engines)[l] = (s.engine l).tick := mapVector_getElem _ _ _ l.isLt
    show ((mapVector LegEngine.tick s.engines)[l]).queue.length ≤ 8
    rw [hengine, LegEngine.tick, List.length_map]
    exact h.1 l

theorem State.clearBlock_keeps {α : Type} (v : State → α) (hmem : ∀ s m, v { s with mem := m } = v s)
    (hslot : ∀ s n f, v (s.modSlot n f) = v s) (hpage : ∀ s p f, v (s.modPage p f) = v s) (s : State) (b : Nat) :
    v (s.clearBlock b) = v s := by
  unfold State.clearBlock
  dsimp only
  split
  · rw [hslot, hmem]
  · split
    · rw [hpage, hmem]
    · exact hmem _ _

theorem Move.queuesBounded (m : Move k s xs t ys) (h : s.QueuesBounded) : t.QueuesBounded := by
  cases m with
  | setup _ l v =>
    have hadjust := h.of_sameButLanes (State.adjustRate_sameButLanes s l v.rate)
    exact hadjust
  | remap _ map => exact h.of_sameButLanes (State.remap_sameButLanes s map)
  | reportFault _ r =>
    obtain ⟨_, _, _, _, hr⟩ := s.reportFault_eq_update r
    rw [hr]
    exact h
  | deferQueue _ l q hq =>
    refine h.setQueue ?_
    have hlength := congrArg List.length hq
    simp only [List.length_map] at hlength
    exact hlength ▸ h.1 l
  | leaveQueue _ l q es hq =>
    refine h.setQueue (le_trans ?_ (h.1 l))
    rw [hq.length_eq, List.length_append]
    exact Nat.le_add_left _ _
  | joinQueue _ l e hroom => exact h.setQueue (by simpa using hroom)
  | leaveDevice _ e q hq =>
    refine ⟨h.1, le_trans ?_ h.2⟩
    rw [hq]
    exact Nat.le_succ _
  | joinDevice _ e hroom => exact ⟨h.1, by simpa using hroom⟩
  | launch => exact h.modEngine rfl
  | land => exact h.modEngine rfl
  | clearBlock _ b =>
    have hengines : (s.clearBlock b).engines = s.engines :=
      State.clearBlock_keeps State.engines (fun _ _ => rfl) (fun _ _ _ => rfl) (fun _ _ _ => rfl) s b
    have hdevice : (s.clearBlock b).deviceQueue = s.deviceQueue :=
      State.clearBlock_keeps State.deviceQueue (fun _ _ => rfl) (fun _ _ _ => rfl) (fun _ _ _ => rfl) s b
    simpa only [State.QueuesBounded, State.engine, hengines, hdevice] using h
  | take _ n awaited => cases awaited <;> exact h
  | powerUp pins lowpwr held =>
    cases held <;> exact State.queuesBounded_of_reset rfl rfl
  | releaseReset => exact State.queuesBounded_of_reset rfl rfl
  | startExchangeReset => exact State.queuesBounded_of_reset rfl rfl
  | tick => exact h.tick
  | _ => exact h

/-! ### The lane counters -/

theorem State.CountersBounded.modLane (h : s.CountersBounded) {x : LaneSide} {f : LaneState → LaneState}
    (hf : ∀ v : LaneState, v.counters.bounded = true → (f v).counters.bounded = true) :
    (s.modLane x f).CountersBounded := by
  intro y
  rw [State.lane_modLane]
  split
  · exact hf _ (h x)
  · exact h y

theorem State.CountersBounded.modLanes (h : s.CountersBounded) {f : LaneState → LaneState}
    (hf : ∀ v : LaneState, v.counters.bounded = true → (f v).counters.bounded = true) (ls : List LaneSide) :
    (s.modLanes ls f).CountersBounded := by
  induction ls generalizing s with
  | nil => exact h
  | cons x ls ih => exact ih (h.modLane hf)

theorem State.CountersBounded.moveSwitchLanes (h : s.CountersBounded) (old : State) (sws : List LaneId) :
    (sws.foldl (fun t sw => State.moveSwitchLane old t sw) s).CountersBounded := by
  induction sws generalizing s with
  | nil => exact h
  | cons sw sws ih =>
    refine ih ?_
    unfold State.moveSwitchLane
    dsimp only
    split
    · exact h
    · exact h.modLane fun _ hv => hv

/-- The lane sides of a state whose two tables are these. -/
theorem State.lane_eq (s : State) (x : LaneSide) :
    s.lane x = match x.side with
      | .line => s.lineSide[x.lane]
      | .switch => s.switchSide[x.lane] := rfl

/-- A change of every lane side, by its two tables. -/
theorem State.lane_mapVector {f : LaneState → LaneState} (hline : t.lineSide = mapVector f s.lineSide)
    (hswitch : t.switchSide = mapVector f s.switchSide) (x : LaneSide) : t.lane x = f (s.lane x) := by
  obtain ⟨d, i⟩ := x
  cases d with
  | line => exact (congrArg (fun v : Vector LaneState 8 => v[i]) hline).trans (mapVector_getElem _ _ _ i.isLt)
  | switch => exact (congrArg (fun v : Vector LaneState 8 => v[i]) hswitch).trans (mapVector_getElem _ _ _ i.isLt)

theorem State.lane_startUp (s : State) (pins : StrapPins) (cause : ResetCause) (x : LaneSide) :
    (s.startUp pins cause).lane x = (s.lane x).afterReset := State.lane_mapVector rfl rfl x

theorem State.lane_releaseReset (s : State) (pins : StrapPins) (x : LaneSide) :
    (s.releaseReset pins).lane x = (s.lane x).afterReset.startQualifying := by
  rw [State.releaseReset, State.lane_modAllLanes, State.lane_startUp]
  rfl

theorem State.lane_holdReset (s : State) (x : LaneSide) : s.holdReset.lane x = (s.lane x).holdReset :=
  State.lane_mapVector rfl rfl x

theorem State.lane_startExchangeReset (s : State) (x : LaneSide) :
    s.startExchangeReset.lane x = { s.lane x with monitor := (s.lane x).monitor.stopScan } :=
  State.lane_modAllLanes _ _ _

theorem State.lane_tick (s : State) (x : LaneSide) :
    s.tick.lane x = if s.resetHeld then s.lane x else (s.lane x).tick := by
  unfold State.tick
  split
  · rfl
  · exact State.lane_mapVector rfl rfl x

/-- R171: what every lane side has after a power-on, whatever its detect. -/
theorem LaneState.startQualifying_keeps (v : LaneState) :
    v.startQualifying.taps = v.taps ∧ v.startQualifying.counters = v.counters := by
  unfold LaneState.startQualifying
  split <;> exact ⟨rfl, rfl⟩

theorem State.lane_powerUp_keeps (s : State) (pins : StrapPins) (lowpwr held : Bool)
    (lineDetect switchDetect : BitVec 8) (x : LaneSide) :
    ((s.powerUp pins lowpwr held lineDetect switchDetect).lane x).taps = LaneState.reset.taps ∧
    ((s.powerUp pins lowpwr held lineDetect switchDetect).lane x).counters = LaneState.reset.counters := by
  unfold State.powerUp
  dsimp only
  split
  · have hlane := State.lane_startUp { s with
      lowpwr := lowpwr, resetHeld := held, initByPowerOn := true, releaseCause := .powerOn, faultRecord := none
      laterFaults := 0, lineSide := withDetects lineDetect, switchSide := withDetects switchDetect } pins .powerOn x
    exact ⟨(congrArg LaneState.taps hlane).trans rfl, (congrArg LaneState.counters hlane).trans rfl⟩
  · rw [State.lane_modAllLanes, (LaneState.startQualifying_keeps _).1, (LaneState.startQualifying_keeps _).2,
      State.lane_startUp]
    exact ⟨rfl, rfl⟩

theorem State.lane_clearBlock (s : State) (b : Nat) (x : LaneSide) : (s.clearBlock b).lane x = s.lane x :=
  State.clearBlock_keeps (fun t => t.lane x) (fun _ _ => rfl) (fun _ _ _ => rfl) (fun _ _ _ => rfl) s b

theorem Move.countersBounded (m : Move k s xs t ys) (h : s.CountersBounded) : t.CountersBounded := by
  have hreset : LaneState.reset.counters.bounded = true := by decide
  cases m with
  | lane _ x f htaps hcounters => exact h.modLane hcounters
  | everyLane _ f hf =>
    intro x
    rw [State.lane_modAllLanes, (hf _).2]
    exact h x
  | setup _ l v =>
    have hadjust : (s.adjustRate l v.rate).CountersBounded := by
      unfold State.adjustRate
      split
      · exact h
      · exact h.modLanes (f := fun w => { w with taps := w.taps.forRate v.rate }) (fun _ hv => hv) _
    intro x
    rw [State.lane_modLeg]
    exact hadjust x
  | remap _ map =>
    exact State.CountersBounded.moveSwitchLanes (s := { s with map := map }) h s allLanes
  | reportFault _ r =>
    obtain ⟨_, _, _, _, hr⟩ := s.reportFault_eq_update r
    rw [hr]
    exact h
  | clearBlock _ b =>
    intro x
    rw [State.lane_clearBlock]
    exact h x
  | take _ n awaited => cases awaited <;> exact h
  | powerUp pins lowpwr held lineDetect switchDetect =>
    intro x
    rw [(State.lane_powerUp_keeps s pins lowpwr held lineDetect switchDetect x).2]
    exact hreset
  | holdReset =>
    intro x
    rw [State.lane_holdReset]
    exact h x
  | releaseReset pins =>
    intro x
    rw [State.lane_releaseReset, (LaneState.startQualifying_keeps _).2]
    exact hreset
  | startExchangeReset =>
    intro x
    rw [State.lane_startExchangeReset]
    exact h x
  | tick =>
    intro x
    rw [State.lane_tick]
    split <;> exact h x
  | _ => exact h

/-! ### The leg counters -/

theorem State.LegCountersBounded.modLeg (h : s.LegCountersBounded) {f : Leg → Leg}
    (hf : (f (s.leg l)).CountersBounded) : (s.modLeg l f).LegCountersBounded := by
  intro m
  rw [State.leg_modLeg]
  split
  · exact hf
  · exact h m

theorem State.LegCountersBounded.of_sameButLanes (h : s.LegCountersBounded) (hs : s.SameButLanes t) :
    t.LegCountersBounded := by
  obtain ⟨_, _, _, rfl⟩ := hs
  exact h

theorem State.leg_startUp (s : State) (pins : StrapPins) (cause : ResetCause) (l : LegId) :
    (s.startUp pins cause).leg l = Leg.reset (strapRate pins.rate) := replicate_getElem_fin _ l

theorem State.leg_powerUp (s : State) (pins : StrapPins) (lowpwr held : Bool) (lineDetect switchDetect : BitVec 8)
    (l : LegId) : (s.powerUp pins lowpwr held lineDetect switchDetect).leg l = Leg.reset (strapRate pins.rate) := by
  cases held <;> exact replicate_getElem_fin _ l

theorem State.leg_releaseReset (s : State) (pins : StrapPins) (l : LegId) :
    (s.releaseReset pins).leg l = Leg.reset (strapRate pins.rate) := replicate_getElem_fin _ l

theorem State.leg_tick (s : State) (l : LegId) : s.tick.leg l = if s.resetHeld then s.leg l else (s.leg l).tick := by
  unfold State.tick
  split
  · rfl
  · exact mapVector_getElem _ _ _ l.isLt

theorem State.leg_clearBlock (s : State) (b : Nat) (l : LegId) : (s.clearBlock b).leg l = s.leg l :=
  State.clearBlock_keeps (fun t => t.leg l) (fun _ _ => rfl) (fun _ _ _ => rfl) (fun _ _ _ => rfl) s b

theorem Leg.countersBounded_reset (rate : RateClass) : (Leg.reset rate).CountersBounded :=
  ⟨Nat.zero_le _, Nat.zero_le _, Nat.zero_le _⟩

theorem Move.legCountersBounded (m : Move k s xs t ys) (h : s.LegCountersBounded) : t.LegCountersBounded := by
  cases m with
  | leg _ l f hrate hintent hstate hcounters => exact h.modLeg (hcounters (h l))
  | intent _ l => exact h.modLeg (h l)
  | setup _ l v =>
    exact (h.of_sameButLanes (State.adjustRate_sameButLanes s l v.rate)).modLeg (State.leg_adjustRate s l v.rate l ▸ h l)
  | remap _ map => exact h.of_sameButLanes (State.remap_sameButLanes s map)
  | reportFault _ r =>
    obtain ⟨_, _, _, _, hr⟩ := s.reportFault_eq_update r
    rw [hr]
    exact h
  | clearBlock _ b =>
    intro l
    rw [State.leg_clearBlock]
    exact h l
  | take _ n awaited => cases awaited <;> exact h
  | powerUp pins lowpwr held lineDetect switchDetect =>
    intro l
    rw [State.leg_powerUp]
    exact Leg.countersBounded_reset _
  | releaseReset pins =>
    intro l
    rw [State.leg_releaseReset]
    exact Leg.countersBounded_reset _
  | tick =>
    intro l
    rw [State.leg_tick]
    split <;> exact h l
  | _ => exact h

/-! ### The summary, the enables and the fault log -/

theorem getLsbD_and_compl_of_not {a bits : BitVec 32} (h : bits.getLsbD 24 = false) :
    (a &&& ~~~bits).getLsbD 24 = a.getLsbD 24 := by
  rw [BitVec.getLsbD_and, BitVec.getLsbD_not, h]
  simp

theorem State.FaultLogSound.lower (h : s.FaultLogSound) {bits : BitVec 32} (hb : bits.getLsbD 24 = false) :
    (s.lower bits).FaultLogSound := by
  refine ⟨?_, h.2⟩
  show (s.summary &&& ~~~bits).getLsbD 24 = true ↔ _
  rw [getLsbD_and_compl_of_not hb]
  exact h.1

theorem State.FaultLogSound.raise (h : s.FaultLogSound) {bits : BitVec 32} (hb : bits.getLsbD 24 = false) :
    (s.raise bits).FaultLogSound := by
  refine ⟨?_, h.2⟩
  show (s.summary ||| bits).getLsbD 24 = true ↔ _
  rw [BitVec.getLsbD_or, hb, Bool.or_false]
  exact h.1

theorem State.FaultLogSound.reportFault (h : s.FaultLogSound) (r : FaultRecord) : (s.reportFault r).FaultLogSound := by
  obtain ⟨hbit, hcount, hempty⟩ := h
  unfold State.reportFault
  split
  · next hnone =>
    refine ⟨iff_of_true ?_ rfl, hcount, nofun⟩
    show (s.summary ||| faultBit).getLsbD 24 = true
    rw [BitVec.getLsbD_or, show faultBit.getLsbD 24 = true from rfl, Bool.or_true]
  · next r' hsome =>
    refine ⟨hbit, countUp_le hcount, fun hnone => ?_⟩
    rw [hsome] at hnone
    cases hnone

theorem State.FaultLogSound.of_same (h : s.FaultLogSound) (hsummary : t.summary = s.summary)
    (hrecord : t.faultRecord = s.faultRecord) (hcount : t.laterFaults = s.laterFaults) : t.FaultLogSound := by
  rw [State.FaultLogSound, hsummary, hrecord, hcount]
  exact h

/-- R169, R171: at a start bit 24 tells of a record kept. -/
theorem State.faultLogSound_startUp (pins : StrapPins) (cause : ResetCause) (hcount : s.laterFaults ≤ 255)
    (hempty : s.faultRecord = none → s.laterFaults = 0) : (s.startUp pins cause).FaultLogSound := by
  refine ⟨?_, hcount, hempty⟩
  show (if s.faultRecord.isSome then faultBit else 0).getLsbD 24 = true ↔ s.faultRecord.isSome = true
  cases s.faultRecord with
  | none => simp
  | some r => exact iff_of_true (show faultBit.getLsbD 24 = true by decide) rfl

theorem Move.faultLogSound (m : Move k s xs t ys) (h : s.FaultLogSound) : t.FaultLogSound := by
  cases m with
  | setup _ l v =>
    obtain ⟨_, _, _, hs⟩ := State.adjustRate_sameButLanes s l v.rate
    rw [hs]
    exact h
  | remap _ map =>
    obtain ⟨_, _, _, hs⟩ := State.remap_sameButLanes s map
    rw [hs]
    exact h
  | raise _ bits _ hfault => exact h.raise hfault
  | lower _ bits hfault => exact h.lower hfault
  | reportFault _ r => exact h.reportFault r
  | releaseFaults =>
    refine ⟨iff_of_false ?_ nofun, Nat.zero_le _, fun _ => rfl⟩
    show (s.summary &&& ~~~faultBit).getLsbD 24 ≠ true
    rw [BitVec.getLsbD_and, show (~~~faultBit).getLsbD 24 = false from rfl, Bool.and_false]
    decide
  | finish _ n => exact (State.FaultLogSound.raise h (getLsbD_slotBit n)).of_same rfl rfl rfl
  | clearBlock _ b =>
    exact h.of_same (State.clearBlock_keeps State.summary (fun _ _ => rfl) (fun _ _ _ => rfl) (fun _ _ _ => rfl) s b)
      (State.clearBlock_keeps State.faultRecord (fun _ _ => rfl) (fun _ _ _ => rfl) (fun _ _ _ => rfl) s b)
      (State.clearBlock_keeps State.laterFaults (fun _ _ => rfl) (fun _ _ _ => rfl) (fun _ _ _ => rfl) s b)
  | take _ n awaited => cases awaited <;> exact h
  | powerUp pins lowpwr held =>
    cases held <;> exact (State.faultLogSound_startUp (s := { s with faultRecord := none, laterFaults := 0 }) pins .powerOn
      (Nat.zero_le _) fun _ => rfl).of_same rfl rfl rfl
  | releaseReset pins =>
    exact (State.faultLogSound_startUp (s := s) pins s.releaseCause h.2.1 h.2.2).of_same rfl rfl rfl
  | startExchangeReset => exact ⟨iff_of_false (by simp [State.startExchangeReset]) nofun, Nat.zero_le _, fun _ => rfl⟩
  | tick =>
    unfold State.tick
    split <;> exact h
  | _ => exact h

theorem or_and_compl {a b m : BitVec 32} (ha : a &&& ~~~m = 0) (hb : b &&& ~~~m = 0) : (a ||| b) &&& ~~~m = 0 := by
  have hsplit : (a ||| b) &&& ~~~m = (a &&& ~~~m) ||| (b &&& ~~~m) := by
    ext i hi
    simp [Bool.and_or_distrib_right]
  rw [hsplit, ha, hb]
  rfl

theorem and_and_compl {a b m : BitVec 32} (ha : a &&& ~~~m = 0) : (a &&& b) &&& ~~~m = 0 := by
  rw [BitVec.and_comm a b, BitVec.and_assoc, ha]
  exact BitVec.and_zero

theorem State.WordsImplemented.of_same (h : s.WordsImplemented) (hsummary : t.summary = s.summary)
    (henables : t.enables = s.enables) : t.WordsImplemented := by
  rw [State.WordsImplemented, hsummary, henables]
  exact h

theorem State.WordsImplemented.reportFault (h : s.WordsImplemented) (r : FaultRecord) :
    (s.reportFault r).WordsImplemented := by
  unfold State.reportFault
  split
  · exact ⟨or_and_compl h.1 (by decide), h.2⟩
  · exact h

theorem implementedBits_and_compl : implementedBits &&& ~~~implementedBits = 0 := by decide

theorem State.wordsImplemented_startUp (s : State) (pins : StrapPins) (cause : ResetCause) :
    (s.startUp pins cause).WordsImplemented := by
  refine ⟨?_, implementedBits_and_compl⟩
  show (if s.faultRecord.isSome then faultBit else 0) &&& ~~~implementedBits = 0
  split <;> decide

theorem Move.wordsImplemented (m : Move k s xs t ys) (h : s.WordsImplemented) : t.WordsImplemented := by
  cases m with
  | setup _ l v =>
    obtain ⟨_, _, _, hs⟩ := State.adjustRate_sameButLanes s l v.rate
    rw [hs]
    exact h
  | remap _ map =>
    obtain ⟨_, _, _, hs⟩ := State.remap_sameButLanes s map
    rw [hs]
    exact h
  | raise _ bits hbits => exact ⟨or_and_compl h.1 hbits, h.2⟩
  | lower _ bits => exact ⟨and_and_compl h.1, h.2⟩
  | reportFault _ r => exact h.reportFault r
  | releaseFaults => exact ⟨and_and_compl h.1, h.2⟩
  | writeEnable _ j v =>
    refine ⟨h.1, ?_⟩
    show replaceEnable s.enables j v &&& ~~~implementedBits = 0
    rw [replaceEnable, BitVec.and_assoc, implementedBits_and_compl]
    exact BitVec.and_zero
  | finish _ n => exact ⟨or_and_compl h.1 (by revert n; decide), h.2⟩
  | clearBlock _ b =>
    exact h.of_same (State.clearBlock_keeps State.summary (fun _ _ => rfl) (fun _ _ _ => rfl) (fun _ _ _ => rfl) s b)
      (State.clearBlock_keeps State.enables (fun _ _ => rfl) (fun _ _ _ => rfl) (fun _ _ _ => rfl) s b)
  | take _ n awaited => cases awaited <;> exact h
  | powerUp pins lowpwr held =>
    cases held <;> exact (State.wordsImplemented_startUp { s with faultRecord := none } pins .powerOn).of_same rfl rfl
  | releaseReset pins => exact (State.wordsImplemented_startUp s pins s.releaseCause).of_same rfl rfl
  | startExchangeReset => exact ⟨BitVec.zero_and, h.2⟩
  | tick =>
    unfold State.tick
    split <;> exact h
  | _ => exact h

/-- What any step does, no invariant known. -/
theorem moves_of_step (ht : step s = .next t) : Moves ⟨False, False⟩ s [] t [] :=
  moves_step ⟨False.elim, False.elim⟩ ht

/-- Settles O59: each of the five ranges through the moves of the step. -/
theorem stepKeepsTheRegistersInRange : Obligations.StepKeepsTheRegistersInRange := by
  intro s t hqueues hcounters hlegs hfaults hwords ht
  have m := moves_of_step ht
  exact ⟨m.keeps (P := fun s _ => s.QueuesBounded) Move.queuesBounded hqueues,
    m.keeps (P := fun s _ => s.CountersBounded) Move.countersBounded hcounters,
    m.keeps (P := fun s _ => s.LegCountersBounded) Move.legCountersBounded hlegs,
    m.keeps (P := fun s _ => s.FaultLogSound) Move.faultLogSound hfaults,
    m.keeps (P := fun s _ => s.WordsImplemented) Move.wordsImplemented hwords⟩

end Sys2Proof.Machine
end

section
/-! The map a permutation and the taps valid (R4, R78): every move keeps both together. -/

namespace Sys2Proof.Machine

variable {k : Known} {s t : State} {xs ys : List InHand} {l : LegId}

/-! ### Membership follows the sources -/

theorem State.fedBy_of_sources (h : ∀ i : LaneId, (t.entry i).source = (s.entry i).source) (sw : LaneId) :
    t.fedBy sw = s.fedBy sw := by
  simp only [State.fedBy, h]

theorem State.legOf_of_sources (hstraps : t.straps = s.straps)
    (h : ∀ i : LaneId, (t.entry i).source = (s.entry i).source) (x : LaneSide) : t.legOf x = s.legOf x := by
  obtain ⟨d, i⟩ := x
  cases d with
  | line => simp only [State.legOf, State.lineOf, hstraps]
  | switch => simp only [State.legOf, State.lineOf, State.fedBy_of_sources h, hstraps]

theorem State.rateOf_of_sources (hstraps : t.straps = s.straps)
    (h : ∀ i : LaneId, (t.entry i).source = (s.entry i).source)
    (hrate : ∀ m, (t.leg m).setup.rate = (s.leg m).setup.rate) (x : LaneSide) : t.rateOf x = s.rateOf x := by
  rw [State.rateOf, State.legOf_of_sources hstraps h, hrate, State.rateOf]

/-- R3: a lane side is a member of the leg it belongs to. -/
theorem State.mem_memberSides (hmap : s.MapPermutes) (x : LaneSide) : x ∈ s.memberSides (s.legOf x) x.side := by
  obtain ⟨d, i⟩ := x
  cases d with
  | line => exact List.mem_map.mpr ⟨i, State.mem_members.mpr rfl, rfl⟩
  | switch =>
    refine List.mem_map.mpr ⟨s.fedBy i, State.mem_members.mpr rfl, ?_⟩
    simp [State.sideOf, State.source_fedBy hmap]

theorem State.mem_allMemberSides_iff (hmap : s.MapPermutes) {x : LaneSide} :
    x ∈ s.allMemberSides l ↔ s.legOf x = l := by
  constructor
  · intro hx
    rcases List.mem_append.mp hx with hx | hx
    · exact State.legOf_of_mem_memberSides hmap hx
    · exact State.legOf_of_mem_memberSides hmap hx
  · rintro rfl
    have hx := State.mem_memberSides hmap x
    cases hd : x.side with
    | line => exact List.mem_append_left _ (hd ▸ hx)
    | switch => exact List.mem_append_right _ (hd ▸ hx)

/-! ### Both together -/

/-- The map a permutation, and every triple valid for its rate class. -/
def State.MapAndTaps (s : State) : Prop := s.MapPermutes ∧ s.TapsValid

theorem State.MapAndTaps.of_same (h : s.MapAndTaps) (hstraps : t.straps = s.straps)
    (hsource : ∀ i : LaneId, (t.entry i).source = (s.entry i).source)
    (hrate : ∀ m, (t.leg m).setup.rate = (s.leg m).setup.rate) (htaps : ∀ x, (t.lane x).taps = (s.lane x).taps) :
    t.MapAndTaps := by
  obtain ⟨hmap, hvalid⟩ := h
  refine ⟨fun sw => ?_, fun x => ?_⟩
  · obtain ⟨i, hi⟩ := hmap sw
    exact ⟨i, (hsource i).trans hi⟩
  · rw [htaps, State.rateOf_of_sources hstraps hsource hrate]
    exact hvalid x

theorem State.MapAndTaps.modLeg (h : s.MapAndTaps) {f : Leg → Leg} (hf : (f (s.leg l)).setup.rate = (s.leg l).setup.rate) :
    (s.modLeg l f).MapAndTaps := by
  refine h.of_same rfl (fun _ => rfl) (fun m => ?_) (fun _ => rfl)
  rw [State.leg_modLeg]
  split
  · next hm => rw [hf, hm]
  · rfl

/-- R79, R80: a triple in the form of a rate class is valid for it. -/
theorem Taps.valid_forRate {rate : RateClass} {v : Taps} (new : RateClass) (h : v.valid rate = true) :
    (v.forRate new).valid new = true := by
  obtain ⟨⟨hpre, hmain, hpost⟩, hbudget, hfloor⟩ := Taps.valid_iff.mp h
  have hlow := (preLow_bounds rate).1
  have hmag := magnitude_of_nonpos hpre.2
  simp only [Taps.budget, Taps.floor] at hbudget hfloor
  refine Taps.valid_iff.mpr ?_
  cases new with
  | rcA =>
    have hzero : magnitude 0 = 0 := rfl
    simp only [Taps.forRate, Taps.InRange, preLow, Taps.budget, Taps.floor, hzero]
    omega
  | rcB | rcC =>
    simp only [Taps.forRate, Taps.InRange, preLow, Taps.budget, Taps.floor]
    omega

theorem Taps.valid_reset (rate : RateClass) : LaneState.reset.taps.valid rate = true := by
  cases rate <;> decide

/-- R157, R79: new setup values, with the member transmitters brought into range. -/
theorem State.MapAndTaps.setup (h : s.MapAndTaps) (v : Setup) :
    ((s.adjustRate l v.rate).modLeg l (fun g => { g with setup := v })).MapAndTaps := by
  obtain ⟨hmap, hvalid⟩ := h
  have hentry (i : LaneId) : ((s.adjustRate l v.rate).modLeg l (fun g => { g with setup := v })).entry i = s.entry i :=
    State.entry_adjustRate s l v.rate i
  have hlegOf (x : LaneSide) := State.legOf_of_sources (s := s)
    (t := (s.adjustRate l v.rate).modLeg l (fun g => { g with setup := v })) (State.adjustRate_straps s l v.rate)
    (fun i => by rw [hentry]) x
  refine ⟨fun sw => ?_, fun x => ?_⟩
  · obtain ⟨i, hi⟩ := hmap sw
    exact ⟨i, by rw [hentry, hi]⟩
  · rw [State.rateOf, hlegOf, State.leg_modLeg, State.lane_modLeg]
    by_cases hx : s.legOf x = l
    · rw [if_pos hx]
      unfold State.adjustRate
      have hv : (s.lane x).taps.valid (s.leg l).setup.rate = true := hx ▸ hvalid x
      split
      · next hsame => exact hsame ▸ hv
      · next hnew =>
        have hidem : ∀ w : LaneState, { w with taps := (w.taps.forRate v.rate).forRate v.rate } =
            { w with taps := w.taps.forRate v.rate } := fun w => by cases v.rate <;> rfl
        rw [State.lane_modLanes_of_idempotent hidem _ ((State.mem_allMemberSides_iff hmap).mpr hx)]
        exact Taps.valid_forRate v.rate hv
    · rw [if_neg hx, State.leg_adjustRate,
        State.lane_adjustRate_of_notMem s l v.rate fun hm => hx ((State.mem_allMemberSides_iff hmap).mp hm)]
      exact hvalid x

/-! ### A new map (R21, R80) -/

theorem State.lane_moveSwitchLane (old s : State) (sw : LaneId) (x : LaneSide) :
    (State.moveSwitchLane old s sw).lane x =
      if x = ⟨.switch, sw⟩ ∧ old.legOf x ≠ s.legOf x then
        { s.lane x with taps := (s.lane x).taps.forRate (s.rateOf x) } else s.lane x := by
  unfold State.moveSwitchLane
  dsimp only
  split
  · next hleg =>
    rw [if_neg]
    rintro ⟨rfl, hne⟩
    exact hne hleg
  · next hleg =>
    rw [State.lane_modLane]
    split
    · next hx =>
      subst hx
      rw [if_pos ⟨rfl, hleg⟩]
    · next hx => rw [if_neg fun h => hx h.1]

theorem State.legOf_moveSwitchLane (old s : State) (sw : LaneId) (x : LaneSide) :
    (State.moveSwitchLane old s sw).legOf x = s.legOf x := by
  unfold State.moveSwitchLane
  dsimp only
  split <;> rfl

theorem State.rateOf_moveSwitchLane (old s : State) (sw : LaneId) (x : LaneSide) :
    (State.moveSwitchLane old s sw).rateOf x = s.rateOf x := by
  unfold State.moveSwitchLane
  dsimp only
  split <;> rfl

theorem State.legOf_moveSwitchLanes (old s : State) (sws : List LaneId) (x : LaneSide) :
    (sws.foldl (fun t sw => State.moveSwitchLane old t sw) s).legOf x = s.legOf x :=
  foldl_keeps (fun t => t.legOf x) _ (fun t sw => State.legOf_moveSwitchLane old t sw x) sws s

theorem State.rateOf_moveSwitchLanes (old s : State) (sws : List LaneId) (x : LaneSide) :
    (sws.foldl (fun t sw => State.moveSwitchLane old t sw) s).rateOf x = s.rateOf x :=
  foldl_keeps (fun t => t.rateOf x) _ (fun t sw => State.rateOf_moveSwitchLane old t sw x) sws s

/-- R80: a switch lane that comes to another leg takes the form of that leg's rate class, and no other lane side
changes. -/
theorem State.lane_moveSwitchLanes (old s : State) {sws : List LaneId} (hn : sws.Nodup) (x : LaneSide) :
    (sws.foldl (fun t sw => State.moveSwitchLane old t sw) s).lane x =
      if x.side = .switch ∧ x.lane ∈ sws ∧ old.legOf x ≠ s.legOf x then
        { s.lane x with taps := (s.lane x).taps.forRate (s.rateOf x) } else s.lane x := by
  induction sws generalizing s with
  | nil => simp
  | cons sw sws ih =>
    obtain ⟨hsw, hn⟩ := List.nodup_cons.mp hn
    rw [List.foldl_cons, ih _ hn, State.legOf_moveSwitchLane, State.rateOf_moveSwitchLane, State.lane_moveSwitchLane]
    obtain ⟨d, i⟩ := x
    by_cases hi : d = .switch ∧ i = sw
    · obtain ⟨rfl, rfl⟩ := hi
      simp [hsw]
    · have hne : (⟨d, i⟩ : LaneSide) ≠ ⟨.switch, sw⟩ := fun h => by
        cases h
        exact hi ⟨rfl, rfl⟩
      have hmem : d = .switch → (i ∈ sw :: sws ↔ i ∈ sws) := fun hd =>
        ⟨fun h => (List.mem_cons.mp h).resolve_left fun h => hi ⟨hd, h⟩, List.mem_cons_of_mem sw⟩
      by_cases hd : d = .switch
      · simp [hne, hmem hd]
      · simp [hne, hd]

theorem State.MapAndTaps.remap (h : s.MapAndTaps) {map : Vector MapEntry 8}
    (hsource : ∀ sw, ∃ i : LaneId, map[i].source = sw) :
    (allLanes.foldl (fun t sw => State.moveSwitchLane s t sw) { s with map := map }).MapAndTaps := by
  obtain ⟨-, hvalid⟩ := h
  refine ⟨fun sw => ?_, fun x => ?_⟩
  · obtain ⟨i, hi⟩ := hsource sw
    exact ⟨i, by rw [State.entry_moveSwitchLanes]; exact hi⟩
  · rw [State.lane_moveSwitchLanes s _ (by decide), State.rateOf_moveSwitchLanes]
    split
    · exact Taps.valid_forRate _ (hvalid x)
    · next hstay =>
      have hleg : s.legOf x = State.legOf { s with map := map } x := by
        by_contra hne
        have hd : x.side = .switch := by
          cases hx : x.side with
          | switch => rfl
          | line => exact absurd (by simp only [State.legOf, State.lineOf, hx]) hne
        exact hstay ⟨hd, mem_allLanes x.lane, hne⟩
      have hrate : State.rateOf { s with map := map } x = s.rateOf x := by
        rw [State.rateOf, ← hleg]
        rfl
      rw [hrate]
      exact hvalid x

/-! ### The starts -/

theorem State.mapAndTaps_of_reset (hmap : s.map = resetMap)
    (htaps : ∀ x, (s.lane x).taps = LaneState.reset.taps) : s.MapAndTaps := by
  refine ⟨fun sw => ?_, fun x => ?_⟩
  · have hid : ∀ sw : LaneId, ∃ i : LaneId, resetMap[i].source = sw := by decide
    obtain ⟨i, hi⟩ := hid sw
    exact ⟨i, by rw [State.entry, hmap, hi]⟩
  · rw [htaps]
    exact Taps.valid_reset _

theorem Move.mapAndTaps (m : Move k s xs t ys) (h : s.MapAndTaps) : t.MapAndTaps := by
  cases m with
  | lane _ x f htaps =>
    refine ⟨h.1, fun y => ?_⟩
    rw [State.lane_modLane, State.rateOf_modLane]
    split
    · next hy =>
      subst hy
      exact htaps h.1 _ (h.2 y)
    · exact h.2 y
  | everyLane _ f hf =>
    exact h.of_same rfl (fun _ => rfl) (fun _ => rfl) fun x => by rw [State.lane_modAllLanes, (hf _).1]
  | leg _ l f hrate => exact h.modLeg hrate
  | intent _ l => exact h.modLeg rfl
  | setup _ l v => exact h.setup v
  | function _ l i f =>
    refine h.of_same rfl (fun j => ?_) (fun _ => rfl) fun _ => rfl
    by_cases hj : j = i
    · subst hj
      simp [State.entry]
    · simp [State.entry, Fin.val_inj, Ne.symm hj]
  | remap _ map hsource => exact h.remap hsource
  | reportFault _ r =>
    obtain ⟨_, _, _, _, hr⟩ := s.reportFault_eq_update r
    rw [hr]
    exact h
  | clearBlock _ b =>
    refine h.of_same ?_ (fun i => ?_) (fun l => ?_) (fun x => ?_)
    · exact State.clearBlock_keeps State.straps (fun _ _ => rfl) (fun _ _ _ => rfl) (fun _ _ _ => rfl) s b
    · exact State.clearBlock_keeps (fun t => (t.entry i).source) (fun _ _ => rfl) (fun _ _ _ => rfl) (fun _ _ _ => rfl) s b
    · rw [State.leg_clearBlock]
    · rw [State.lane_clearBlock]
  | take _ n awaited => cases awaited <;> exact h
  | powerUp pins lowpwr held lineDetect switchDetect =>
    refine State.mapAndTaps_of_reset ?_ fun x =>
      (State.lane_powerUp_keeps s pins lowpwr held lineDetect switchDetect x).1
    cases held <;> rfl
  | holdReset =>
    exact h.of_same rfl (fun _ => rfl) (fun _ => rfl) fun x => by
      rw [State.lane_holdReset]
      rfl
  | releaseReset pins =>
    refine State.mapAndTaps_of_reset rfl fun x => ?_
    rw [State.lane_releaseReset, (LaneState.startQualifying_keeps _).1]
    rfl
  | startExchangeReset =>
    exact h.of_same rfl (fun _ => rfl) (fun _ => rfl) fun x => by rw [State.lane_startExchangeReset]
  | tick =>
    have hstraps : s.tick.straps = s.straps ∧ s.tick.map = s.map := by
      unfold State.tick
      split <;> exact ⟨rfl, rfl⟩
    refine h.of_same hstraps.1 (fun i => ?_) (fun l => ?_) (fun x => ?_)
    · rw [State.entry, hstraps.2]
      rfl
    · rw [State.leg_tick]
      split <;> rfl
    · rw [State.lane_tick]
      split <;> rfl
  | _ => exact h

/-- Settles O57: the map and the taps together through the moves of the step. -/
theorem stepKeepsMapAndTaps : Obligations.StepKeepsMapAndTaps := by
  intro s t hmap htaps ht
  exact (moves_of_step ht).keeps (P := fun s _ => s.MapAndTaps) Move.mapAndTaps ⟨hmap, htaps⟩

end Sys2Proof.Machine
end

section
/-! The canonical form of the memory, and the cells of the pages (R115): every move keeps them. -/

namespace Sys2Proof.Machine

variable {k : Known} {s t : State} {xs ys : List InHand} {p : PageId}

/-! ### The canonical form -/

theorem State.clearBlock_mem (s : State) (b : Nat) : ∃ n, (s.clearBlock b).mem = (s.mem.clear (b * 64) 64).clear (b * 64) n := by
  have hnone (m : Memory) (a : Nat) : m.clear a 0 = m := by
    rw [Memory.clear, List.filter_eq_self]
    intro c _
    simp only [Nat.add_zero, Bool.not_eq_true', Bool.and_eq_false_iff, decide_eq_false_iff_not]
    omega
  unfold State.clearBlock
  dsimp only
  split
  · exact ⟨0, (hnone _ _).symm⟩
  · split
    · exact ⟨0x400, rfl⟩
    · exact ⟨0, (hnone _ _).symm⟩

theorem Move.wf (m : Move k s xs t ys) (h : s.mem.wf = true) : t.mem.wf = true := by
  cases m with
  | setup _ l v =>
    obtain ⟨_, _, _, hs⟩ := State.adjustRate_sameButLanes s l v.rate
    rw [hs]
    exact h
  | remap _ map =>
    obtain ⟨_, _, _, hs⟩ := State.remap_sameButLanes s map
    rw [hs]
    exact h
  | reportFault _ r =>
    obtain ⟨_, _, _, _, hr⟩ := s.reportFault_eq_update r
    rw [hr]
    exact h
  | openPage | freePage => exact Memory.wf_clear _ _ _ h
  | cell | lastCell | store => exact Memory.wf_write _ _ _ h
  | finish _ n result => exact Memory.wf_writeBytes result _ _ h
  | take _ n awaited =>
    cases awaited
    · exact h
    · exact Memory.wf_clear _ _ _ h
  | clearBlock _ b =>
    obtain ⟨n, hn⟩ := s.clearBlock_mem b
    rw [hn]
    exact Memory.wf_clear _ _ _ (Memory.wf_clear _ _ _ h)
  | powerUp pins lowpwr held => cases held <;> rfl
  | holdReset => exact State.holdReset_wf s h
  | releaseReset => rfl
  | completeExchangeReset => rfl
  | tick =>
    unfold State.tick
    split <;> exact h
  | _ => exact h

/-! ### The cells -/

/-- R115: what holds of one page: its cells done in range, and the cells from there on 0. -/
def PageSound (c : Page) (m : Memory) (p : PageId) : Prop :=
  c.cellsDone ≤ 512 ∧ (∀ n left, c.state = .busy n left → c.cellsDone < 512) ∧
  ∀ j, c.cellsDone ≤ j → j < 512 → m.read (pageBase p + 0x200 + j) = 0

theorem State.cellsSound_iff : s.CellsSound ↔ ∀ p, PageSound (s.page p) s.mem p := Iff.rfl

/-- A cell of one page is none of another. -/
theorem cell_ne {q : PageId} (h : q ≠ p) {i j : Nat} (hi : i < 512) (hj : j < 512) :
    pageBase q + 0x200 + i ≠ pageBase p + 0x200 + j := by
  have hne : q.val ≠ p.val := fun hv => h (Fin.ext hv)
  simp only [pageBase]
  omega

/-- The stored bytes of the slots lie below every cell. -/
theorem cell_above (p : PageId) (j : Nat) : 0x1000 ≤ pageBase p + 0x200 + j := by
  simp only [pageBase]
  omega

theorem PageSound.of_page {c c' : Page} {m : Memory} (h : PageSound c m p) (hdone : c'.cellsDone = c.cellsDone)
    (hbusy : ∀ n left, c'.state = .busy n left → ∃ n' left', c.state = .busy n' left') : PageSound c' m p := by
  obtain ⟨hle, hrun, hcells⟩ := h
  refine ⟨hdone ▸ hle, fun n left hc => ?_, fun j hj => hcells j (hdone ▸ hj)⟩
  obtain ⟨n', left', hc'⟩ := hbusy n left hc
  exact hdone ▸ hrun n' left' hc'

theorem PageSound.of_mem {c : Page} {m m' : Memory} (h : PageSound c m p)
    (hmem : ∀ j < 512, m.read (pageBase p + 0x200 + j) = 0 → m'.read (pageBase p + 0x200 + j) = 0) :
    PageSound c m' p := by
  obtain ⟨hle, hrun, hcells⟩ := h
  exact ⟨hle, hrun, fun j hj hlt => hmem j hlt (hcells j hj hlt)⟩

/-- A page with no cell done and every cell 0. -/
theorem pageSound_of_clear {c : Page} {m : Memory} (hdone : c.cellsDone = 0)
    (hmem : ∀ j < 512, m.read (pageBase p + 0x200 + j) = 0) : PageSound c m p :=
  ⟨by rw [hdone]; decide, fun _ _ _ => by rw [hdone]; decide, fun j _ hj => hmem j hj⟩

theorem State.CellsSound.modPage (h : s.CellsSound) {m : Memory} {f : Page → Page}
    (hpage : PageSound (f (s.page p)) m p)
    (hrest : ∀ q, q ≠ p → ∀ j < 512, s.mem.read (pageBase q + 0x200 + j) = 0 → m.read (pageBase q + 0x200 + j) = 0) :
    ({ s with mem := m }.modPage p f).CellsSound := by
  refine State.cellsSound_iff.mpr fun q => ?_
  rw [State.page_modPage]
  split
  · next hq =>
    subst hq
    exact hpage
  · next hq => exact PageSound.of_mem (h q) (hrest q hq)

/-- R118, R116: a page whose cells are cleared. -/
theorem State.CellsSound.openPage (h : s.CellsSound) {c : Page} (hdone : c.cellsDone = 0) :
    (s.openPage p c).CellsSound := by
  refine h.modPage (pageSound_of_clear hdone fun j hj => ?_) fun q hq j hj hz => ?_
  · rw [Memory.read_clear, if_pos (by omega)]
  · rw [Memory.read_clear, hz, ite_self]

/-- R120: a cell written where the first one not done stands. -/
theorem State.CellsSound.writeCell (h : s.CellsSound) (hw : s.mem.wf = true) {n : SlotId} {left : Nat}
    (hp : (s.page p).state = .busy n left) (count : Byte) {st : PageState} {o : ScanOutcome}
    (hst : ∀ n left, st = .busy n left → (s.page p).cellsDone + 1 < 512) : (s.writeCell p count st o).CellsSound := by
  obtain ⟨-, hrun, hcells⟩ := h p
  have hlt := hrun n left hp
  refine h.modPage ⟨hlt, hst, fun j hj hj' => ?_⟩ fun q hq j hj hz => ?_
  · have hj : (s.page p).cellsDone + 1 ≤ j := hj
    rw [Memory.read_write _ _ _ _ hw, if_neg (by omega)]
    exact hcells j (by omega) hj'
  · rw [Memory.read_write _ _ _ _ hw, if_neg (cell_ne hq hj hlt), hz]

/-- What an update of the bytes below the pages leaves. -/
theorem State.CellsSound.of_mem (h : s.CellsSound) (hpages : t.pages = s.pages)
    (hmem : ∀ a, 0x1000 ≤ a → s.mem.read a = 0 → t.mem.read a = 0) : t.CellsSound := by
  refine State.cellsSound_iff.mpr fun q => ?_
  rw [State.page, hpages]
  exact PageSound.of_mem (h q) fun j _ => hmem _ (cell_above q j)

theorem State.CellsSound.of_pages (h : s.CellsSound) (hmem : t.mem = s.mem)
    (hdone : ∀ q, (t.page q).cellsDone = (s.page q).cellsDone)
    (hbusy : ∀ q n left, (t.page q).state = .busy n left → ∃ n' left', (s.page q).state = .busy n' left') :
    t.CellsSound := by
  refine State.cellsSound_iff.mpr fun q => ?_
  rw [hmem]
  exact PageSound.of_page (h q) (hdone q) (hbusy q)

theorem State.cellsSound_of_reset (hpages : s.pages = Vector.replicate 4 Page.reset) (hmem : s.mem = []) :
    s.CellsSound := by
  refine State.cellsSound_iff.mpr fun q => ?_
  rw [State.page, hpages, replicate_getElem_fin, hmem]
  exact pageSound_of_clear rfl fun _ _ => rfl

theorem State.CellsSound.clearBlock (h : s.CellsSound) (b : Nat) : (s.clearBlock b).CellsSound := by
  have hcleared : State.CellsSound { s with mem := s.mem.clear (b * 64) 64 } :=
    h.of_mem rfl fun a _ hz => by
      show (s.mem.clear (b * 64) 64).read a = 0
      rw [Memory.read_clear, hz, ite_self]
  unfold State.clearBlock
  dsimp only
  split
  · exact hcleared
  · split
    · next hb =>
      obtain ⟨hlow, hhigh, hmod⟩ := hb
      refine hcleared.modPage (pageSound_of_clear rfl fun j hj => ?_) fun q _ j _ hz => ?_
      · have hbase : pageBase (Fin.ofNat 4 ((b * 64 - 0x1000) / 0x400)) = b * 64 := by
          simp only [pageBase, Fin.ofNat]
          omega
        rw [hbase, Memory.read_clear, if_pos (by omega)]
      · rw [Memory.read_clear, hz, ite_self]
    · exact hcleared

theorem State.page_holdReset (s : State) (q : PageId) : s.holdReset.page q = (s.page q).stopScan :=
  mapVector_getElem _ _ _ q.isLt

theorem State.CellsSound.holdReset (h : s.CellsSound) : s.holdReset.CellsSound := by
  refine State.cellsSound_iff.mpr fun q => ?_
  rw [State.page_holdReset]
  cases hq : (s.page q).state with
  | busy n left =>
    have hstop : (s.page q).stopScan = Page.reset := by rw [Page.stopScan, hq]
    rw [hstop]
    exact pageSound_of_clear rfl fun j hj => State.holdReset_cell s q n left _ hq (by omega)
  | free | held =>
    have hstop : (s.page q).stopScan = s.page q := by rw [Page.stopScan, hq]
    rw [hstop]
    exact PageSound.of_mem (h q) fun j _ => State.read_clearStopped_of_zero s allPages s.mem _

theorem State.page_tick (s : State) (q : PageId) : s.tick.page q = if s.resetHeld then s.page q else (s.page q).tick := by
  unfold State.tick
  split
  · rfl
  · exact mapVector_getElem _ _ _ q.isLt

theorem Page.tick_keeps (c : Page) :
    c.tick.cellsDone = c.cellsDone ∧ ∀ n left, c.tick.state = .busy n left → ∃ n' left', c.state = .busy n' left' := by
  unfold Page.tick
  split
  · next n left hc => exact ⟨rfl, fun _ _ _ => ⟨n, left, hc⟩⟩
  · exact ⟨rfl, fun n left hc => ⟨n, left, hc⟩⟩

theorem State.CellsSound.tick (h : s.CellsSound) : s.tick.CellsSound := by
  have hmem : s.tick.mem = s.mem := by
    unfold State.tick
    split <;> rfl
  refine h.of_pages hmem (fun q => ?_) (fun q n left hq => ?_)
  · rw [State.page_tick]
    split
    · rfl
    · exact (Page.tick_keeps _).1
  · rw [State.page_tick] at hq
    split at hq
    · exact ⟨n, left, hq⟩
    · exact (Page.tick_keeps _).2 n left hq

theorem Move.cellsSound (m : Move k s xs t ys) (hw : s.mem.wf = true) (h : s.CellsSound) : t.CellsSound := by
  cases m with
  | setup _ l v =>
    obtain ⟨_, _, _, hs⟩ := State.adjustRate_sameButLanes s l v.rate
    rw [hs]
    exact h
  | remap _ map =>
    obtain ⟨_, _, _, hs⟩ := State.remap_sameButLanes s map
    rw [hs]
    exact h
  | reportFault _ r =>
    obtain ⟨_, _, _, _, hr⟩ := s.reportFault_eq_update r
    rw [hr]
    exact h
  | openPage _ l e p c left _ _ _ hcells => exact h.openPage hcells
  | closePage _ p n left o hp =>
    exact h.modPage (m := s.mem) (PageSound.of_page (h p) rfl nofun) fun _ _ _ _ => id
  | cell _ p n left left' count hp hlast => exact h.writeCell hw hp count fun _ _ _ => hlast
  | lastCell _ p n left count o hp => exact h.writeCell hw hp count nofun
  | freePage => exact h.openPage rfl
  | store _ a v ha =>
    refine h.of_mem rfl fun a' ha' hz => ?_
    show (s.mem.write a v).read a' = 0
    rw [Memory.read_write _ _ _ _ hw, if_neg (by omega), hz]
  | finish _ n result st hlen =>
    refine h.of_mem rfl fun a' ha' hz => ?_
    show (s.mem.writeBytes (slotBase n + 0x80) result).read a' = 0
    have hn := n.isLt
    rw [Memory.read_writeBytes _ _ _ _ hw, if_neg (by simp only [slotBase]; omega), hz]
  | take _ n awaited =>
    cases awaited with
    | false => exact h
    | true =>
      refine h.of_mem rfl fun a' _ hz => ?_
      show (s.mem.clear (slotBase n + 0x80) 0x80).read a' = 0
      rw [Memory.read_clear, hz, ite_self]
  | clearBlock _ b => exact h.clearBlock b
  | powerUp pins lowpwr held => cases held <;> exact State.cellsSound_of_reset rfl rfl
  | holdReset => exact h.holdReset
  | releaseReset => exact State.cellsSound_of_reset rfl rfl
  | startExchangeReset =>
    refine h.of_pages rfl (fun q => ?_) fun q n left hq => ?_
    · rw [State.page_startExchangeReset]
      rfl
    · rw [State.page_startExchangeReset] at hq
      cases hq
  | completeExchangeReset => exact State.cellsSound_of_reset rfl rfl
  | tick => exact h.tick
  | _ => exact h

/-- Settles O55: the form of the memory, and with it the cells, through the moves of the step. -/
theorem stepKeepsTheMemoryAndTheCells : Obligations.StepKeepsTheMemoryAndTheCells := by
  intro s t hw ht
  have m := moves_of_step ht
  refine ⟨m.keeps (P := fun s _ => s.mem.wf = true) Move.wf hw, fun hcells => ?_⟩
  exact (m.keeps (P := fun s _ => s.mem.wf = true ∧ s.CellsSound)
    (fun m h => ⟨m.wf h.1, m.cellsSound h.1 h.2⟩) ⟨hw, hcells⟩).2

end Sys2Proof.Machine
end

section
/-! A step runs the command at the front of the queue; an event that cannot occur changes nothing; and the state after
reset meets every invariant. -/

namespace Sys2Proof.Machine

/-- Settles O1: by the definition of a step. -/
theorem stepRunsTheFrontCommand : Obligations.StepRunsTheFrontCommand := by
  intro c rest s
  rfl

/-- An event of the part's own that cannot occur leaves the state as it is. -/
theorem whenRunning_of_not {s : State} {can : Bool} (event : State → State) (h : s.resetHeld = true ∨ can = false) :
    whenRunning s can event = .next s := by
  rcases h with h | h <;> simp [whenRunning, h]

theorem whenRunning_of_can {s : State} {can : Bool} (event : State → State) (hr : s.resetHeld = false)
    (hc : can = true) : whenRunning s can event = .next (event s) := by
  simp [whenRunning, hr, hc]

/-! ### The commands for events of the part's own -/

section
variable (s : State) (x : LaneSide) (l : LegId) (d : Side)

theorem exec_resetLAssert : exec .resetLAssert s = whenRunning s true State.holdReset := rfl

theorem exec_initializationComplete :
    exec .initializationComplete s = whenRunning s (s.device = .initializing) State.completeInit := rfl

theorem exec_riseCompletion :
    exec .riseCompletion s = whenRunning s (s.effective = .rising) (fun s => s.completeRise.intake) := rfl

theorem exec_exchangeResetComplete : exec .exchangeResetComplete s =
    whenRunning s (s.device = .exchangeResetting) State.completeExchangeReset := rfl

theorem exec_qualificationTimerExpiry : exec (.qualificationTimerExpiry x) s =
    whenRunning s (s.lane x).presence.timer.isSome (fun s => s.laneEvent x fun s => s.presenceEvent x) := rfl

theorem exec_maskTimerExpiry : exec (.maskTimerExpiry x) s =
    whenRunning s (s.lane x).mask.timer.isSome (fun s => s.maskExpire x) := rfl

theorem exec_receiverLock : exec (.receiverLock x) s =
    whenRunning s ((s.lane x).presence.qualified && !(s.lane x).locked && s.effective = .active)
      (fun s => s.laneEvent x fun s => s.lockEvent x) := rfl

theorem exec_receiverUnlock : exec (.receiverUnlock x) s =
    whenRunning s (s.lane x).locked (fun s => s.laneEvent x fun s => s.unlockEvent x) := rfl

theorem exec_lockTimerExpiry : exec (.lockTimerExpiry l) s =
    whenRunning s ((s.leg l).lockTimer.isSome && (s.leg l).state = .acquire)
      (fun s => s.legEvent l fun s => s.lockTimerExpire l) := rfl

theorem exec_relayDelayExpiry : exec (.relayDelayExpiry l d) s =
    whenRunning s ((s.leg l).side d).relay.delay.isSome (fun s => s.relayExpire l d) := rfl

theorem exec_relayPulseEnd : exec (.relayPulseEnd l d) s =
    whenRunning s ((s.leg l).side d).relay.pulse.isSome
      (fun s => s.modRelay l d fun r => { r with pulse := none, squelching := false }) := rfl

theorem exec_tuningFrameSent : exec (.tuningFrameSent x) s =
    whenRunning s (s.leg (s.legOf x)).state.generates (fun s => s.laneEvent x fun s => s.framePeriod x) := rfl

theorem exec_requestWaitTimeout : exec (.requestWaitTimeout x) s =
    whenRunning s (s.waitEnds x) (fun s => s.laneEvent x fun s => s.framePeriod x) := rfl

theorem exec_tuningFrameReceived (frame : Vector Byte 8) : exec (.tuningFrameReceived x frame) s =
    whenRunning s ((s.leg (s.legOf x)).state = .tune && (s.lane x).locked)
      (fun s => s.laneEvent x fun s => s.receiveFrame x frame) := rfl

theorem exec_sessionTimerExpiry : exec (.sessionTimerExpiry l d) s =
    whenRunning s (((s.leg l).side d).timer.isSome && ((s.leg l).side d).session = .running && (s.leg l).state = .tune)
      (fun s => s.legEvent l fun s => s.sessionFailed l d .tuneTimeout) := rfl

theorem exec_marginReadingComplete (value : Fin 64) : exec (.marginReadingComplete x value) s =
    whenRunning s (s.lane x).monitor.isReading (fun s => s.readingDone x value.val) := rfl

end

/-! ### Events that cannot occur -/

theorem State.waitEnds_of_not {s : State} {x : LaneSide}
    (h : (s.leg (s.legOf x)).state ≠ .tune ∨ (s.lane x).tuner.outstanding = none ∨ s.transmit x ≠ .frames ∨
      ∀ m, (s.leg (s.legOf x)).setup.requestWait.limit = some m → (s.lane x).tuner.waitCount + 1 < m) :
    s.waitEnds x = false := by
  unfold State.waitEnds
  split
  · next count limit hn =>
    unfold State.nextWait at hn
    split at hn
    · next m hr hm =>
      split at hn
      · next hc =>
        obtain ⟨rfl, rfl⟩ := Prod.mk.inj (Option.some.inj hn)
        rcases h with h | h | h | h
        · exact absurd hc.1 h
        · rw [h] at hr
          cases hr
        · exact absurd hc.2 h
        · exact decide_eq_false (Nat.not_le.mpr (h _ hm))
      · cases hn
    · cases hn
  · rfl

theorem State.waitingEntry_of_not {s : State} {l : LegId} {j : Nat}
    (h : ∀ e, (s.engine l).queue[j]? = some e → e.deferred = false ∨ e.clock = none) : s.waitingEntry l j = none := by
  unfold State.waitingEntry
  cases hq : (s.engine l).queue[j]? with
  | none => rfl
  | some e => rcases h e hq with he | he <;> simp [he]

theorem exec_patienceExpiry_of_not {s : State} {l : LegId} {place : Fin 2} (h : s.resetHeld = true ∨
    ∀ e, (s.engine l).queue[place.val]? = some e → e.deferred = false ∨ e.clock = none) :
    exec (.patienceExpiry l place) s = .next s := by
  show execPatienceExpiry l place s = .next s
  unfold execPatienceExpiry
  rcases h with h | h
  · split
    · exact whenRunning_of_not _ (.inl h)
    · rfl
  · rw [State.waitingEntry_of_not h]

theorem exec_scanCellComplete_of_not {s : State} {p : PageId} (errors : Nat)
    (h : s.resetHeld = true ∨ ∀ slot left, (s.page p).state ≠ .busy slot left) :
    exec (.scanCellComplete p errors) s = .next s := by
  show execScanCellComplete p errors s = .next s
  unfold execScanCellComplete
  split
  · next slot left hp =>
    exact whenRunning_of_not _ (h.imp_right fun h => absurd hp (h slot left))
  · rfl

theorem Monitor.isReading_of_not {m : Monitor} (h : ∀ left, m ≠ .reading left) : m.isReading = false := by
  cases m with
  | reading left => exact absurd rfl (h left)
  | idle | scanning => rfl

/-- A leg that is PARKED or CARRYING generates no frames. -/
theorem LegState.generates_of_not {g : LegState} (h : g = .parked ∨ g = .carrying) : g.generates = false := by
  rcases h with rfl | rfl <;> rfl

/-- Settles O3: each command asks first whether its event can occur. -/
theorem eventsThatCannotOccurChangeNothing : Obligations.EventsThatCannotOccurChangeNothing := by
  intro s
  refine ⟨fun h => ?assert, fun h pins => ?release, fun h => ?init, fun h => ?rise, fun h => ?reset, fun x => ?lane,
    fun l => ?leg, fun p h errors => exec_scanCellComplete_of_not errors h⟩
  case assert => exact (exec_resetLAssert s).trans (whenRunning_of_not _ (.inl h))
  case release => simp [exec, execResetLRelease, h]
  case init => exact (exec_initializationComplete s).trans (whenRunning_of_not _ (h.imp_right decide_eq_false))
  case rise => exact (exec_riseCompletion s).trans (whenRunning_of_not _ (h.imp_right decide_eq_false))
  case reset => exact (exec_exchangeResetComplete s).trans (whenRunning_of_not _ (h.imp_right decide_eq_false))
  case lane =>
    refine ⟨by simp [exec, execRawDetectChange], fun h => ?qualification, fun h => ?mask, fun h => ?lock, fun h => ?unlock,
      fun h => ?sent, fun h => ?wait, fun h frame => ?received, fun h value => ?reading⟩
    case qualification =>
      exact (exec_qualificationTimerExpiry s x).trans (whenRunning_of_not _ (h.imp_right fun h => by simp [h]))
    case mask => exact (exec_maskTimerExpiry s x).trans (whenRunning_of_not _ (h.imp_right fun h => by simp [h]))
    case lock =>
      refine (exec_receiverLock s x).trans (whenRunning_of_not _ (h.imp_right ?_))
      rintro (h | h | h) <;> simp [h]
    case unlock => exact (exec_receiverUnlock s x).trans (whenRunning_of_not _ h)
    case sent =>
      exact (exec_tuningFrameSent s x).trans (whenRunning_of_not _ (h.imp_right LegState.generates_of_not))
    case wait => exact (exec_requestWaitTimeout s x).trans (whenRunning_of_not _ (h.imp_right State.waitEnds_of_not))
    case received =>
      refine (exec_tuningFrameReceived s x frame).trans (whenRunning_of_not _ (h.imp_right ?_))
      rintro (h | h) <;> simp [h]
    case reading =>
      exact (exec_marginReadingComplete s x value).trans (whenRunning_of_not _ (h.imp_right Monitor.isReading_of_not))
  case leg =>
    refine ⟨fun h => ?timer, fun d => ⟨fun h => ?delay, fun h => ?pulse, fun h => ?session⟩,
      fun place h => exec_patienceExpiry_of_not h⟩
    case timer =>
      refine (exec_lockTimerExpiry s l).trans (whenRunning_of_not _ (h.imp_right ?_))
      rintro (h | h) <;> simp [h]
    case delay => exact (exec_relayDelayExpiry s l d).trans (whenRunning_of_not _ (h.imp_right fun h => by simp [h]))
    case pulse => exact (exec_relayPulseEnd s l d).trans (whenRunning_of_not _ (h.imp_right fun h => by simp [h]))
    case session =>
      refine (exec_sessionTimerExpiry s l d).trans (whenRunning_of_not _ (h.imp_right ?_))
      rintro (h | h | h) <;> simp [h]

/-- Settles O60: nothing waits, nothing runs and every table is at its reset value. -/
theorem resetMeetsTheInvariants : Obligations.ResetMeetsTheInvariants := by
  have hleg (l : LegId) : State.reset.leg l = Leg.reset .rcA := replicate_getElem_fin _ l
  have hengine (l : LegId) : State.reset.engine l = LegEngine.reset := replicate_getElem_fin _ l
  have hslot (n : SlotId) : State.reset.slot n = Slot.reset := replicate_getElem_fin _ n
  have hpage (p : PageId) : State.reset.page p = Page.reset := replicate_getElem_fin _ p
  have hlane (x : LaneSide) : State.reset.lane x = LaneState.reset := by
    obtain ⟨d, i⟩ := x
    cases d <;> exact replicate_getElem_fin _ i
  obtain ⟨hmap, htaps⟩ := State.mapAndTaps_of_reset (s := State.reset) rfl fun x => congrArg LaneState.taps (hlane x)
  obtain ⟨hpower, hunused, hcarry⟩ := State.legRules_nil.mp (State.legRules_of_nothing (s := State.reset)
    (fun l => by rw [hleg]; exact ⟨rfl, rfl⟩) (fun l => by rw [hengine]; rfl) rfl rfl resetMap_function rfl)
  refine ⟨rfl, hmap, htaps, hpower, hunused, hcarry, State.queuesBounded_of_reset rfl rfl, fun x => ?_, fun l => ?_,
    ⟨by decide, by decide, fun _ => rfl⟩, ⟨by decide, by decide⟩, State.cellsSound_of_reset rfl rfl, ?_⟩
  · rw [hlane]
    decide
  · rw [hleg]
    exact Leg.countersBounded_reset .rcA
  · exact State.accounted_nil.mp (State.accounted_of_nothing rfl (fun n => by rw [hslot]; nofun) hengine rfl rfl
      fun p => by rw [hpage]; rfl)

/-! ### An empty queue of commands -/

theorem State.makeOwedChecks_of_noWork {s : State} (h : s.NoWork) :
    s.makeOwedChecks = { s with owed := [], freeCount := s.freeCount + s.owed.length } := by
  obtain ⟨hlist, hqueues, -⟩ := h
  have hexamine (ls : List LegId) (t : State) (ht : ∀ l, (t.engine l).queue = []) :
      ls.foldl (fun t l => t.examineLeg l) t = t := by
    induction ls with
    | nil => rfl
    | cons l ls ih => rw [List.foldl_cons, State.examineLeg_nil (ht l), ih]
  unfold State.makeOwedChecks
  exact (congrArg State.intake (hexamine _ { s with owed := [], freeCount := s.freeCount + s.owed.length }
    hqueues)).trans (State.intake_nil hlist)

theorem LaneState.tick_eq (v : LaneState) : v.tick = { v with
    presence := { v.presence with timer := v.presence.timer.map (· - 1) }
    mask := { v.mask with timer := v.mask.timer.map (· - 1) }
    monitor := match v.monitor with
      | .idle => .idle
      | .reading left => .reading (left - 1)
      | .scanning => .scanning } := by
  unfold LaneState.tick
  cases v.monitor <;> rfl

theorem Page.tick_eq (c : Page) : c.tick = { c with state :=
    match c.state with
    | .free => .free
    | .busy slot left => .busy slot (left - 1)
    | .held => .held } := by
  unfold Page.tick
  cases hc : c.state <;> simp [← hc]

theorem State.engine_tick (s : State) (l : LegId) :
    s.tick.engine l = if s.resetHeld then s.engine l else (s.engine l).tick := by
  unfold State.tick
  split
  · rfl
  · exact mapVector_getElem _ _ _ l.isLt

theorem State.tick_of_running {s : State} (h : s.resetHeld = false) : s.tick = { s with
    riseTimer := tickTimer s.riseTimer, initTimer := tickTimer s.initTimer, resetTimer := tickTimer s.resetTimer
    lineSide := mapVector LaneState.tick s.lineSide, switchSide := mapVector LaneState.tick s.switchSide
    legs := mapVector Leg.tick s.legs, engines := mapVector LegEngine.tick s.engines
    pages := mapVector Page.tick s.pages } := by
  rw [State.tick, if_neg (by simp [h])]

/-- Settles O2: the three things an idle step can do, by RESET_L and the checks put off. -/
theorem emptyQueueLetsTimePass : Obligations.EmptyQueueLetsTimePass := by
  intro s hpending
  refine ⟨s.idle, by rw [step, hpending], fun hr => ?held, fun hr howed => ?owed, fun hr howed => ?tick⟩
  case held => simp [State.idle, State.tick, hr]
  case owed =>
    have hidle : s.idle = s.makeOwedChecks := by simp [State.idle, hr, howed]
    rw [hidle]
    exact ⟨congrArg Fixed.owed (State.makeOwedChecks_fixed s), State.makeOwedChecks_of_noWork⟩
  case tick =>
    have hidle : s.idle = s.tick := by simp [State.idle, howed]
    have hnot : ¬s.resetHeld = true := by simp [hr]
    have hlane (x : LaneSide) : s.tick.lane x = (s.lane x).tick := by rw [State.lane_tick, if_neg hnot]
    have hleg (l : LegId) : s.tick.leg l = (s.leg l).tick := by rw [State.leg_tick, if_neg hnot]
    have hengine (l : LegId) : s.tick.engine l = (s.engine l).tick := by rw [State.engine_tick, if_neg hnot]
    have hpage (p : PageId) : s.tick.page p = (s.page p).tick := by rw [State.page_tick, if_neg hnot]
    rw [hidle]
    refine ⟨?_, ?_, ?_, fun x => (hlane x).trans (LaneState.tick_eq _), fun l => ?_, fun l => by rw [hengine]; rfl,
      fun p => (hpage p).trans (Page.tick_eq _), ?_⟩
    · rw [State.tick_of_running hr]
      rfl
    · rw [State.tick_of_running hr]
      rfl
    · rw [State.tick_of_running hr]
      rfl
    · rw [hleg]
      exact ⟨rfl, rfl, fun d => by cases d <;> rfl⟩
    · rw [State.tick_of_running hr]
      exact ⟨⟨rfl, rfl, rfl⟩, rfl, rfl, ⟨rfl, rfl, rfl, rfl, rfl, rfl⟩, fun _ => rfl, rfl, rfl, rfl, howed,
        fun _ _ => rfl, fun _ => rfl, ⟨rfl, rfl, rfl, rfl, rfl⟩, ⟨rfl, rfl⟩, ⟨rfl, rfl, rfl, rfl, rfl⟩, hpending, rfl⟩

end Sys2Proof.Machine
end

section
/-! Start-up and RESET_L (Sections 10.1 and 10.2): what POWER_ON, RESET_L_ASSERT and RESET_L_RELEASE leave. -/

namespace Sys2Proof.Machine

section

variable {s : State}

/-- The reset lane map, entry by entry (R4). -/
theorem resetMap_getElem : ∀ i : LaneId, resetMap[i] = ⟨i, .normal, .normal, .carry⟩ := by decide

/-- The raw detects as the supply comes up. -/
def detects (line switch : BitVec 8) (x : LaneSide) : Bool :=
  (match x.side with
    | .line => line
    | .switch => switch).getLsbD x.lane.val

theorem withDetects_getElem (bits : BitVec 8) (i : LaneId) :
    (withDetects bits)[i] = { LaneState.reset with presence := ⟨bits.getLsbD i.val, false, none⟩ } := by
  simp [withDetects]

theorem State.lane_startUp_withDetects {line switch : BitVec 8} (hl : s.lineSide = withDetects line)
    (hs : s.switchSide = withDetects switch) (pins : StrapPins) (cause : ResetCause) (x : LaneSide) :
    (s.startUp pins cause).lane x =
      { LaneState.reset with presence := ⟨detects line switch x, false, none⟩ } := by
  rw [State.lane_startUp, State.lane_eq]
  obtain ⟨_ | _, i⟩ := x
  · rw [hl]; simp only [withDetects_getElem, LaneState.afterReset, detects]
  · rw [hs]; simp only [withDetects_getElem, LaneState.afterReset, detects]

theorem LaneState.startQualifying_eq (v : LaneState) : v.startQualifying =
    { v with presence := { v.presence with timer := if v.presence.raw then some 1000 else v.presence.timer } } := by
  unfold LaneState.startQualifying
  split <;> rfl

theorem State.lane_powerUp (s : State) (pins : StrapPins) (lowpwr held : Bool) (line switch : BitVec 8)
    (x : LaneSide) : (s.powerUp pins lowpwr held line switch).lane x = { LaneState.reset with presence :=
      ⟨detects line switch x, false, if !held && detects line switch x then some 1000 else none⟩ } := by
  unfold State.powerUp
  cases held
  · rw [if_neg (by simp), State.lane_modAllLanes, State.lane_startUp_withDetects (line := line) (switch := switch) rfl rfl,
      LaneState.startQualifying_eq]
    simp
  · exact State.lane_startUp_withDetects (line := line) (switch := switch) rfl rfl pins .powerOn x

/-- Settles O4: every register but the lane sides and the timers of a part that is held stands as `startUp` writes
it. -/
theorem powerOnStartsTheInitialization : Obligations.PowerOnStartsTheInitialization := by
  intro pins lowpwr held line switch s
  refine ⟨s.powerUp pins lowpwr held line switch, rfl, ?_⟩
  have hlane := State.lane_powerUp s pins lowpwr held line switch
  cases held <;>
    exact ⟨rfl, rfl, rfl, rfl, rfl, rfl, rfl, rfl, rfl, rfl, rfl, rfl, resetMap_getElem, hlane,
      fun l => replicate_getElem_fin _ l, fun l => replicate_getElem_fin _ l, rfl, rfl, rfl, rfl,
      fun n => replicate_getElem_fin _ n, fun p => replicate_getElem_fin _ p, fun _ => rfl, rfl, rfl, rfl, rfl, rfl,
      rfl, rfl, rfl, rfl⟩

/-- Settles O6. -/
theorem resetReleaseStartsTheInitialization : Obligations.ResetReleaseStartsTheInitialization := by
  intro pins s hr
  refine ⟨s.releaseReset pins, congrArg _ (if_pos hr), ?_⟩
  have hlane (x : LaneSide) : (s.releaseReset pins).lane x = { LaneState.reset with presence :=
      { raw := (s.lane x).presence.raw, qualified := false,
        timer := if (s.lane x).presence.raw then some 1000 else none } } := by
    rw [State.lane_releaseReset, LaneState.startQualifying_eq]
    rfl
  exact ⟨rfl, rfl, rfl, rfl, rfl, rfl, rfl, rfl, rfl, resetMap_getElem, hlane,
    fun l => replicate_getElem_fin _ l, fun l => replicate_getElem_fin _ l, rfl, rfl, rfl, rfl,
    fun n => replicate_getElem_fin _ n, fun p => replicate_getElem_fin _ p, fun _ => rfl, rfl, rfl, rfl, rfl,
    ⟨rfl, rfl⟩, rfl, rfl, rfl⟩

/-- The cells of a page are those of no other page. -/
theorem page_of_cell {p q : PageId} {j : Nat} (hj : j < 0x200)
    (h : pageBase q + 0x200 ≤ pageBase p + 0x200 + j ∧ pageBase p + 0x200 + j < pageBase q + 0x400) : q = p := by
  unfold pageBase at h
  exact Fin.ext (by omega)

/-- R123: the cells of a page without a running scan stand at the assertion of RESET_L. -/
theorem State.cell_holdReset {p : PageId} (h : ∀ n left, (s.page p).state ≠ .busy n left) {j : Nat} (hj : j < 0x200) :
    s.holdReset.mem.read (pageBase p + 0x200 + j) = s.mem.read (pageBase p + 0x200 + j) :=
  State.holdReset_elsewhere s _ fun _ n left hq hr => h n left (page_of_cell hj hr ▸ hq)

theorem State.below_holdReset {a : Nat} (ha : a < 0x1000) : s.holdReset.mem.read a = s.mem.read a :=
  State.holdReset_elsewhere s a fun q _ _ _ hr => by
    have := hr.1
    unfold pageBase at this
    omega

/-- R123: the assertion of RESET_L leaves a page that holds no running scan. -/
theorem Page.stopScan_of_not {c : Page} (h : ∀ n left, c.state ≠ .busy n left) : c.stopScan = c := by
  unfold Page.stopScan
  split
  · next hb => exact absurd hb (h _ _)
  · rfl

/-- Settles O5. -/
theorem resetAssertionStopsThePart : Obligations.ResetAssertionStopsThePart := by
  intro s hr
  refine ⟨s.holdReset, whenRunning_of_can State.holdReset hr rfl, rfl, fun x => State.transmit_of_stopped (.inl rfl),
    fun x => ?locked, fun x => ?monitor, rfl, rfl, rfl, rfl, rfl, rfl, rfl, ⟨rfl, rfl⟩, rfl, rfl, rfl, rfl,
    fun _ => rfl, fun _ _ => rfl, fun x => ?lane, ⟨fun _ => rfl, rfl, rfl, rfl, rfl⟩, fun _ _ => rfl,
    fun _ ha => State.below_holdReset ha, fun p => ⟨fun n left hp => ?stopped, fun hp => ?stands⟩, rfl,
    ⟨rfl, rfl, rfl⟩⟩
  case locked | monitor | lane => simp [State.lane_holdReset, LaneState.holdReset]
  case stopped =>
    refine ⟨?_, fun j hj => State.holdReset_cell s p n left _ hp (by omega)⟩
    rw [State.page_holdReset, Page.stopScan, hp]
    rfl
  case stands =>
    exact ⟨by rw [State.page_holdReset, Page.stopScan_of_not hp], fun j hj => State.cell_holdReset hp hj⟩

end

end Sys2Proof.Machine

end

section
/-! What an event of one leg can do (Section 2): it moves lane sides, that leg and its in-flight set, ends scans and
tasks, and raises summary bits; everything else stands. One lemma for each operation. -/

namespace Sys2Proof.Machine

variable {s t u : State} {l : LegId}

/-- An event of leg l without a presence or lock event, a counter or a setup: what it leaves as it was. -/
structure State.LegUpdate (l : LegId) (s t : State) : Prop where
  update : ∃ lineSide switchSide legs engines slots pages mem summary latchedLine, t = { s with
    lineSide := lineSide, switchSide := switchSide, legs := legs, engines := engines, slots := slots, pages := pages
    mem := mem, summary := summary, latchedLine := latchedLine }
  legs (k : LegId) : k ≠ l → t.leg k = s.leg k
  setup : (t.leg l).setup = (s.leg l).setup
  engines (k : LegId) : k ≠ l → t.engine k = s.engine k
  queue : (t.engine l).queue = (s.engine l).queue
  lanes (y : LaneSide) : (t.lane y).presence = (s.lane y).presence ∧ (t.lane y).locked = (s.lane y).locked ∧
    (t.lane y).counters = (s.lane y).counters ∧ (t.lane y).mask = (s.lane y).mask
  slots (n : SlotId) : t.slot n = s.slot n ∨ (t.slot n).state = .done
  summary (i : Nat) : s.summary.getLsbD i = true → t.summary.getLsbD i = true

/-! ### Composition, and what stands -/

namespace State.LegUpdate

theorem refl (l : LegId) (s : State) : s.LegUpdate l s :=
  ⟨⟨_, _, _, _, _, _, _, _, _, rfl⟩, fun _ _ => rfl, rfl, fun _ _ => rfl, rfl, fun _ => ⟨rfl, rfl, rfl, rfl⟩,
    fun _ => .inl rfl, fun _ => id⟩

theorem trans (h : s.LegUpdate l t) (h' : t.LegUpdate l u) : s.LegUpdate l u where
  update := by
    obtain ⟨_, _, _, _, _, _, _, _, _, rfl⟩ := h.update
    obtain ⟨_, _, _, _, _, _, _, _, _, rfl⟩ := h'.update
    exact ⟨_, _, _, _, _, _, _, _, _, rfl⟩
  legs k hk := (h'.legs k hk).trans (h.legs k hk)
  setup := h'.setup.trans h.setup
  engines k hk := (h'.engines k hk).trans (h.engines k hk)
  queue := h'.queue.trans h.queue
  lanes y := by
    obtain ⟨hp, hl, hc, hm⟩ := h.lanes y
    obtain ⟨hp', hl', hc', hm'⟩ := h'.lanes y
    exact ⟨hp'.trans hp, hl'.trans hl, hc'.trans hc, hm'.trans hm⟩
  slots n := (h'.slots n).elim (fun hn => (h.slots n).imp hn.trans (hn ▸ ·)) .inr
  summary i hi := h'.summary i (h.summary i hi)

theorem queues (h : s.LegUpdate l t) (k : LegId) : (t.engine k).queue = (s.engine k).queue := by
  by_cases hk : k = l
  · exact hk ▸ h.queue
  · rw [h.engines k hk]

theorem setups (h : s.LegUpdate l t) (k : LegId) : (t.leg k).setup = (s.leg k).setup := by
  by_cases hk : k = l
  · exact hk ▸ h.setup
  · rw [h.legs k hk]

theorem sameLegsBut (h : s.LegUpdate l t) : s.SameLegsBut [l] t := fun k hk => h.legs k (by simpa using hk)

/-- The registers that no event of a leg moves. -/
theorem registers (h : s.LegUpdate l t) : s.SamePins t ∧ s.SamePower t ∧ s.SameDevice t ∧ s.SameMap t ∧
    s.SameFaults t ∧ s.SameSettings t ∧ s.SameLine t ∧ t.deviceQueue = s.deviceQueue ∧ t.powerWait = s.powerWait ∧
    t.handOver = s.handOver ∧ t.owed = s.owed := by
  obtain ⟨_, _, _, _, _, _, _, _, _, rfl⟩ := h.update
  exact ⟨⟨rfl, rfl, rfl⟩, ⟨rfl, rfl, rfl⟩, ⟨rfl, rfl, rfl, rfl, rfl, rfl⟩, fun _ => rfl, ⟨rfl, rfl⟩,
    ⟨rfl, rfl, rfl⟩, ⟨rfl, rfl, rfl, rfl, rfl⟩, rfl, rfl, rfl, rfl⟩

theorem noWork (h : s.LegUpdate l t) (hs : s.NoWork) : t.NoWork := by
  obtain ⟨hlist, hqueues, hdevice⟩ := hs
  obtain ⟨-, -, -, -, -, -, -, hd, -, hh, -⟩ := h.registers
  exact ⟨hh.trans hlist, fun k => (h.queues k).trans (hqueues k), hd.trans hdevice⟩

theorem legOf (h : s.LegUpdate l t) (x : LaneSide) : t.legOf x = s.legOf x := by
  obtain ⟨_, _, _, _, _, _, _, _, _, rfl⟩ := h.update
  rfl

theorem memberSides (h : s.LegUpdate l t) (k : LegId) (d : Side) : t.memberSides k d = s.memberSides k d := by
  obtain ⟨_, _, _, _, _, _, _, _, _, rfl⟩ := h.update
  rfl

theorem allMemberSides (h : s.LegUpdate l t) (k : LegId) : t.allMemberSides k = s.allMemberSides k := by
  obtain ⟨_, _, _, _, _, _, _, _, _, rfl⟩ := h.update
  rfl

theorem allPresent (h : s.LegUpdate l t) (k : LegId) : t.allPresent k = s.allPresent k := by
  simp only [State.allPresent, h.allMemberSides, (h.lanes _).1]

theorem sidePresent (h : s.LegUpdate l t) (k : LegId) (d : Side) : t.sidePresent k d = s.sidePresent k d := by
  simp only [State.sidePresent, h.memberSides, (h.lanes _).1]

theorem allLocked (h : s.LegUpdate l t) (k : LegId) : t.allLocked k = s.allLocked k := by
  simp only [State.allLocked, h.allMemberSides, (h.lanes _).2.1]

/-! ### The primitives -/

theorem modLane (s : State) (l : LegId) (x : LaneSide) {f : LaneState → LaneState}
    (hf : ∀ v : LaneState, (f v).presence = v.presence ∧ (f v).locked = v.locked ∧ (f v).counters = v.counters ∧
      (f v).mask = v.mask) : s.LegUpdate l (s.modLane x f) := by
  refine { refl l s with update := ⟨_, _, _, _, _, _, _, _, _, rfl⟩, lanes := fun y => ?_ }
  rw [State.lane_modLane]
  split
  · next h => exact h ▸ hf _
  · exact ⟨rfl, rfl, rfl, rfl⟩

theorem modLanes (xs : List LaneSide) (s : State) (l : LegId) {f : LaneState → LaneState}
    (hf : ∀ v : LaneState, (f v).presence = v.presence ∧ (f v).locked = v.locked ∧ (f v).counters = v.counters ∧
      (f v).mask = v.mask) : s.LegUpdate l (s.modLanes xs f) := by
  induction xs generalizing s with
  | nil => exact refl l s
  | cons x xs ih => exact (modLane s l x hf).trans (ih _)

theorem modLeg (s : State) (l : LegId) {f : Leg → Leg} (hf : (f (s.leg l)).setup = (s.leg l).setup) :
    s.LegUpdate l (s.modLeg l f) :=
  { refl l s with
    update := ⟨_, _, _, _, _, _, _, _, _, rfl⟩
    legs := fun k hk => by rw [State.leg_modLeg, if_neg hk]
    setup := by rw [State.leg_modLeg_self, hf] }

theorem modLegSide (s : State) (l : LegId) (d : Side) (f : LegSide → LegSide) : s.LegUpdate l (s.modLegSide l d f) :=
  modLeg s l (by simp)

theorem legNotice (s : State) (l : LegId) : s.LegUpdate l (s.legNotice l) :=
  { refl l s with
    update := ⟨_, _, _, _, _, _, _, _, _, rfl⟩
    summary := fun i hi => by simp [State.legNotice, hi] }

theorem endAwaited (s : State) (l : LegId) (n : SlotId) (result : List Byte) (st : Status) :
    s.LegUpdate l (s.endAwaited n result st) :=
  { refl l s with
    update := ⟨_, _, _, _, _, _, _, _, _, rfl⟩
    slots := fun m => by
      rw [State.slot_endAwaited]
      split
      · exact .inr rfl
      · exact .inl rfl
    summary := fun i hi => by simp [hi] }

theorem foldl {α : Type} {f : State → α → State} (h : ∀ (s : State) (a : α), s.LegUpdate l (f s a)) (as : List α) (s : State) :
    s.LegUpdate l (as.foldl f s) := by
  induction as generalizing s with
  | nil => exact refl l s
  | cons a as ih => exact (h s a).trans (ih _)

end State.LegUpdate

/-! ### The lane sides at a session's end or start -/

theorem LaneState.abandon_keeps (v : LaneState) : v.abandon.presence = v.presence ∧ v.abandon.locked = v.locked ∧
    v.abandon.counters = v.counters ∧ v.abandon.mask = v.mask := ⟨rfl, rfl, rfl, rfl⟩

theorem LaneState.rest_keeps (v : LaneState) : v.rest.presence = v.presence ∧ v.rest.locked = v.locked ∧
    v.rest.counters = v.counters ∧ v.rest.mask = v.mask := ⟨rfl, rfl, rfl, rfl⟩

theorem LaneState.standBy_keeps (v : LaneState) : v.standBy.presence = v.presence ∧ v.standBy.locked = v.locked ∧
    v.standBy.counters = v.counters ∧ v.standBy.mask = v.mask := ⟨rfl, rfl, rfl, rfl⟩

theorem LaneState.failSession_keeps (v : LaneState) : v.failSession.presence = v.presence ∧
    v.failSession.locked = v.locked ∧ v.failSession.counters = v.counters ∧ v.failSession.mask = v.mask := by
  unfold LaneState.failSession
  split <;> exact ⟨rfl, rfl, rfl, rfl⟩

theorem LaneState.startSession_keeps_all (v : LaneState) (g : Setup) (kind : SessionKind) :
    (v.startSession g kind).presence = v.presence ∧ (v.startSession g kind).locked = v.locked ∧
      (v.startSession g kind).counters = v.counters ∧ (v.startSession g kind).mask = v.mask := by
  cases kind <;> exact ⟨rfl, rfl, rfl, rfl⟩

/-! ### The operations -/

theorem legUpdate_endScan (s : State) (l : LegId) (p : PageId) (n : SlotId) (o : ScanOutcome) (st : Status) :
    s.LegUpdate l (s.endScan p n o st) := by
  have hpage : s.LegUpdate l (s.modPage p fun c => { c with state := .held, outcome := o }) :=
    { State.LegUpdate.refl l s with update := ⟨_, _, _, _, _, _, _, _, _, rfl⟩ }
  exact (hpage.trans (.modLane _ l _ (f := fun v => { v with monitor := .idle }) fun _ => ⟨rfl, rfl, rfl, rfl⟩)).trans
    (.endAwaited _ l n _ st)

theorem legUpdate_interruptScan (s : State) (l k : LegId) (p : PageId) : s.LegUpdate l (s.interruptScan k p) := by
  unfold State.interruptScan
  split
  · split
    · exact legUpdate_endScan s l p _ _ _
    · exact .refl l s
  · exact .refl l s

theorem legUpdate_interruptScans (s : State) (l : LegId) : s.LegUpdate l (s.interruptScans l) :=
  .foldl (fun s p => legUpdate_interruptScan s l l p) allPages s

theorem legUpdate_reportOutcome (s : State) (l : LegId) (st : Status) : s.LegUpdate l (s.reportOutcome l st) := by
  cases hf : (s.engine l).inFlight with
  | none => rw [State.reportOutcome_of_none hf]; exact .refl l s
  | some n =>
    rw [State.reportOutcome_of_some hf]
    refine .trans (t := s.modEngine l fun e => { e with inFlight := none }) ?_ (.endAwaited _ l n _ st)
    exact { State.LegUpdate.refl l s with
      update := ⟨_, _, _, _, _, _, _, _, _, rfl⟩
      engines := fun k hk => by rw [State.engine_modEngine, if_neg hk]
      queue := by rw [State.engine_modEngine, if_pos rfl] }

theorem legUpdate_abandonSide (s : State) (l : LegId) (d : Side) : s.LegUpdate l (s.abandonSide l d) := by
  unfold State.abandonSide
  split
  · exact (State.LegUpdate.modLanes _ s l LaneState.abandon_keeps).trans (.modLegSide _ l d _)
  · exact .modLanes _ s l LaneState.rest_keeps

theorem legUpdate_abandonSessions (s : State) (l : LegId) : s.LegUpdate l (s.abandonSessions l) := by
  unfold State.abandonSessions
  split
  · exact (legUpdate_abandonSide s l .line).trans (legUpdate_abandonSide _ l .switch)
  · exact .refl l s

theorem legUpdate_leaveCarrying (s : State) (l : LegId) : s.LegUpdate l (s.leaveCarrying l) := by
  unfold State.leaveCarrying
  split
  · exact (State.LegUpdate.legNotice s l).trans (legUpdate_interruptScans _ l)
  · exact .refl l s

theorem legUpdate_leave (s : State) (l : LegId) : s.LegUpdate l ((s.abandonSessions l).leaveCarrying l) :=
  (legUpdate_abandonSessions s l).trans (legUpdate_leaveCarrying _ l)

theorem legUpdate_parkLeg (s : State) (l : LegId) : s.LegUpdate l (s.parkLeg l) :=
  (legUpdate_leave s l).trans (.modLeg _ l rfl)

theorem legUpdate_giveUp (s : State) (l : LegId) : s.LegUpdate l (s.giveUp l) :=
  (((legUpdate_parkLeg s l).trans (.modLeg _ l rfl)).trans (.legNotice _ l)).trans (legUpdate_reportOutcome _ l _)

theorem legUpdate_startSession (s : State) (l : LegId) (kind : SessionKind) (d : Side) :
    s.LegUpdate l (s.startSession l kind d) :=
  (State.LegUpdate.modLanes _ s l fun v => v.startSession_keeps_all (s.leg l).setup kind).trans (.modLegSide _ l d _)

theorem legUpdate_enterTuneSide (s : State) (l : LegId) (kind : SessionKind) (named : List Side) (d : Side) :
    s.LegUpdate l (s.enterTuneSide l kind named d) := by
  unfold State.enterTuneSide
  split
  · exact legUpdate_startSession s l kind d
  · exact (State.LegUpdate.modLanes _ s l LaneState.standBy_keeps).trans (.modLegSide _ l d _)

theorem legUpdate_enterTune (s : State) (l : LegId) (kind : SessionKind) (named : List Side) :
    s.LegUpdate l (s.enterTune l kind named) :=
  ((State.LegUpdate.modLeg s l rfl).trans (legUpdate_enterTuneSide _ l kind named .line)).trans
    (legUpdate_enterTuneSide _ l kind named .switch)

theorem legUpdate_tryTune (s : State) (l : LegId) : s.LegUpdate l (s.tryTune l) := by
  unfold State.tryTune
  split
  · exact (State.LegUpdate.modLeg s l rfl).trans (legUpdate_enterTune _ l _ _)
  · exact .refl l s

theorem legUpdate_enterAcquire (s : State) (l : LegId) : s.LegUpdate l (s.enterAcquire l) :=
  (State.LegUpdate.modLeg s l rfl).trans (legUpdate_tryTune _ l)

theorem legUpdate_enterDark (s : State) (l : LegId) : s.LegUpdate l (s.enterDark l) := by
  unfold State.enterDark
  dsimp only
  split
  · exact (State.LegUpdate.modLeg s l rfl).trans (legUpdate_enterAcquire _ l)
  · exact .modLeg s l rfl

theorem legUpdate_enterCarrying (s : State) (l : LegId) (grade : Grade) : s.LegUpdate l (s.enterCarrying l grade) :=
  (((State.LegUpdate.modLanes _ s l LaneState.rest_keeps).trans (.modLeg _ l rfl)).trans (.legNotice _ l)).trans
    (legUpdate_reportOutcome _ l _)

theorem legUpdate_sessionDone (s : State) (l : LegId) (d : Side) : s.LegUpdate l (s.sessionDone l d) := by
  have hdone := State.LegUpdate.modLegSide s l d fun d => { d with session := .done, timer := none }
  unfold State.sessionDone
  dsimp only
  split
  · exact hdone.trans (legUpdate_enterCarrying _ l _)
  · exact hdone

theorem legUpdate_fallBack (s : State) (l : LegId) : s.LegUpdate l (s.fallBack l) := by
  unfold State.fallBack
  split
  · exact legUpdate_enterCarrying s l .degraded
  · have hcounted : s.LegUpdate l ((s.abandonSessions l).modLeg l fun g => { g with attempts := g.attempts + 1 }) :=
      (legUpdate_abandonSessions s l).trans (.modLeg _ l rfl)
    dsimp only
    split
    · exact hcounted.trans (legUpdate_enterAcquire _ l)
    · exact hcounted.trans (legUpdate_giveUp _ l)
  · exact (((legUpdate_parkLeg s l).trans (.modLeg _ l rfl)).trans (.legNotice _ l)).trans
      (legUpdate_reportOutcome _ l _)

theorem legUpdate_abandonRunning (s : State) (l : LegId) (d : Side) : s.LegUpdate l (s.abandonRunning l d) := by
  unfold State.abandonRunning
  split
  · exact legUpdate_abandonSide s l d
  · exact .refl l s

theorem legUpdate_sessionFailed (s : State) (l : LegId) (d : Side) (cause : FailureCause) :
    s.LegUpdate l (s.sessionFailed l d cause) :=
  ((((State.LegUpdate.modLanes _ s l LaneState.failSession_keeps).trans (.modLegSide _ l d _)).trans
    (.modLeg _ l rfl)).trans (legUpdate_abandonRunning _ l _)).trans (legUpdate_fallBack _ l)

theorem legUpdate_modRelay (s : State) (l : LegId) (d : Side) (f : RelayDirection → RelayDirection) :
    s.LegUpdate l (s.modRelay l d f) := .modLegSide s l d _

theorem legUpdate_wakeWatch (s : State) (l : LegId) : s.LegUpdate l (s.wakeWatch l) := by
  unfold State.wakeWatch
  split
  · exact .legNotice s l
  · exact .refl l s

theorem legUpdate_legPresenceLoss (s : State) (l : LegId) : s.LegUpdate l (s.legPresenceLoss l) := by
  unfold State.legPresenceLoss
  split
  · exact .refl l s
  · exact .refl l s
  · exact ((legUpdate_leave s l).trans (.modLeg _ l rfl)).trans (legUpdate_enterDark _ l)

theorem legUpdate_legPresenceGain (s : State) (l : LegId) : s.LegUpdate l (s.legPresenceGain l) := by
  unfold State.legPresenceGain
  split
  · exact legUpdate_enterAcquire s l
  · exact .refl l s

theorem legUpdate_lockTimerExpire (s : State) (l : LegId) : s.LegUpdate l (s.lockTimerExpire l) := by
  have hcounted : s.LegUpdate l
      (s.modLeg l fun g => { g with attempts := g.attempts + 1, cause := .lockTimeout, lockTimer := none }) :=
    .modLeg s l rfl
  unfold State.lockTimerExpire
  dsimp only
  split
  · exact hcounted.trans (.modLeg _ l rfl)
  · exact hcounted.trans (legUpdate_giveUp _ l)

theorem legUpdate_parkByTask (s : State) (l : LegId) : s.LegUpdate l (s.parkByTask l) := by
  have hintent : s.LegUpdate l (s.modLeg l fun g => { g with intent := false }) := .modLeg s l rfl
  unfold State.parkByTask
  dsimp only
  split
  · exact hintent
  · exact (hintent.trans (legUpdate_parkLeg _ l)).trans (legUpdate_reportOutcome _ l _)

theorem legUpdate_parkByPower (s : State) (l : LegId) : s.LegUpdate l (s.parkByPower l) := by
  unfold State.parkByPower
  split
  · exact .refl l s
  · exact (legUpdate_parkLeg s l).trans (legUpdate_reportOutcome _ l _)

theorem legUpdate_retune (s : State) (l : LegId) (named : List Side) : s.LegUpdate l (s.retune l named) :=
  (legUpdate_leaveCarrying s l).trans (legUpdate_enterTune _ l _ _)

theorem legUpdate_takeIntent (s : State) (l : LegId) : s.LegUpdate l (s.takeIntent l) := .modLeg s l rfl

end Sys2Proof.Machine

end

section
/-! The loss relay (R42 to R45): each of its operations is one change of the direction that watches the side. -/

namespace Sys2Proof.Machine

variable {s : State} {l : LegId} {d : Side}

/-! ### One leg changed -/

/-- A change that the leg does not show is none. -/
theorem State.modLeg_of_eq {f : Leg → Leg} (h : f (s.leg l) = s.leg l) : s.modLeg l f = s := by
  have hlegs : s.legs.set l (f s.legs[l]) = s.legs := by
    rw [show f s.legs[l] = s.legs[l] from h]
    simp
  rw [State.modLeg, hlegs]

theorem State.modLeg_congr {f g : Leg → Leg} (h : f (s.leg l) = g (s.leg l)) : s.modLeg l f = s.modLeg l g := by
  rw [State.modLeg, State.modLeg, show f s.legs[l] = g s.legs[l] from h]

theorem State.modRelay_of_eq {f : RelayDirection → RelayDirection}
    (h : f ((s.leg l).side d).relay = ((s.leg l).side d).relay) : s.modRelay l d f = s := by
  refine State.modLeg_of_eq (f := fun g => g.modSide d fun d => { d with relay := f d.relay }) ?_
  cases d
  · exact congrArg (fun r : RelayDirection => { s.leg l with line := { (s.leg l).line with relay := r } }) h
  · exact congrArg (fun r : RelayDirection => { s.leg l with switch := { (s.leg l).switch with relay := r } }) h

theorem State.modRelay_modRelay (f g : RelayDirection → RelayDirection) :
    (s.modRelay l d f).modRelay l d g = s.modRelay l d (fun r => g (f r)) := by
  rw [State.modRelay, State.modRelay, State.modLegSide, State.modLegSide, State.modLeg_modLeg]
  cases d <;> rfl

theorem State.modRelay_congr {f g : RelayDirection → RelayDirection}
    (h : f ((s.leg l).side d).relay = g ((s.leg l).side d).relay) : s.modRelay l d f = s.modRelay l d g := by
  refine State.modLeg_congr (f := fun v => v.modSide d fun d => { d with relay := f d.relay })
    (g := fun v => v.modSide d fun d => { d with relay := g d.relay }) ?_
  cases d
  · exact congrArg (fun r : RelayDirection => { s.leg l with line := { (s.leg l).line with relay := r } }) h
  · exact congrArg (fun r : RelayDirection => { s.leg l with switch := { (s.leg l).switch with relay := r } }) h

theorem State.relay_modRelay (f : RelayDirection → RelayDirection) (e : Side) :
    ((((s.modRelay l d f).leg l).side e).relay) =
      if e = d then f ((s.leg l).side d).relay else ((s.leg l).side e).relay := by
  rw [State.modRelay, State.leg_modLegSide_self, Leg.side_modSide]
  split <;> rfl

/-! ### Delay, squelch, trigger and release -/

/-- R43, R44: the delay timer of a direction expires, its watched side complete or not. -/
def RelayDirection.expired (g : Setup) (complete : Bool) (r : RelayDirection) : RelayDirection :=
  match g.relayMode with
  | .off => { r with delay := none }
  | .follow => { r with delay := none, squelching := r.squelching || !complete }
  | .pulse => { r with delay := none, squelching := true, pulse := some (g.pulseWidth * 1000) }

/-- R43, R44: the delay timer starts; a delay of 0 expires at once. -/
def RelayDirection.delayed (g : Setup) (complete : Bool) (r : RelayDirection) : RelayDirection :=
  if g.relayDelay = 0 then r.expired g complete else { r with delay := some (g.relayDelay * 1000) }

/-- R42 to R44: a member lane of the watched side became ABSENT. -/
def RelayDirection.triggered (g : Setup) (complete : Bool) (r : RelayDirection) : RelayDirection :=
  match g.relayMode with
  | .off => r
  | .follow => if r.delay = none ∧ r.squelching = false then r.delayed g complete else r
  | .pulse =>
    if r.armed = true ∧ r.delay = none ∧ r.pulse = none then { r with armed := false }.delayed g complete else r

/-- R43, R44: the watched side is fully PRESENT again. -/
def RelayDirection.released (g : Setup) (r : RelayDirection) : RelayDirection :=
  match g.relayMode with
  | .off => r
  | .follow => { r with delay := none, squelching := false }
  | .pulse => { r with delay := none }

theorem State.relayExpire_eq (s : State) (l : LegId) (d : Side) :
    s.relayExpire l d = s.modRelay l d (RelayDirection.expired (s.leg l).setup (s.sidePresent l d)) := by
  unfold State.relayExpire RelayDirection.expired
  cases (s.leg l).setup.relayMode <;> rfl

theorem State.relayStart_eq (s : State) (l : LegId) (d : Side) :
    s.relayStart l d = s.modRelay l d (RelayDirection.delayed (s.leg l).setup (s.sidePresent l d)) := by
  unfold State.relayStart RelayDirection.delayed
  dsimp only
  by_cases h : (s.leg l).setup.relayDelay = 0
  · simp only [h, if_true, State.relayExpire_eq]
  · simp only [h, if_false]

theorem State.relayTrigger_eq (s : State) (l : LegId) (d : Side) :
    s.relayTrigger l d = s.modRelay l d (RelayDirection.triggered (s.leg l).setup (s.sidePresent l d)) := by
  unfold State.relayTrigger
  cases hm : (s.leg l).setup.relayMode
  case off => exact (State.modRelay_of_eq (by simp [RelayDirection.triggered, hm])).symm
  case follow =>
    by_cases h : ((s.leg l).side d).relay.delay = none ∧ ((s.leg l).side d).relay.squelching = false
    · simp only [h.1, h.2, Option.isNone_none, Bool.not_false, Bool.and_self, if_true, State.relayStart_eq]
      exact State.modRelay_congr (by simp [RelayDirection.triggered, hm, h])
    · have hno : (((s.leg l).side d).relay.delay.isNone && !((s.leg l).side d).relay.squelching) = false := by
        simpa [Option.isNone_iff_eq_none] using h
      simp only [hno, Bool.false_eq_true, if_false]
      exact (State.modRelay_of_eq (by simp [RelayDirection.triggered, hm, h])).symm
  case pulse =>
    by_cases h : ((s.leg l).side d).relay.armed = true ∧ ((s.leg l).side d).relay.delay = none ∧
        ((s.leg l).side d).relay.pulse = none
    · simp only [h.1, h.2.1, h.2.2, Option.isNone_none, Bool.and_self, if_true, State.relayStart_eq]
      have hsetup : ((s.modRelay l d fun r => { r with armed := false }).leg l).setup = (s.leg l).setup := by
        simp [State.modRelay]
      rw [hsetup, State.modRelay_modRelay]
      exact State.modRelay_congr (by simp [RelayDirection.triggered, hm, h, State.modRelay])
    · have hno : (((s.leg l).side d).relay.armed && ((s.leg l).side d).relay.delay.isNone &&
          ((s.leg l).side d).relay.pulse.isNone) = false := by
        simpa [Option.isNone_iff_eq_none, Option.isSome_iff_ne_none] using h
      simp only [hno, Bool.false_eq_true, if_false]
      exact (State.modRelay_of_eq (by simp [RelayDirection.triggered, hm, h])).symm

theorem State.relayRelease_eq (s : State) (l : LegId) (d : Side) :
    s.relayRelease l d = s.modRelay l d (RelayDirection.released (s.leg l).setup) := by
  unfold State.relayRelease
  cases hm : (s.leg l).setup.relayMode
  case off => exact (State.modRelay_of_eq (by simp [RelayDirection.released, hm])).symm
  case follow | pulse => exact State.modRelay_congr (by simp [RelayDirection.released, hm])

@[simp] theorem otherSide_otherSide (d : Side) : otherSide (otherSide d) = d := by cases d <;> rfl

@[simp] theorem State.side_sideOf (s : State) (i : LaneId) (d : Side) : (s.sideOf i d).side = d := by cases d <;> rfl

/-! ### RELAY_DELAY_EXPIRY and RELAY_PULSE_END -/

/-- A change of one relay direction shows in that direction alone. -/
theorem State.modRelay_frame (s : State) (l : LegId) (d : Side) (f : RelayDirection → RelayDirection) :
    ((s.modRelay l d f).leg l).side (otherSide d) = (s.leg l).side (otherSide d) ∧ s.SameLegItems (s.modRelay l d f) l ∧
      s.SameLanesBut [] (s.modRelay l d f) ∧ s.SameLegsBut [l] (s.modRelay l d f) ∧
      s.SameOutside (s.modRelay l d f) := by
  refine ⟨?_, ?_, fun _ _ => rfl, State.sameLegsBut_modLeg s l _, State.sameOutside_modLeg s l _⟩
  · rw [State.modRelay, State.leg_modLegSide_self]
    cases d <;> rfl
  · rw [State.SameLegItems, State.modRelay, State.leg_modLegSide_self]
    cases d <;> rfl

theorem State.side_modRelay (f : RelayDirection → RelayDirection) : ((s.modRelay l d f).leg l).side d =
    { (s.leg l).side d with relay := f ((s.leg l).side d).relay } := by
  rw [State.modRelay, State.leg_modLegSide_self, Leg.side_modSide, if_pos rfl]

theorem State.sidePresent_eq_false : s.sidePresent l d = false ↔
    ∃ x ∈ s.memberSides l d, (s.lane x).presence.qualified = false := by
  simp [State.sidePresent]

/-- Settles O17. -/
theorem relayTimersSquelchAndRelease : Obligations.RelayTimersSquelchAndRelease := by
  intro l d s hr
  refine ⟨fun hp => ?pulseEnd, fun hd => ?delay⟩
  case pulseEnd =>
    exact ⟨_, (exec_relayPulseEnd _ _ _).trans (whenRunning_of_can _ hr hp), State.side_modRelay _, State.modRelay_frame ..⟩
  case delay =>
    refine ⟨_, (exec_relayDelayExpiry _ _ _).trans (whenRunning_of_can _ hr hd), ?_⟩
    rw [State.relayExpire_eq]
    obtain ⟨hother, hframe⟩ := State.modRelay_frame s l d
      (RelayDirection.expired (s.leg l).setup (s.sidePresent l d))
    refine ⟨?side, hother, fun hmode hout hu i hi hmap => ?squelched, hframe⟩
    case side =>
      rw [State.side_modRelay]
      have hno : (!s.sidePresent l d) = decide (∃ x ∈ s.memberSides l d, (s.lane x).presence.qualified = false) := by
        rw [Bool.eq_iff_iff, Bool.not_eq_true', State.sidePresent_eq_false, decide_eq_true_iff]
      unfold RelayDirection.expired
      cases (s.leg l).setup.relayMode <;> simp only [hno]
    case squelched =>
      by_cases he : s.effective = .active
      · have hleg := State.legOf_of_mem_memberSides hmap (d := otherSide d) (List.mem_map_of_mem hi)
        refine State.transmit_of_relay hr he ?_ ?_ <;> rw [State.modRelay, State.legOf_modLegSide, hleg]
        · rwa [State.state_modLegSide]
        · rw [← State.modRelay, State.side_sideOf, otherSide_otherSide, State.relay_modRelay, if_pos rfl,
            RelayDirection.expired, hmode]
      · exact State.transmit_of_stopped (.inr he)

end Sys2Proof.Machine

end

section
/-! RAW_DETECT_CHANGE and MASK_TIMER_EXPIRY (R15, R18, R19), and what a leg is after it has left ACQUIRE, TUNE or
CARRYING (R27, R34). -/

namespace Sys2Proof.Machine

variable {s t : State} {l : LegId} {x : LaneSide}

/-! ### One lane side changed -/

theorem State.modLane_modLane (s : State) (x : LaneSide) (f g : LaneState → LaneState) :
    (s.modLane x f).modLane x g = s.modLane x (fun v => g (f v)) := by
  obtain ⟨_ | _, i⟩ := x <;> simp [State.modLane]

theorem State.sameLanesBut_modLane (s : State) (x : LaneSide) (f : LaneState → LaneState) :
    s.SameLanesBut [x] (s.modLane x f) :=
  fun y hy => by rw [State.lane_modLane, if_neg (by simpa using hy)]

theorem State.sameOutside_modLane (s : State) (x : LaneSide) (f : LaneState → LaneState) :
    s.SameOutside (s.modLane x f) :=
  ⟨⟨rfl, rfl, rfl⟩, ⟨rfl, rfl, rfl⟩, ⟨rfl, rfl, rfl, rfl, rfl, rfl⟩, fun _ => rfl,
    ⟨fun _ => rfl, rfl, rfl, rfl, rfl⟩, fun _ _ => rfl, fun _ _ => rfl, fun _ => rfl, ⟨rfl, rfl, rfl, rfl, rfl⟩,
    ⟨rfl, rfl⟩, ⟨rfl, rfl, rfl, rfl, rfl⟩⟩

/-! ### RAW_DETECT_CHANGE and MASK_TIMER_EXPIRY -/

theorem exec_rawDetectChange (hr : s.resetHeld = false) {signal : Bool} (h : (s.lane x).presence.raw ≠ signal) :
    exec (.rawDetectChange x signal) s =
      .next (s.modLane x fun v => { v with presence := v.presence.detect signal }) := by
  have hexec : exec (.rawDetectChange x signal) s = execRawDetectChange x signal s := rfl
  rw [hexec, execRawDetectChange, if_neg h]
  simp only [hr, Bool.false_eq_true, if_false]

theorem Presence.detect_eq (p : Presence) (signal : Bool) : p.detect signal =
    ⟨signal, p.qualified, if signal = p.qualified then none else if signal then some 1000 else some 50⟩ := by
  unfold Presence.detect
  cases signal <;> rfl

theorem and_compl_self_and (a e : BitVec 32) : a &&& ~~~a &&& e = 0 := by simp

theorem or_and_compl_self (a b : BitVec 32) : (a ||| b) &&& ~~~a = b &&& ~~~a := by
  ext i hi
  simp only [BitVec.getElem_and, BitVec.getElem_or, BitVec.getElem_not]
  cases a[i] <;> cases b[i] <;> rfl

/-- R167: what a raised bit does to the latched line state, in terms of the bits that have come on. -/
theorem State.latchedLine_raise (s : State) (bits : BitVec 32) : (s.raise bits).latchedLine = (s.latchedLine ||
    (s.latchedMode && decide ((s.raise bits).summary &&& ~~~s.summary &&& s.enables ≠ 0))) := by
  have hnew : (s.raise bits).summary &&& ~~~s.summary = bits &&& ~~~s.summary := or_and_compl_self s.summary bits
  rw [hnew, State.raise_latchedLine, bne, decide_not, beq_eq_decide]

theorem State.wakeWatch_eq (s : State) (l : LegId) : s.wakeWatch l =
    if (s.leg l).state = .parked ∧ (s.leg l).setup.wakeWatch = true then s.legNotice l else s := rfl

theorem State.legBit_eq (l : LegId) : legBit l = 1#32 <<< (16 + l.val) := rfl

/-- R19: the notice of a mask's end is that of a net change over the window on a PARKED leg with wake watch on. -/
theorem State.maskExpire_eq (s : State) (x : LaneSide) : s.maskExpire x =
    if (s.lane x).presence.qualified ≠ (s.lane x).mask.start ∧ (s.leg (s.legOf x)).state = .parked ∧
        (s.leg (s.legOf x)).setup.wakeWatch = true
    then (s.modLane x fun v => { v with mask := { v.mask with timer := none } }).legNotice (s.legOf x)
    else s.modLane x fun v => { v with mask := { v.mask with timer := none } } := by
  unfold State.maskExpire
  by_cases hq : (s.lane x).presence.qualified = (s.lane x).mask.start
  · simp [hq]
  · rw [if_neg hq, State.wakeWatch_eq, State.legOf_modLane, State.leg_modLane]
    simp only [hq, ne_eq, not_false_eq_true, true_and]

/-- Settles O10. -/
theorem detectAndMaskTimersAct : Obligations.DetectAndMaskTimersAct := by
  intro x s hr
  refine ⟨fun signal hraw => ?raw, fun hmask => ?mask⟩
  case raw =>
    refine ⟨_, exec_rawDetectChange hr hraw, ?_, State.sameLanesBut_modLane s x _, fun _ _ => rfl,
      State.sameOutside_modLane s x _⟩
    rw [State.lane_modLane_self, Presence.detect_eq]
  case mask =>
    refine ⟨s.maskExpire x, (exec_maskTimerExpiry _ _).trans (whenRunning_of_can _ hr hmask), ?_⟩
    have hlane := State.lane_modLane_self (s := s) x fun v => { v with mask := { v.mask with timer := none } }
    have hlanes := State.sameLanesBut_modLane s x fun v => { v with mask := { v.mask with timer := none } }
    rw [State.maskExpire_eq]
    split
    · exact ⟨hlane, rfl, State.latchedLine_raise _ _, ⟨rfl, rfl, rfl⟩, hlanes, fun _ _ => rfl, ⟨rfl, rfl, rfl⟩,
        ⟨rfl, rfl, rfl⟩, ⟨rfl, rfl, rfl, rfl, rfl, rfl⟩, fun _ => rfl, ⟨fun _ => rfl, rfl, rfl, rfl, rfl⟩,
        fun _ _ => rfl, fun _ _ => rfl, fun _ => rfl, ⟨rfl, rfl⟩, ⟨rfl, rfl, rfl, rfl, rfl⟩⟩
    · exact ⟨hlane, rfl, by simp, ⟨rfl, rfl, rfl⟩, hlanes, fun _ _ => rfl, ⟨rfl, rfl, rfl⟩,
        ⟨rfl, rfl, rfl⟩, ⟨rfl, rfl, rfl, rfl, rfl, rfl⟩, fun _ => rfl, ⟨fun _ => rfl, rfl, rfl, rfl, rfl⟩,
        fun _ _ => rfl, fun _ _ => rfl, fun _ => rfl, ⟨rfl, rfl⟩, ⟨rfl, rfl, rfl, rfl, rfl⟩⟩

/-! ### The items of a leg that leaves its state -/

/-- R27: one side of a leg that leaves TUNE: a RUNNING session is abandoned. -/
def LegSide.abandoned (d : LegSide) : LegSide :=
  if d.session = .running then { d with timer := none, weak := 0, session := .idle } else d

/-- R27: the items of a leg whose sessions are abandoned. -/
def Leg.abandoned (g : Leg) : Leg := if g.state = .tune then g.modSides LegSide.abandoned else g

theorem LegSide.relay_abandoned (d : LegSide) : d.abandoned.relay = d.relay := by
  unfold LegSide.abandoned
  split <;> rfl

theorem LegSide.abandoned_of_running {d : LegSide} (h : d.session = .running) :
    d.abandoned.session = .idle ∧ d.abandoned.weak = 0 ∧ d.abandoned.timer = none := by
  rw [LegSide.abandoned, if_pos h]
  exact ⟨rfl, rfl, rfl⟩

theorem LegSide.abandoned_of_not {d : LegSide} (h : d.session ≠ .running) : d.abandoned = d := if_neg h

theorem Leg.side_modSides (g : Leg) (f : LegSide → LegSide) (d : Side) : (g.modSides f).side d = f (g.side d) := by
  cases d <;> rfl

theorem Leg.side_abandoned (g : Leg) (d : Side) :
    g.abandoned.side d = if g.state = .tune then (g.side d).abandoned else g.side d := by
  unfold Leg.abandoned
  split
  · exact Leg.side_modSides g _ d
  · rfl

/-- What the abandoning leaves of a leg. -/
theorem Leg.abandoned_keeps (g : Leg) : g.abandoned.state = g.state ∧ g.abandoned.intent = g.intent ∧
    g.abandoned.attempts = g.attempts ∧ g.abandoned.givenUp = g.givenUp ∧ g.abandoned.setup = g.setup ∧
    g.abandoned.presenceLosses = g.presenceLosses ∧ ∀ d, (g.abandoned.side d).relay = (g.side d).relay := by
  refine ⟨?_, ?_, ?_, ?_, ?_, ?_, fun d => ?_⟩
  all_goals try (unfold Leg.abandoned; split <;> rfl)
  rw [Leg.side_abandoned]
  split
  · exact LegSide.relay_abandoned _
  · rfl

theorem Leg.modSide_congr {g : Leg} {d : Side} {f f' : LegSide → LegSide} (h : f (g.side d) = f' (g.side d)) :
    g.modSide d f = g.modSide d f' := by
  cases d
  · exact congrArg (fun v => { g with line := v }) h
  · exact congrArg (fun v => { g with switch := v }) h

theorem Leg.modSide_of_eq {g : Leg} {d : Side} {f : LegSide → LegSide} (h : f (g.side d) = g.side d) :
    g.modSide d f = g := (Leg.modSide_congr (f' := id) h).trans (by cases d <;> rfl)

theorem State.leg_abandonSide (s : State) (l : LegId) (d : Side) :
    (s.abandonSide l d).leg l = (s.leg l).modSide d LegSide.abandoned := by
  unfold State.abandonSide
  split
  · next h =>
    rw [State.leg_modLegSide_self, State.leg_modLanes]
    exact Leg.modSide_congr (if_pos h).symm
  · next h =>
    rw [State.leg_modLanes]
    exact (Leg.modSide_of_eq (LegSide.abandoned_of_not h)).symm

theorem State.leg_abandonSessions (s : State) (l : LegId) : (s.abandonSessions l).leg l = (s.leg l).abandoned := by
  unfold State.abandonSessions Leg.abandoned
  split
  · rw [State.leg_abandonSide, State.leg_abandonSide]
    rfl
  · rfl

theorem State.leg_leave (s : State) (l : LegId) :
    ((s.abandonSessions l).leaveCarrying l).leg l = (s.leg l).abandoned := by
  rw [State.leg_leaveCarrying, State.leg_abandonSessions]

/-! ### The taps of a leg that leaves its state -/

/-- No triple changes. -/
def State.KeepsTaps (s t : State) : Prop := ∀ y, (t.lane y).taps = (s.lane y).taps

namespace State.KeepsTaps

theorem refl (s : State) : s.KeepsTaps s := fun _ => rfl

theorem trans {u : State} (h : s.KeepsTaps t) (h' : t.KeepsTaps u) : s.KeepsTaps u := fun y => (h' y).trans (h y)

theorem modLane (s : State) (x : LaneSide) {f : LaneState → LaneState} (hf : ∀ v : LaneState, (f v).taps = v.taps) :
    s.KeepsTaps (s.modLane x f) := fun y => by
  rw [State.lane_modLane]
  split
  · next h => rw [hf, h]
  · rfl

theorem modLanes (xs : List LaneSide) (s : State) {f : LaneState → LaneState}
    (hf : ∀ v : LaneState, (f v).taps = v.taps) : s.KeepsTaps (s.modLanes xs f) := fun y =>
  State.lane_modLanes_induct (s := s) (fun y v => v.taps = (s.lane y).taps) xs f (fun _ _ v hv => (hf v).trans hv)
    (fun _ => rfl) y

end State.KeepsTaps

theorem keepsTaps_abandonSide (s : State) (l : LegId) (d : Side) : s.KeepsTaps (s.abandonSide l d) := by
  unfold State.abandonSide
  split
  · exact .modLanes _ s fun _ => rfl
  · exact .modLanes _ s fun _ => rfl

theorem keepsTaps_abandonSessions (s : State) (l : LegId) : s.KeepsTaps (s.abandonSessions l) := by
  unfold State.abandonSessions
  split
  · exact (keepsTaps_abandonSide s l .line).trans (keepsTaps_abandonSide _ l .switch)
  · exact .refl s

theorem keepsTaps_interruptScan (s : State) (l : LegId) (p : PageId) : s.KeepsTaps (s.interruptScan l p) := by
  unfold State.interruptScan
  split
  · split
    · intro y
      rw [State.endScan, State.lane_endAwaited]
      exact State.KeepsTaps.modLane _ _ (f := fun v => { v with monitor := .idle }) (fun _ => rfl) y
    · exact .refl s
  · exact .refl s

theorem keepsTaps_leaveCarrying (s : State) (l : LegId) : s.KeepsTaps (s.leaveCarrying l) := by
  unfold State.leaveCarrying
  split
  · exact fun y => foldl_keeps (fun t : State => (t.lane y).taps) _ (fun t p => keepsTaps_interruptScan t l p y) _ _
  · exact .refl s

theorem keepsTaps_leave (s : State) (l : LegId) : s.KeepsTaps ((s.abandonSessions l).leaveCarrying l) :=
  (keepsTaps_abandonSessions s l).trans (keepsTaps_leaveCarrying _ l)

/-! ### The notice of a leg that leaves CARRYING (R46) -/

theorem State.notice_leaveCarrying (h : (s.leg l).state = .carrying) :
    (s.leaveCarrying l).summary.getLsbD (16 + l.val) = true := by
  rw [State.leaveCarrying, if_pos h]
  refine (legUpdate_interruptScans _ l).summary _ ?_
  rw [State.legNotice_summary, BitVec.getLsbD_or, getLsbD_legBit, Bool.or_true]

end Sys2Proof.Machine

end

section
/-! QUALIFICATION_TIMER_EXPIRY (R15 to R17, R19, R31, R34, R43, R44): the lane side, then the leg and the relay direction
that watches the side, then the wake watch. -/

namespace Sys2Proof.Machine

variable {s t u : State} {l : LegId} {x : LaneSide} {d : Side}

/-! ### The event in its three parts -/

/-- R15 to R17: the qualified presence takes the raw detect's value; an ABSENT receiver is UNLOCKED and the drop
counted. -/
def LaneState.qualify (v : LaneState) : LaneState :=
  { v with
    presence := ⟨v.presence.raw, v.presence.raw, none⟩
    locked := v.locked && v.presence.raw
    counters := { v.counters with
      presenceDrops := if v.presence.raw then v.counters.presenceDrops
        else countUp Config.laneCounterMax v.counters.presenceDrops } }

/-- R34, R43, R44: the leg and the relay after a lane side of the named side became ABSENT. -/
def State.afterLoss (u : State) (l : LegId) (d : Side) : State :=
  if (u.leg l).state = .parked then u else (u.legPresenceLoss l).relayTrigger l d

/-- R31, R43, R44: the leg and the relay after a lane side of the named side became PRESENT. -/
def State.afterGain (u : State) (l : LegId) (d : Side) : State :=
  if u.sidePresent l d then (u.legPresenceGain l).relayRelease l d else u.legPresenceGain l

/-- R16: the leg and the relay after the presence event of a lane side. -/
def State.afterChange (u : State) (l : LegId) (d : Side) (present : Bool) : State :=
  if present then u.afterGain l d else u.afterLoss l d

theorem legUpdate_afterLoss (u : State) (l : LegId) (d : Side) : u.LegUpdate l (u.afterLoss l d) := by
  unfold State.afterLoss
  split
  · exact .refl l u
  · rw [State.relayTrigger_eq]
    exact (legUpdate_legPresenceLoss u l).trans (legUpdate_modRelay _ l d _)

theorem legUpdate_afterGain (u : State) (l : LegId) (d : Side) : u.LegUpdate l (u.afterGain l d) := by
  unfold State.afterGain
  split
  · rw [State.relayRelease_eq]
    exact (legUpdate_legPresenceGain u l).trans (legUpdate_modRelay _ l d _)
  · exact legUpdate_legPresenceGain u l

theorem legUpdate_afterChange (u : State) (l : LegId) (d : Side) (present : Bool) :
    u.LegUpdate l (u.afterChange l d present) := by
  unfold State.afterChange
  split
  · exact legUpdate_afterGain u l d
  · exact legUpdate_afterLoss u l d

theorem State.becomePresent_eq (s : State) (x : LaneSide) : s.becomePresent x =
    (s.modLane x fun v => { v with presence := { v.presence with qualified := true } }).afterGain (s.legOf x) x.side := by
  unfold State.becomePresent State.afterGain
  dsimp only
  rw [(legUpdate_legPresenceGain _ _).sidePresent]

theorem State.becomeAbsent_eq (s : State) (x : LaneSide) : s.becomeAbsent x =
    (s.modLane x fun v => { v with
      presence := { v.presence with qualified := false }, locked := false
      counters := { v.counters with presenceDrops := countUp Config.laneCounterMax v.counters.presenceDrops } }).afterLoss
      (s.legOf x) x.side := by
  unfold State.becomeAbsent State.afterLoss
  dsimp only
  split
  · next h =>
    simp only [State.legPresenceLoss, h]
  · rfl

theorem State.modLane_congr {f g : LaneState → LaneState} (h : f (s.lane x) = g (s.lane x)) :
    s.modLane x f = s.modLane x g := by
  obtain ⟨_ | _, i⟩ := x
  · rw [State.modLane, State.modLane, show f s.lineSide[i] = g s.lineSide[i] from h]
  · rw [State.modLane, State.modLane, show f s.switchSide[i] = g s.switchSide[i] from h]

/-- R15, R16, R19: the event in its three parts. -/
theorem State.presenceEvent_eq (h : (s.lane x).presence.raw ≠ (s.lane x).presence.qualified) :
    s.presenceEvent x =
      if (s.lane x).mask.timer.isNone then
        ((s.modLane x LaneState.qualify).afterChange (s.legOf x) x.side (s.lane x).presence.raw).wakeWatch (s.legOf x)
      else (s.modLane x LaneState.qualify).afterChange (s.legOf x) x.side (s.lane x).presence.raw := by
  have hevent : (if (s.lane x).presence.raw then
      (s.modLane x fun v => { v with presence := { v.presence with timer := none } }).becomePresent x
      else (s.modLane x fun v => { v with presence := { v.presence with timer := none } }).becomeAbsent x) =
      (s.modLane x LaneState.qualify).afterChange (s.legOf x) x.side (s.lane x).presence.raw := by
    cases hraw : (s.lane x).presence.raw with
    | true =>
      simp only [if_true, State.becomePresent_eq, State.modLane_modLane, State.legOf_modLane, State.afterChange]
      congr 1
      exact State.modLane_congr (by simp [LaneState.qualify, hraw])
    | false =>
      simp only [Bool.false_eq_true, if_false, State.becomeAbsent_eq, State.modLane_modLane, State.legOf_modLane,
        State.afterChange]
      congr 1
      exact State.modLane_congr (by simp [LaneState.qualify, hraw])
  have hmask := ((legUpdate_afterChange (s.modLane x LaneState.qualify) (s.legOf x) x.side
    (s.lane x).presence.raw).lanes x).2.2.2
  have hleg := (legUpdate_afterChange (s.modLane x LaneState.qualify) (s.legOf x) x.side (s.lane x).presence.raw).legOf x
  unfold State.presenceEvent
  dsimp only
  rw [if_neg h, hevent, hmask, hleg, State.lane_modLane_self, State.legOf_modLane]
  rfl

theorem legUpdate_presenceEvent (h : (s.lane x).presence.raw ≠ (s.lane x).presence.qualified) :
    (s.modLane x LaneState.qualify).LegUpdate (s.legOf x) (s.presenceEvent x) := by
  rw [State.presenceEvent_eq h]
  split
  · exact (legUpdate_afterChange _ _ _ _).trans (legUpdate_wakeWatch _ _)
  · exact legUpdate_afterChange _ _ _ _

/-! ### Who is PRESENT and LOCKED after the change -/

theorem State.qualified_modLane_qualify (s : State) (x y : LaneSide) :
    ((s.modLane x LaneState.qualify).lane y).presence.qualified =
      if y = x then (s.lane x).presence.raw else (s.lane y).presence.qualified := by
  rw [State.lane_modLane]
  split <;> rfl

theorem State.sidePresent_qualify_of_absent (hmap : s.MapPermutes) (h : (s.lane x).presence.raw = false) :
    (s.modLane x LaneState.qualify).sidePresent (s.legOf x) x.side = false :=
  State.sidePresent_eq_false.mpr
    ⟨x, State.mem_memberSides hmap x, by rw [State.qualified_modLane_qualify, if_pos rfl, h]⟩

theorem State.allPresent_eq_false :
    s.allPresent l = false ↔ ∃ y ∈ s.allMemberSides l, (s.lane y).presence.qualified = false := by
  simp [State.allPresent]

theorem State.allPresent_eq_true :
    s.allPresent l = true ↔ ∀ y ∈ s.allMemberSides l, (s.lane y).presence.qualified = true := by
  simp [State.allPresent]

theorem State.allLocked_eq_false :
    s.allLocked l = false ↔ ∃ y ∈ s.allMemberSides l, (s.lane y).locked = false := by
  simp [State.allLocked]

theorem State.mem_allMemberSides (hmap : s.MapPermutes) (x : LaneSide) : x ∈ s.allMemberSides (s.legOf x) :=
  (State.mem_allMemberSides_iff hmap).mpr rfl

theorem State.allPresent_qualify_of_absent (hmap : s.MapPermutes) (h : (s.lane x).presence.raw = false) :
    (s.modLane x LaneState.qualify).allPresent (s.legOf x) = false :=
  State.allPresent_eq_false.mpr
    ⟨x, State.mem_allMemberSides hmap x, by rw [State.qualified_modLane_qualify, if_pos rfl, h]⟩

theorem State.allLocked_qualify (hmap : s.MapPermutes) (h : (s.lane x).locked = false) :
    (s.modLane x LaneState.qualify).allLocked (s.legOf x) = false :=
  State.allLocked_eq_false.mpr
    ⟨x, State.mem_allMemberSides hmap x, by rw [State.lane_modLane_self, LaneState.qualify, h, Bool.false_and]⟩

/-! ### The leg -/

/-- R34: the items of a leg after a presence loss. -/
def Leg.lost (g : Leg) : Leg :=
  match g.state with
  | .parked => g
  | .dark => g
  | _ => { g.abandoned with presenceLosses := nextCount g.presenceLosses, state := .dark, lockTimer := none }

/-- R31: the items of a leg after a presence gain. -/
def Leg.gained (present : Bool) (g : Leg) : Leg :=
  if g.state = .dark ∧ present = true then
    { g with state := .acquire, lockTimer := some (g.setup.lockTimeout * 1000) }
  else g

theorem State.leg_legPresenceLoss (h : u.allPresent l = false) : (u.legPresenceLoss l).leg l = (u.leg l).lost := by
  have hleave := legUpdate_leave u l
  have hdark (f : Leg → Leg) : ((((u.abandonSessions l).leaveCarrying l).modLeg l f).enterDark l).leg l =
      { f (u.leg l).abandoned with state := .dark, lockTimer := none } := by
    rw [State.leg_enterDark, if_pos rfl, State.leg_modLeg_self, State.leg_leave, State.allPresent_modLeg,
      hleave.allPresent, h]
    rfl
  unfold State.legPresenceLoss Leg.lost
  cases (u.leg l).state with
  | parked => rfl
  | dark => rfl
  | acquire | tune | carrying =>
    rw [hdark]
    rw [(Leg.abandoned_keeps _).2.2.2.2.2.1]
    rfl

theorem State.legPresenceGain_eq (h : (u.leg l).state = .dark → u.allLocked l = false) :
    u.legPresenceGain l = u.modLeg l (Leg.gained (u.allPresent l)) := by
  unfold State.legPresenceGain
  split
  · next hg =>
    have hunlocked : (u.modLeg l fun g => { g with
        state := .acquire, lockTimer := some (g.setup.lockTimeout * 1000) }).allLocked l = false := h hg.1
    rw [State.enterAcquire, State.tryTune, if_neg (by simp [hunlocked])]
    exact State.modLeg_congr (by rw [Leg.gained, if_pos hg])
  · next hg => exact (State.modLeg_of_eq (by rw [Leg.gained, if_neg hg])).symm

theorem Leg.relay_lost (g : Leg) (d : Side) : (g.lost.side d).relay = (g.side d).relay := by
  have h := (Leg.abandoned_keeps g).2.2.2.2.2.2 d
  unfold Leg.lost
  split
  · rfl
  · rfl
  · cases d <;> exact h

theorem Leg.relay_gained (present : Bool) (g : Leg) (d : Side) : ((g.gained present).side d).relay = (g.side d).relay := by
  unfold Leg.gained
  split
  · cases d <;> rfl
  · rfl

/-! ### The relay -/

theorem State.relay_afterLoss (h : u.allPresent l = false) (hside : u.sidePresent l d = false) (e : Side) :
    (((u.afterLoss l d).leg l).side e).relay =
      if e = d ∧ (u.leg l).state ≠ .parked then (((u.leg l).side d).relay).triggered (u.leg l).setup false
      else ((u.leg l).side e).relay := by
  unfold State.afterLoss
  by_cases hp : (u.leg l).state = .parked
  · simp [hp]
  · have hloss := legUpdate_legPresenceLoss u l
    rw [if_neg hp, State.relayTrigger_eq, State.relay_modRelay, hloss.setup, hloss.sidePresent, hside,
      State.leg_legPresenceLoss h, Leg.relay_lost, Leg.relay_lost]
    simp [hp]

theorem State.relay_afterGain (h : (u.leg l).state = .dark → u.allLocked l = false) (e : Side) :
    (((u.afterGain l d).leg l).side e).relay =
      if e = d ∧ u.sidePresent l d = true then (((u.leg l).side d).relay).released (u.leg l).setup
      else ((u.leg l).side e).relay := by
  have hgain := legUpdate_legPresenceGain u l
  have hleg : (u.legPresenceGain l).leg l = (u.leg l).gained (u.allPresent l) := by
    rw [State.legPresenceGain_eq h, State.leg_modLeg_self]
  unfold State.afterGain
  split
  · next hside =>
    rw [State.relayRelease_eq, State.relay_modRelay, hgain.setup, hleg, Leg.relay_gained, Leg.relay_gained]
    simp [hside]
  · next hside => rw [hleg, Leg.relay_gained, if_neg (fun h => hside h.2)]

theorem State.leg_wakeWatch (s : State) (l k : LegId) : (s.wakeWatch l).leg k = s.leg k := by
  rw [State.wakeWatch_eq]
  split <;> rfl

theorem State.leg_presenceEvent (h : (s.lane x).presence.raw ≠ (s.lane x).presence.qualified) (k : LegId) :
    (s.presenceEvent x).leg k =
      ((s.modLane x LaneState.qualify).afterChange (s.legOf x) x.side (s.lane x).presence.raw).leg k := by
  rw [State.presenceEvent_eq h]
  split
  · exact State.leg_wakeWatch _ _ k
  · rfl

theorem State.noWork_modLane (h : s.NoWork) (x : LaneSide) (f : LaneState → LaneState) : (s.modLane x f).NoWork := h

/-- R146: with no task waiting the event at a leg's controller is all that happens. -/
theorem State.afterLegEvent_of_noWork (h : t.NoWork) (s : State) (l : LegId) : t.afterLegEvent s l = t :=
  State.afterLegEvent_nil s (h.2.1 l) h.1

theorem exec_qualification (hr : s.resetHeld = false) (hw : s.NoWork) (htimer : (s.lane x).presence.timer.isSome = true)
    (h : (s.lane x).presence.raw ≠ (s.lane x).presence.qualified) :
    exec (.qualificationTimerExpiry x) s = .next (s.presenceEvent x) := by
  rw [exec_qualificationTimerExpiry, whenRunning_of_can _ hr htimer]
  exact congrArg _ (State.afterLegEvent_of_noWork
    ((legUpdate_presenceEvent h).noWork (State.noWork_modLane hw x _)) s _)

theorem otherSide_ne (d : Side) : otherSide d ≠ d := by cases d <;> nofun

/-- R43, R44: the trigger with a member lane ABSENT, mode by mode. -/
theorem RelayDirection.triggered_incomplete (g : Setup) (r : RelayDirection) : r.triggered g false =
    match g.relayMode with
    | .off => r
    | .follow =>
      if r.delay = none ∧ r.squelching = false then
        (if g.relayDelay = 0 then { r with squelching := true } else { r with delay := some (g.relayDelay * 1000) })
      else r
    | .pulse =>
      if r.armed = true ∧ r.delay = none ∧ r.pulse = none then
        (if g.relayDelay = 0 then ⟨false, none, some (g.pulseWidth * 1000), true⟩
         else { r with armed := false, delay := some (g.relayDelay * 1000) })
      else r := by
  obtain ⟨armed, delay, pulse, squelching⟩ := r
  unfold RelayDirection.triggered RelayDirection.delayed RelayDirection.expired
  cases hm : g.relayMode with
  | off => rfl
  | follow =>
    dsimp only
    split
    · next h => simp [h.1]
    · rfl
  | pulse => rfl

/-- The side is fully PRESENT after a gain exactly when every other member lane was PRESENT. -/
theorem State.sidePresent_qualify_of_present (h : (s.lane x).presence.raw = true) :
    (s.modLane x LaneState.qualify).sidePresent l d = true ↔
      ∀ y ∈ s.memberSides l d, y ≠ x → (s.lane y).presence.qualified = true := by
  have heach (y : LaneSide) : ((s.modLane x LaneState.qualify).lane y).presence.qualified = true ↔
      (y ≠ x → (s.lane y).presence.qualified = true) := by
    rw [State.qualified_modLane_qualify, h]
    by_cases hy : y = x <;> simp [hy]
  simp [State.sidePresent, heach]

/-- Settles O16. -/
theorem relayTriggersAndReleases : Obligations.RelayTriggersAndReleases := by
  intro x s hr hmap hw htimer h hunlocked
  refine ⟨_, exec_qualification hr hw htimer h, ?_⟩
  have hleg : (s.modLane x LaneState.qualify).leg (s.legOf x) = s.leg (s.legOf x) := rfl
  rw [State.leg_presenceEvent h]
  cases hraw : (s.lane x).presence.raw with
  | false =>
    have hrelay (e : Side) := State.relay_afterLoss (e := e) (State.allPresent_qualify_of_absent hmap hraw)
      (State.sidePresent_qualify_of_absent hmap hraw)
    simp only [hleg] at hrelay
    refine ⟨?other, fun _ hout => ?trigger, nofun, fun hno => ?none⟩
    case other => exact (hrelay _).trans (if_neg fun hd => otherSide_ne _ hd.1)
    case trigger => exact ((hrelay _).trans (if_pos ⟨rfl, hout⟩)).trans (RelayDirection.triggered_incomplete _ _)
    case none =>
      have hparked : (s.leg (s.legOf x)).state = .parked := by simpa using hno
      exact (hrelay _).trans (if_neg fun hd => hd.2 hparked)
  | true =>
    have hqualified : (s.lane x).presence.qualified = false := by simpa [hraw] using h.symm
    have hrelay (e : Side) := State.relay_afterGain (e := e) (d := x.side)
      (fun _ => State.allLocked_qualify hmap (hunlocked hqualified))
    simp only [hleg, State.sidePresent_qualify_of_present hraw] at hrelay
    refine ⟨?other, nofun, fun _ hall => ?release, fun hno => ?none⟩
    case other => exact (hrelay _).trans (if_neg fun hd => otherSide_ne _ hd.1)
    case release => exact (hrelay _).trans (if_pos ⟨rfl, hall⟩)
    case none =>
      obtain ⟨hf, -⟩ | ⟨-, y, hy, hne, hq⟩ := hno
      · exact absurd hf nofun
      · exact (hrelay _).trans (if_neg fun hd => by simp [hd.2 y hy hne] at hq)

end Sys2Proof.Machine

end

section
/-! What a qualified presence change does to a leg (R16, R17, R19, R31, R34): on a PARKED leg, and on one that is not. -/

namespace Sys2Proof.Machine

variable {s t u : State} {l : LegId} {x : LaneSide} {d : Side}

/-- R16: a PARKED leg's relay alone can take the event. -/
theorem State.afterChange_of_parked (hp : (u.leg l).state = .parked) (d : Side) (present : Bool) :
    ∃ f, u.afterChange l d present = u.modRelay l d f := by
  have hgain : u.legPresenceGain l = u := by rw [State.legPresenceGain, if_neg (by simp [hp])]
  cases present with
  | false => exact ⟨id, (if_pos hp).trans (State.modRelay_of_eq rfl).symm⟩
  | true =>
    by_cases hside : u.sidePresent l d = true
    · exact ⟨_, (if_pos hside).trans (by rw [hgain, State.relayRelease_eq])⟩
    · exact ⟨id, (if_neg hside).trans (by rw [hgain, State.modRelay_of_eq (f := id) rfl])⟩

/-- R146: an event that leaves the state of its leg is none at the leg engine. -/
theorem State.afterLegEvent_of_state (h : (t.leg l).state = (s.leg l).state) : t.afterLegEvent s l = t := if_pos h

/-- R19: the wake watch of a PARKED leg, in one formula with the mask. -/
theorem State.presenceEvent_of_parked (h : (s.lane x).presence.raw ≠ (s.lane x).presence.qualified)
    (hp : (s.leg (s.legOf x)).state = .parked) : ∃ f, s.presenceEvent x =
      if (s.leg (s.legOf x)).setup.wakeWatch = true ∧ (s.lane x).mask.timer = none then
        ((s.modLane x LaneState.qualify).modRelay (s.legOf x) x.side f).legNotice (s.legOf x)
      else (s.modLane x LaneState.qualify).modRelay (s.legOf x) x.side f := by
  obtain ⟨f, hf⟩ := State.afterChange_of_parked (u := s.modLane x LaneState.qualify) hp x.side (s.lane x).presence.raw
  refine ⟨f, ?_⟩
  have hstate : (((s.modLane x LaneState.qualify).modRelay (s.legOf x) x.side f).leg (s.legOf x)).state = .parked := by
    rw [State.modRelay, State.state_modLegSide]
    exact hp
  have hsetup : (((s.modLane x LaneState.qualify).modRelay (s.legOf x) x.side f).leg (s.legOf x)).setup =
      (s.leg (s.legOf x)).setup := (legUpdate_modRelay _ _ _ _).setup
  rw [State.presenceEvent_eq h, hf, State.wakeWatch_eq, hstate, hsetup]
  cases hm : (s.lane x).mask.timer <;> simp

/-- A change of one relay direction leaves the leg's items. -/
theorem State.items_modRelay (s : State) (l : LegId) (d : Side) (f : RelayDirection → RelayDirection) :
    ((s.modRelay l d f).leg l).state = (s.leg l).state ∧ ((s.modRelay l d f).leg l).intent = (s.leg l).intent ∧
      ((s.modRelay l d f).leg l).presenceLosses = (s.leg l).presenceLosses ∧
      ((s.modRelay l d f).leg l).setup = (s.leg l).setup ∧
      ((s.modRelay l d f).leg l).attempts = (s.leg l).attempts := by
  rw [State.modRelay, State.leg_modLegSide_self]
  cases d <;> exact ⟨rfl, rfl, rfl, rfl, rfl⟩

/-- Settles O11. -/
theorem qualificationOnAParkedLeg : Obligations.QualificationOnAParkedLeg := by
  intro x s hr htimer h hp
  have hupdate := legUpdate_presenceEvent h
  obtain ⟨f, hf⟩ := State.presenceEvent_of_parked h hp
  obtain ⟨hstate, hintent, hlosses, hsetup, hattempts⟩ :=
    State.items_modRelay (s.modLane x LaneState.qualify) (s.legOf x) x.side f
  have hleg : (s.presenceEvent x).leg (s.legOf x) =
      ((s.modLane x LaneState.qualify).modRelay (s.legOf x) x.side f).leg (s.legOf x) := by
    rw [hf]
    split <;> rfl
  have hlane (y : LaneSide) : (s.presenceEvent x).lane y = (s.modLane x LaneState.qualify).lane y := by
    rw [hf]
    split <;> rfl
  have hexec : exec (.qualificationTimerExpiry x) s = .next (s.presenceEvent x) := by
    rw [exec_qualificationTimerExpiry, whenRunning_of_can _ hr htimer]
    exact congrArg _ (State.afterLegEvent_of_state (by rw [hleg, hstate]; rfl))
  obtain ⟨hpins, hpower, hdevice, hmap, hfaults, -, hline, hqueue, hwait, hlist, howed⟩ := hupdate.registers
  refine ⟨_, hexec, ?_, ?_, ?_, ?_, ?_, hleg ▸ hstate.trans hp, hleg ▸ hintent, hleg ▸ hlosses, hleg ▸ hsetup,
    hleg ▸ hattempts, fun y hy => (hlane y).trans (State.sameLanesBut_modLane s x _ y hy), hupdate.sameLegsBut, hpins,
    hpower, hdevice, hmap, ⟨fun k => ?_, hqueue, hwait, hlist, howed⟩, fun n _ => ?_, fun p _ => ?_, fun a => ?_, hfaults,
    hline⟩
  · rw [hlane, State.lane_modLane_self]; rfl
  · rw [hlane, State.lane_modLane_self]; rfl
  · rw [hlane, State.lane_modLane_self]; rfl
  · rw [hlane, State.lane_modLane_self]; rfl
  all_goals rw [hf]; split <;> rfl

/-! ### A leg that is not PARKED -/

/-- The items of a leg with one relay direction changed. -/
def Leg.withRelay (g : Leg) (d : Side) (f : RelayDirection → RelayDirection) : Leg :=
  g.modSide d fun v => { v with relay := f v.relay }

theorem Leg.side_withRelay (g : Leg) (d e : Side) (f : RelayDirection → RelayDirection) :
    (g.withRelay d f).side e = { g.side e with relay := if e = d then f (g.side e).relay else (g.side e).relay } := by
  rw [Leg.withRelay, Leg.side_modSide]
  split <;> simp_all

theorem Leg.withRelay_keeps (g : Leg) (d : Side) (f : RelayDirection → RelayDirection) :
    { g.withRelay d f with line := g.line, switch := g.switch } = g ∧ (g.withRelay d f).state = g.state ∧
      (g.withRelay d f).intent = g.intent ∧ (g.withRelay d f).attempts = g.attempts ∧
      (g.withRelay d f).lockTimer = g.lockTimer ∧ (g.withRelay d f).presenceLosses = g.presenceLosses := by
  cases d <;> exact ⟨rfl, rfl, rfl, rfl, rfl, rfl⟩

theorem State.modRelay_eq (s : State) (l : LegId) (d : Side) (f : RelayDirection → RelayDirection) :
    s.modRelay l d f = s.modLeg l (fun g => g.withRelay d f) := rfl

/-- The items of a leg after the presence event of a lane side, its relay aside. -/
def Leg.afterChange (g : Leg) (present allPresent : Bool) : Leg := if present then g.gained allPresent else g.lost

theorem Leg.lost_keeps (g : Leg) : g.lost.intent = g.intent ∧ g.lost.attempts = g.attempts ∧
    (g.state ≠ .parked → g.lost.state = .dark) := by
  obtain ⟨-, hintent, hattempts, -⟩ := Leg.abandoned_keeps g
  unfold Leg.lost
  split
  · next h => exact ⟨rfl, rfl, fun hne => absurd h hne⟩
  · next h => exact ⟨rfl, rfl, fun _ => h⟩
  · exact ⟨hintent, hattempts, fun _ => rfl⟩

theorem Leg.gained_keeps (g : Leg) (p : Bool) : (g.gained p).intent = g.intent ∧ (g.gained p).attempts = g.attempts ∧
    (g.gained p).line = g.line ∧ (g.gained p).switch = g.switch ∧
    (g.state ≠ .parked → (g.gained p).state ≠ .parked) := by
  unfold Leg.gained
  split
  · exact ⟨rfl, rfl, rfl, rfl, fun _ => nofun⟩
  · exact ⟨rfl, rfl, rfl, rfl, id⟩

theorem Leg.afterChange_keeps (g : Leg) (present allPresent : Bool) :
    (g.afterChange present allPresent).intent = g.intent ∧
      (g.afterChange present allPresent).attempts = g.attempts ∧
      (g.state ≠ .parked → (g.afterChange present allPresent).state ≠ .parked) := by
  obtain ⟨hi, ha, hs⟩ := Leg.lost_keeps g
  obtain ⟨hi', ha', -, -, hs'⟩ := Leg.gained_keeps g allPresent
  cases present
  · exact ⟨hi, ha, fun h => by rw [show g.afterChange false allPresent = g.lost from rfl, hs h]; nofun⟩
  · exact ⟨hi', ha', hs'⟩

/-- With a gain, or a loss in DARK, the leg controller's own items are all that changes. -/
theorem State.afterChange_eq {present : Bool} (hp : (u.leg l).state ≠ .parked)
    (hgain : present = true → (u.leg l).state = .dark → u.allLocked l = false)
    (h : present = true ∨ (u.leg l).state = .dark) : ∃ f, u.afterChange l d present =
      u.modLeg l (fun g => (g.afterChange present (u.allPresent l)).withRelay d f) := by
  have hid (g : Leg) : g.withRelay d id = g := by cases d <;> rfl
  cases present with
  | false =>
    have hdark : (u.leg l).state = .dark := h.resolve_left nofun
    have hloss : u.legPresenceLoss l = u := by simp [State.legPresenceLoss, hdark]
    refine ⟨RelayDirection.triggered (u.leg l).setup (u.sidePresent l d), (if_neg hp).trans ?_⟩
    rw [hloss, State.relayTrigger_eq, State.modRelay_eq]
    exact State.modLeg_congr (by simp [Leg.afterChange, Leg.lost, hdark])
  | true =>
    by_cases hside : u.sidePresent l d = true
    · refine ⟨RelayDirection.released ((u.legPresenceGain l).leg l).setup, (if_pos hside).trans ?_⟩
      rw [State.relayRelease_eq, State.legPresenceGain_eq (hgain rfl), State.modRelay_eq, State.modLeg_modLeg]
      rfl
    · refine ⟨id, (if_neg hside).trans ?_⟩
      rw [State.legPresenceGain_eq (hgain rfl)]
      exact State.modLeg_congr (hid _).symm

/-- The items of the leg after the event, whatever its state. -/
theorem State.leg_afterChange {present : Bool} (hp : (u.leg l).state ≠ .parked)
    (hgain : present = true → (u.leg l).state = .dark → u.allLocked l = false)
    (hloss : present = false → u.allPresent l = false) :
    ∃ f, (u.afterChange l d present).leg l = ((u.leg l).afterChange present (u.allPresent l)).withRelay d f := by
  by_cases h : present = true ∨ (u.leg l).state = .dark
  · obtain ⟨f, hf⟩ := State.afterChange_eq (d := d) hp hgain h
    exact ⟨f, by rw [hf, State.leg_modLeg_self]⟩
  · obtain rfl : present = false := by simpa using fun ht => h (.inl ht)
    refine ⟨RelayDirection.triggered ((u.legPresenceLoss l).leg l).setup ((u.legPresenceLoss l).sidePresent l d),
      (congrArg (fun v : State => v.leg l) (if_neg hp)).trans ?_⟩
    rw [State.relayTrigger_eq, State.modRelay_eq, State.leg_modLeg_self, State.leg_legPresenceLoss (hloss rfl)]
    rfl

theorem State.engine_interruptScan (s : State) (l : LegId) (p : PageId) (k : LegId) :
    (s.interruptScan l p).engine k = s.engine k := by
  unfold State.interruptScan
  split
  · split
    · rw [State.endScan, State.engine_endAwaited]; rfl
    · rfl
  · rfl

theorem State.engine_abandonSide (s : State) (l : LegId) (d : Side) (k : LegId) :
    (s.abandonSide l d).engine k = s.engine k := by
  unfold State.abandonSide
  split
  · rw [State.engine_modLegSide, State.engine_modLanes]
  · rw [State.engine_modLanes]

theorem State.engine_leave (s : State) (l k : LegId) :
    ((s.abandonSessions l).leaveCarrying l).engine k = s.engine k := by
  have habandon : (s.abandonSessions l).engine k = s.engine k := by
    unfold State.abandonSessions
    split
    · rw [State.engine_abandonSide, State.engine_abandonSide]
    · rfl
  rw [← habandon, State.leaveCarrying]
  split
  · exact foldl_keeps (fun t : State => t.engine k) _ (fun t p => State.engine_interruptScan t l p k) _ _
  · rfl

theorem State.keeps_legPresenceLoss (h : u.allPresent l = false) :
    u.KeepsTaps (u.legPresenceLoss l) ∧ (u.legPresenceLoss l).engine l = u.engine l := by
  have hleave := legUpdate_leave u l
  have hout (f : Leg → Leg) : u.KeepsTaps ((((u.abandonSessions l).leaveCarrying l).modLeg l f).enterDark l) ∧
      ((((u.abandonSessions l).leaveCarrying l).modLeg l f).enterDark l).engine l = u.engine l := by
    constructor
    · refine (keepsTaps_leave u l).trans fun y => ?_
      rw [State.lane_enterDark (.inl (by rw [State.allPresent_modLeg, hleave.allPresent, h])), State.lane_modLeg]
    · rw [(State.keepsSignals_enterDark _ l).engine, State.engine_modLeg, State.engine_leave]
  unfold State.legPresenceLoss
  split
  · exact ⟨.refl u, rfl⟩
  · exact ⟨.refl u, rfl⟩
  · exact hout _

/-- The event changes no triple and no in-flight set. -/
theorem State.keeps_afterChange {present : Bool} (hp : (u.leg l).state ≠ .parked)
    (hgain : present = true → (u.leg l).state = .dark → u.allLocked l = false)
    (hloss : present = false → u.allPresent l = false) :
    u.KeepsTaps (u.afterChange l d present) ∧ (u.afterChange l d present).engine l = u.engine l := by
  by_cases h : present = true ∨ (u.leg l).state = .dark
  · obtain ⟨f, hf⟩ := State.afterChange_eq (d := d) hp hgain h
    rw [hf]
    exact ⟨.refl u, rfl⟩
  · obtain rfl : present = false := by simpa using fun ht => h (.inl ht)
    have heq : u.afterChange l d false = (u.legPresenceLoss l).relayTrigger l d := if_neg hp
    rw [heq, State.relayTrigger_eq]
    exact State.keeps_legPresenceLoss (hloss rfl)

/-- The event on a leg that is not PARKED: no wake watch. -/
theorem State.presenceEvent_of_out (h : (s.lane x).presence.raw ≠ (s.lane x).presence.qualified)
    (hp : (((s.modLane x LaneState.qualify).afterChange (s.legOf x) x.side (s.lane x).presence.raw).leg
      (s.legOf x)).state ≠ .parked) : s.presenceEvent x =
    (s.modLane x LaneState.qualify).afterChange (s.legOf x) x.side (s.lane x).presence.raw := by
  have hwake : ∀ u : State, (u.leg (s.legOf x)).state ≠ .parked → u.wakeWatch (s.legOf x) = u := fun u hu => by
    rw [State.wakeWatch_eq, if_neg fun hw => hu hw.1]
  rw [State.presenceEvent_eq h, hwake _ hp, ite_self]

theorem State.allPresent_qualify_of_present (h : (s.lane x).presence.raw = true) :
    (s.modLane x LaneState.qualify).allPresent l = true ↔
      ∀ y ∈ s.allMemberSides l, y ≠ x → (s.lane y).presence.qualified = true := by
  have heach (y : LaneSide) : ((s.modLane x LaneState.qualify).lane y).presence.qualified = true ↔
      (y ≠ x → (s.lane y).presence.qualified = true) := by
    rw [State.qualified_modLane_qualify, h]
    by_cases hy : y = x <;> simp [hy]
  simp [State.allPresent, heach]

theorem State.notice_afterLoss (h : (u.leg l).state = .carrying) :
    (u.afterLoss l d).summary.getLsbD (16 + l.val) = true := by
  have hloss : (u.legPresenceLoss l).summary.getLsbD (16 + l.val) = true := by
    simp only [State.legPresenceLoss, h]
    refine ((State.LegUpdate.modLeg _ l ?_).trans (legUpdate_enterDark _ l)).summary _ (State.notice_leaveCarrying ?_)
    · rfl
    · rw [State.state_abandonSessions, h]
  rw [State.afterLoss, if_neg (by simp [h]), State.relayTrigger_eq]
  exact (legUpdate_modRelay _ l d _).summary _ hloss

theorem Leg.lost_of_dark {g : Leg} (h : g.state = .dark) : g.lost = g := by simp only [Leg.lost, h]

theorem Leg.lost_of_out {g : Leg} (hp : g.state ≠ .parked) (hd : g.state ≠ .dark) : g.lost =
    { g.abandoned with presenceLosses := nextCount g.presenceLosses, state := .dark, lockTimer := none } := by
  unfold Leg.lost
  split
  · next h => exact absurd h hp
  · next h => exact absurd h hd
  · rfl

/-- R27: the sessions of a leg that a presence loss sends to DARK. -/
theorem Leg.sessions_lost {g : Leg} (hp : g.state ≠ .parked) (hd : g.state ≠ .dark) (d : Side) :
    ((g.side d).session ≠ .running → (g.lost.side d).session = (g.side d).session) ∧
      (g.state = .tune → (g.side d).session = .running →
        (g.lost.side d).session = .idle ∧ (g.lost.side d).weak = 0 ∧ (g.lost.side d).timer = none) := by
  have hside : g.lost.side d = if g.state = .tune then (g.side d).abandoned else g.side d := by
    rw [Leg.lost_of_out hp hd, ← Leg.side_abandoned]
    cases d <;> rfl
  rw [hside]
  refine ⟨fun h => ?_, fun ht h => ?_⟩
  · rw [LegSide.abandoned_of_not h, ite_self]
  · rw [if_pos ht]
    exact LegSide.abandoned_of_running h

/-- With a gain, or a loss in DARK, the items that the leg holds for its sides stand. -/
theorem Leg.sides_afterChange {g : Leg} {present : Bool} (allPresent : Bool) (h : present = true ∨ g.state = .dark)
    (d : Side) : (g.afterChange present allPresent).side d = g.side d := by
  cases present with
  | false => rw [Leg.afterChange, if_neg nofun, Leg.lost_of_dark (h.resolve_left nofun)]
  | true =>
    obtain ⟨-, -, hline, hswitch, -⟩ := Leg.gained_keeps g allPresent
    cases d
    · exact hline
    · exact hswitch

/-- Settles O12. -/
theorem presenceEventsMoveTheLeg : Obligations.PresenceEventsMoveTheLeg := by
  intro x s hr hmap hw htimer h hunlocked hp
  have hgain : (s.lane x).presence.raw = true → (s.leg (s.legOf x)).state = .dark →
      (s.modLane x LaneState.qualify).allLocked (s.legOf x) = false := fun hraw _ =>
    State.allLocked_qualify hmap (hunlocked (by simpa [hraw] using h.symm))
  have hloss := State.allPresent_qualify_of_absent (s := s) hmap (x := x)
  obtain ⟨f, hleg⟩ := State.leg_afterChange (u := s.modLane x LaneState.qualify) (d := x.side) hp hgain hloss
  obtain ⟨htaps, hengine⟩ := State.keeps_afterChange (u := s.modLane x LaneState.qualify) (d := x.side) hp hgain hloss
  have hupdate := legUpdate_afterChange (s.modLane x LaneState.qualify) (s.legOf x) x.side (s.lane x).presence.raw
  rw [State.leg_modLane] at hleg
  obtain ⟨hintent, hattempts, hout⟩ := Leg.afterChange_keeps (s.leg (s.legOf x)) (s.lane x).presence.raw
    ((s.modLane x LaneState.qualify).allPresent (s.legOf x))
  obtain ⟨hitems, hstate, hintent', hattempts', htimer', hlosses⟩ := Leg.withRelay_keeps
    ((s.leg (s.legOf x)).afterChange (s.lane x).presence.raw
      ((s.modLane x LaneState.qualify).allPresent (s.legOf x))) x.side f
  have hsides := (Leg.side_withRelay ((s.leg (s.legOf x)).afterChange (s.lane x).presence.raw
    ((s.modLane x LaneState.qualify).allPresent (s.legOf x))) x.side · f)
  rw [← hleg] at hitems hstate hintent' hattempts' htimer' hlosses hsides
  have heq := State.presenceEvent_of_out h (hstate ▸ hout hp)
  obtain ⟨hpins, hpower, hdevice, hsame, hfaults, hsettings, hline, -⟩ := hupdate.registers
  refine ⟨_, heq ▸ exec_qualification hr hw htimer h, ?presence, ?locked, ?counters, hattempts'.trans hattempts,
    hintent'.trans hintent, hupdate.setup, congrArg LegEngine.inFlight hengine, fun y => (htaps y).trans ?taps,
    fun y hy => ?others, hupdate.sameLegsBut, hpins,
    hpower, hdevice, hsame, hfaults, hsettings, hline, fun hraw hdark => ?loss, fun hraw hdark hall => ?gain,
    fun hno => ?stands, fun hquiet => ?quiet⟩
  case presence => rw [(hupdate.lanes x).1, State.lane_modLane_self]; rfl
  case locked => rw [(hupdate.lanes x).2.1, State.lane_modLane_self]; rfl
  case counters => rw [(hupdate.lanes x).2.2.1, State.lane_modLane_self]; rfl
  case taps => exact State.KeepsTaps.modLane s x (f := LaneState.qualify) (fun _ => rfl) y
  case others =>
    obtain ⟨hpresence, hlocked, hcounters, -⟩ := hupdate.lanes y
    rw [State.lane_modLane, if_neg hy] at hpresence hlocked hcounters
    exact ⟨hcounters, hpresence, hlocked⟩
  case loss =>
    have hcore : (s.leg (s.legOf x)).afterChange (s.lane x).presence.raw
        ((s.modLane x LaneState.qualify).allPresent (s.legOf x)) = (s.leg (s.legOf x)).lost := by rw [hraw]; rfl
    rw [hcore] at hstate htimer' hlosses hsides
    have hsessions := Leg.sessions_lost hp hdark
    rw [Leg.lost_of_out hp hdark] at hstate htimer' hlosses
    refine ⟨hstate, htimer', hlosses, fun hc => ?_, fun d hd => ?_, fun ht d hd => ?_⟩
    · rw [hraw]
      exact State.notice_afterLoss hc
    · rw [hsides]
      exact (hsessions d).1 hd
    · rw [hsides]
      exact (hsessions d).2 ht hd
  case gain =>
    have hcore : (s.leg (s.legOf x)).afterChange (s.lane x).presence.raw
        ((s.modLane x LaneState.qualify).allPresent (s.legOf x)) = { s.leg (s.legOf x) with
          state := .acquire, lockTimer := some ((s.leg (s.legOf x)).setup.lockTimeout * 1000) } := by
      rw [hraw, (State.allPresent_qualify_of_present hraw).mpr hall]
      have hg : (s.leg (s.legOf x)).state = .dark ∧ true = true := ⟨hdark, rfl⟩
      exact if_pos hg
    rw [hcore] at hstate htimer'
    exact ⟨hstate, htimer'⟩
  case stands =>
    have hcore : (s.leg (s.legOf x)).afterChange (s.lane x).presence.raw
        ((s.modLane x LaneState.qualify).allPresent (s.legOf x)) = s.leg (s.legOf x) := by
      obtain ⟨hraw, hdark⟩ | ⟨hraw, hnot⟩ := hno
      · rw [hraw]
        exact Leg.lost_of_dark hdark
      · rw [hraw]
        have hg : ¬((s.leg (s.legOf x)).state = .dark ∧
            (s.modLane x LaneState.qualify).allPresent (s.legOf x) = true) := by
          rintro ⟨hdark, hall⟩
          obtain ⟨y, hy, hne, hq⟩ := hnot.resolve_left (not_not_intro hdark)
          simp [(State.allPresent_qualify_of_present hraw).mp hall y hy hne] at hq
        exact if_neg hg
    rw [hcore] at hitems
    exact hitems
  case quiet =>
    obtain ⟨f, hf⟩ := State.afterChange_eq (u := s.modLane x LaneState.qualify) (d := x.side) hp hgain hquiet
    refine ⟨?_, fun d => ?_, ?_⟩
    · rw [hf, State.lane_modLeg, State.lane_modLane_self]; rfl
    · rw [hsides, Leg.sides_afterChange _ hquiet]
    · rw [hf]
      exact ⟨State.sameLanesBut_modLane s x _, ⟨fun _ => rfl, rfl, rfl, rfl, rfl⟩, fun _ _ => rfl, fun _ _ => rfl,
        fun _ => rfl, rfl, rfl, rfl, rfl, rfl⟩

end Sys2Proof.Machine

end

section
/-! The entry into TUNE (R32, R36, R40), RECEIVER_LOCK (R32) and RECEIVER_UNLOCK (R35). -/

namespace Sys2Proof.Machine

variable {s t u : State} {l : LegId} {x : LaneSide} {d : Side} {kind : SessionKind} {named : List Side}

/-! ### The member lane sides of a leg -/

theorem State.nodup_members (s : State) (l : LegId) : (s.members l).Nodup := List.Nodup.filter _ (by decide)

theorem State.nodup_memberSides (hmap : s.MapPermutes) (l : LegId) (d : Side) : (s.memberSides l d).Nodup := by
  refine (s.nodup_members l).map fun i j h => ?_
  cases d with
  | line => exact congrArg LaneSide.lane h
  | switch => exact source_injective hmap (congrArg LaneSide.lane h)

theorem State.side_of_mem_memberSides (h : x ∈ s.memberSides l d) : x.side = d := by
  obtain ⟨i, -, rfl⟩ := List.mem_map.mp h
  exact State.side_sideOf s i d

theorem State.mem_memberSides_iff : x ∈ s.memberSides l d ↔ x ∈ s.allMemberSides l ∧ x.side = d := by
  constructor
  · intro h
    refine ⟨?_, State.side_of_mem_memberSides h⟩
    cases d
    · exact List.mem_append_left _ h
    · exact List.mem_append_right _ h
  · rintro ⟨h, rfl⟩
    rcases List.mem_append.mp h with h | h <;> exact (State.side_of_mem_memberSides h) ▸ h

/-! ### The entry into TUNE -/

theorem State.keepsSignals_modLane (s : State) (x : LaneSide) {f : LaneState → LaneState}
    (hf : ∀ v : LaneState, (f v).presence = v.presence ∧ (f v).locked = v.locked) : s.KeepsSignals (s.modLane x f) := by
  have hlane (y : LaneSide) : ((s.modLane x f).lane y).presence = (s.lane y).presence ∧
      ((s.modLane x f).lane y).locked = (s.lane y).locked := by
    rw [State.lane_modLane]
    split
    · next h => exact h ▸ hf _
    · exact ⟨rfl, rfl⟩
  exact ⟨⟨_, _, _, rfl⟩, fun y => (hlane y).1, fun y => (hlane y).2⟩

theorem State.keepsSignals_modLanes (xs : List LaneSide) {f : LaneState → LaneState}
    (hf : ∀ v : LaneState, (f v).presence = v.presence ∧ (f v).locked = v.locked) (s : State) :
    s.KeepsSignals (s.modLanes xs f) := by
  induction xs generalizing s with
  | nil => exact .refl s
  | cons x xs ih => exact (State.keepsSignals_modLane s x hf).trans (ih _)

/-- R36, R54, R55: a lane side at the entry into TUNE, its side named or not. -/
def LaneState.enterTune (g : Setup) (kind : SessionKind) (isNamed : Bool) (v : LaneState) : LaneState :=
  if isNamed then v.startSession g kind else v.standBy

/-- R36, R54, R55: the items that a leg holds for a side at the entry into TUNE, the side named or not. -/
def LegSide.enterTune (g : Setup) (isNamed : Bool) (v : LegSide) : LegSide :=
  if isNamed then v.started g else { v with session := .done }

theorem State.enterTuneSide_eq (s : State) (l : LegId) (kind : SessionKind) (named : List Side) (d : Side) :
    s.enterTuneSide l kind named d =
      (s.modLanes (s.memberSides l d) (LaneState.enterTune (s.leg l).setup kind (d ∈ named))).modLegSide l d
        (LegSide.enterTune (s.leg l).setup (d ∈ named)) := by
  unfold State.enterTuneSide LaneState.enterTune LegSide.enterTune
  by_cases h : d ∈ named
  · simp only [h, if_true, decide_true]
    rfl
  · simp only [h, if_false, decide_false, Bool.false_eq_true]
    rfl

theorem LaneState.enterTune_keeps (g : Setup) (kind : SessionKind) (isNamed : Bool) (v : LaneState) :
    (v.enterTune g kind isNamed).presence = v.presence ∧ (v.enterTune g kind isNamed).locked = v.locked := by
  cases isNamed
  · exact ⟨rfl, rfl⟩
  · exact v.startSession_keeps g kind

theorem State.keepsSignals_enterTuneSide (s : State) (l : LegId) (kind : SessionKind) (named : List Side) (d : Side) :
    s.KeepsSignals (s.enterTuneSide l kind named d) := by
  rw [State.enterTuneSide_eq]
  exact (State.keepsSignals_modLanes _ (LaneState.enterTune_keeps _ kind _) s).modLeg l _

theorem State.keepsSignals_enterTune (s : State) (l : LegId) (kind : SessionKind) (named : List Side) :
    s.KeepsSignals (s.enterTune l kind named) :=
  (((State.KeepsSignals.refl s).modLeg l _).trans (State.keepsSignals_enterTuneSide _ l kind named .line)).trans
    (State.keepsSignals_enterTuneSide _ l kind named .switch)

theorem State.leg_enterTuneSide (s : State) (l : LegId) (kind : SessionKind) (named : List Side) (d : Side) :
    (s.enterTuneSide l kind named d).leg l =
      (s.leg l).modSide d (LegSide.enterTune (s.leg l).setup (d ∈ named)) := by
  rw [State.enterTuneSide_eq, State.leg_modLegSide_self, State.leg_modLanes]

/-- R36, R54, R55: the items of a leg at the entry into TUNE. -/
theorem State.leg_enterTune (s : State) (l : LegId) (kind : SessionKind) (named : List Side) :
    (s.enterTune l kind named).leg l = { s.leg l with
      state := .tune, kind := kind
      line := (s.leg l).line.enterTune (s.leg l).setup (Side.line ∈ named)
      switch := (s.leg l).switch.enterTune (s.leg l).setup (Side.switch ∈ named) } := by
  rw [State.enterTune, State.leg_enterTuneSide, State.leg_enterTuneSide, State.leg_modLeg_self]
  rfl

theorem State.side_leg_enterTune (s : State) (l : LegId) (kind : SessionKind) (named : List Side) (d : Side) :
    ((s.enterTune l kind named).leg l).side d = ((s.leg l).side d).enterTune (s.leg l).setup (d ∈ named) := by
  rw [State.leg_enterTune]
  cases d <;> rfl

theorem State.lane_enterTuneSide (hmap : s.MapPermutes) (l : LegId) (kind : SessionKind) (named : List Side) (d : Side)
    (y : LaneSide) : (s.enterTuneSide l kind named d).lane y =
      if y ∈ s.memberSides l d then (s.lane y).enterTune (s.leg l).setup kind (d ∈ named) else s.lane y := by
  rw [State.enterTuneSide_eq, State.lane_modLegSide]
  split
  · next h => rw [State.lane_modLanes_of_mem (h := h) (nd := State.nodup_memberSides hmap l d)]
  · next h => rw [State.lane_modLanes_of_notMem (h := h)]

theorem State.lane_enterTuneSides (hmap : s.MapPermutes) (l : LegId) (kind : SessionKind) (named : List Side)
    (y : LaneSide) : ((s.enterTuneSide l kind named .line).enterTuneSide l kind named .switch).lane y =
      if y ∈ s.allMemberSides l then (s.lane y).enterTune (s.leg l).setup kind (y.side ∈ named) else s.lane y := by
  have hline := State.keepsSignals_enterTuneSide s l kind named .line
  have hmap' : (s.enterTuneSide l kind named .line).MapPermutes := fun sw => by
    obtain ⟨i, hi⟩ := hmap sw
    exact ⟨i, (congrArg MapEntry.source (State.entry_keepsSignals hline i)).trans hi⟩
  have hsetup : ((s.enterTuneSide l kind named .line).leg l).setup = (s.leg l).setup := by
    rw [State.leg_enterTuneSide, Leg.setup_modSide]
  have hmembers (d : Side) : (s.enterTuneSide l kind named .line).memberSides l d = s.memberSides l d := by
    obtain ⟨_, _, _, h⟩ := hline.update
    rw [h]
    rfl
  rw [State.lane_enterTuneSide hmap', hsetup, hmembers, State.lane_enterTuneSide hmap]
  by_cases hy : y ∈ s.allMemberSides l
  · cases hd : y.side <;> simp [State.mem_memberSides_iff, hy, hd]
  · simp [State.mem_memberSides_iff, hy]

/-- R36, R54, R55: each lane side at the entry of a leg into TUNE. -/
theorem State.lane_enterTune (hmap : s.MapPermutes) (l : LegId) (kind : SessionKind) (named : List Side)
    (y : LaneSide) : (s.enterTune l kind named).lane y =
      if y ∈ s.allMemberSides l then (s.lane y).enterTune (s.leg l).setup kind (y.side ∈ named) else s.lane y := by
  rw [State.enterTune, State.lane_enterTuneSides (s := s.modLeg l fun g => { g with state := .tune, kind := kind }) hmap,
    State.leg_modLeg_self, State.lane_modLeg, State.allMemberSides_modLeg]

/-! ### RECEIVER_LOCK (R1, R32) -/

/-- R32: with a member lane UNLOCKED the leg stays in ACQUIRE. -/
theorem State.tryTune_of_unlocked (h : s.allLocked l = false) : s.tryTune l = s := if_neg (by simp [h])

theorem State.tryTune_of_locked (h : s.allLocked l = true) :
    s.tryTune l = (s.modLeg l fun g => { g with lockTimer := none }).enterTune l .bringUp [.line, .switch] := if_pos h

theorem State.keepsSignals_tryTune (s : State) (l : LegId) : s.KeepsSignals (s.tryTune l) := by
  unfold State.tryTune
  split
  · exact ((State.KeepsSignals.refl s).modLeg l _).trans (State.keepsSignals_enterTune _ l _ _)
  · exact .refl s

/-- R32, R36: the items of a leg that its last lock sends to TUNE. -/
theorem State.leg_tryTune (h : s.allLocked l = true) : (s.tryTune l).leg l = { s.leg l with
    state := .tune, kind := .bringUp, lockTimer := none
    line := (s.leg l).line.started (s.leg l).setup, switch := (s.leg l).switch.started (s.leg l).setup } := by
  rw [State.tryTune_of_locked h, State.leg_enterTune, State.leg_modLeg_self]
  rfl

theorem State.lane_tryTune (hmap : s.MapPermutes) (h : s.allLocked l = true) (y : LaneSide) : (s.tryTune l).lane y =
    if y ∈ s.allMemberSides l then (s.lane y).startSession (s.leg l).setup .bringUp else s.lane y := by
  rw [State.tryTune_of_locked h, State.lane_enterTune (s := s.modLeg l fun g => { g with lockTimer := none }) hmap,
    State.leg_modLeg_self, State.lane_modLeg, State.allMemberSides_modLeg]
  cases y.side <;> rfl

theorem exec_receiverLock_eq (hr : s.resetHeld = false) (hw : s.NoWork) (he : s.effective = .active)
    (hp : (s.lane x).presence.qualified = true) (hl : (s.lane x).locked = false) :
    exec (.receiverLock x) s = .next (s.lockEvent x) := by
  have hupdate : (s.modLane x fun v => { v with locked := true }).LegUpdate (s.legOf x) (s.lockEvent x) := by
    unfold State.lockEvent
    dsimp only
    split
    · exact legUpdate_tryTune _ _
    · exact .refl _ _
  rw [exec_receiverLock, whenRunning_of_can _ hr (by simp [hp, hl, he])]
  exact congrArg _ (State.afterLegEvent_of_noWork (hupdate.noWork (State.noWork_modLane hw x _)) s _)

/-- The receivers of the leg are all LOCKED after the event exactly when every other one was. -/
theorem State.allLocked_lock :
    (s.modLane x fun v => { v with locked := true }).allLocked l = true ↔
      ∀ y ∈ s.allMemberSides l, y ≠ x → (s.lane y).locked = true := by
  have heach (y : LaneSide) : ((s.modLane x fun v => { v with locked := true }).lane y).locked = true ↔
      (y ≠ x → (s.lane y).locked = true) := by
    rw [State.lane_modLane]
    by_cases hy : y = x <;> simp [hy]
  simp [State.allLocked, heach]

/-- R32: the lock event, by the receivers of the leg and its state. -/
theorem State.lockEvent_eq (s : State) (x : LaneSide) : s.lockEvent x =
    if (s.leg (s.legOf x)).state = .acquire then (s.modLane x fun v => { v with locked := true }).tryTune (s.legOf x)
    else s.modLane x fun v => { v with locked := true } := rfl

/-- Settles O13. -/
theorem lastLockStartsTheSessions : Obligations.LastLockStartsTheSessions := by
  intro x s hr hmap hw he hp hl
  refine ⟨fun hno => ⟨_, exec_receiverLock_eq hr hw he hp hl, ?_⟩,
    fun ha hall => ⟨_, exec_receiverLock_eq hr hw he hp hl, ?_⟩⟩
  · have heq : s.lockEvent x = s.modLane x fun v => { v with locked := true } := by
      rw [State.lockEvent_eq]
      split
      · next ha =>
        refine State.tryTune_of_unlocked (Bool.eq_false_iff.mpr fun hall => ?_)
        obtain ⟨y, hy, hne, hlocked⟩ := hno.resolve_left (not_not_intro ha)
        simp [State.allLocked_lock.mp hall y hy hne] at hlocked
      · rfl
    rw [heq]
    exact ⟨State.lane_modLane_self .., State.sameLanesBut_modLane s x _, fun _ _ => rfl, State.sameOutside_modLane s x _⟩
  · have hlocked := State.allLocked_lock.mpr hall
    have hleg := State.leg_tryTune hlocked
    have hlane := State.lane_tryTune (s := s.modLane x fun v => { v with locked := true }) hmap hlocked
    have hmember (y : LaneSide) (hy : y ∈ s.allMemberSides (s.legOf x)) :
        (s.modLane x fun v => { v with locked := true }).lane y = { s.lane y with locked := true } := by
      rw [State.lane_modLane]
      split
      · next h => rw [h]
      · next h => rw [← hall y hy h]
    rw [State.leg_modLane] at hleg
    rw [State.lockEvent_eq, if_pos ha]
    refine ⟨by rw [hleg], by rw [hleg], by rw [hleg], by rw [hleg], fun d => ?_, fun y hy => ?_, fun y hy => ?_,
      (legUpdate_tryTune _ _).sameLegsBut, ?_⟩
    · rw [hleg]
      cases d <;> exact ⟨rfl, rfl, rfl⟩
    · rw [hlane, if_pos (by exact hy), hmember y hy]
      exact ⟨rfl, rfl, rfl, rfl, rfl, rfl, rfl, rfl, rfl⟩
    · rw [hlane, if_neg (by exact hy), State.lane_modLane, if_neg fun h : y = x => hy (h ▸ State.mem_allMemberSides hmap x)]
    · exact (State.keepsSignals_tryTune (s.modLane x fun v => { v with locked := true }) _).sameOutside

/-! ### RECEIVER_UNLOCK (R1, R35, R124) -/

/-- R35, R124: a lane side whose lock is lost, and the loss counted. -/
def LaneState.loseLock (v : LaneState) : LaneState :=
  { v with
    locked := false
    counters := { v.counters with lockLosses := countUp Config.laneCounterMax v.counters.lockLosses } }

/-- R35: the leg leaves its state for ACQUIRE. -/
def State.fallToAcquire (s : State) (l : LegId) : State :=
  ((s.abandonSessions l).leaveCarrying l).enterAcquire l

theorem State.unlockEvent_of_in (h : (s.leg (s.legOf x)).state = .parked ∨ (s.leg (s.legOf x)).state = .dark ∨
    (s.leg (s.legOf x)).state = .acquire) : s.unlockEvent x = s.modLane x fun v => { v with locked := false } := by
  unfold State.unlockEvent
  dsimp only
  rw [State.leg_modLane]
  obtain h | h | h := h <;> rw [h]

theorem State.unlockEvent_of_out (h : (s.leg (s.legOf x)).state = .tune ∨ (s.leg (s.legOf x)).state = .carrying) :
    s.unlockEvent x = (s.modLane x LaneState.loseLock).fallToAcquire (s.legOf x) := by
  unfold State.unlockEvent
  dsimp only
  rw [State.leg_modLane]
  obtain h | h := h <;> rw [h] <;> dsimp only <;> rw [State.modLane_modLane] <;> rfl

theorem State.fallToAcquire_eq (h : s.allLocked l = false) : s.fallToAcquire l =
    ((s.abandonSessions l).leaveCarrying l).modLeg l fun g =>
      { g with state := .acquire, lockTimer := some (g.setup.lockTimeout * 1000) } := by
  have hunlocked : (((s.abandonSessions l).leaveCarrying l).modLeg l fun g =>
      { g with state := .acquire, lockTimer := some (g.setup.lockTimeout * 1000) }).allLocked l = false := by
    rw [State.allLocked_modLeg, (legUpdate_leave s l).allLocked, h]
  rw [State.fallToAcquire, State.enterAcquire, State.tryTune_of_unlocked hunlocked]

theorem legUpdate_fallToAcquire (s : State) (l : LegId) : s.LegUpdate l (s.fallToAcquire l) :=
  (legUpdate_leave s l).trans (legUpdate_enterAcquire _ l)

/-- R35: the leg after a lock loss, its timer started and its attempts kept. -/
theorem State.leg_fallToAcquire (h : s.allLocked l = false) : (s.fallToAcquire l).leg l = { (s.leg l).abandoned with
    state := .acquire, lockTimer := some ((s.leg l).setup.lockTimeout * 1000) } := by
  obtain ⟨-, -, -, -, hsetup, -⟩ := Leg.abandoned_keeps (s.leg l)
  rw [State.fallToAcquire_eq h, State.leg_modLeg_self, State.leg_leave, ← hsetup]

theorem State.allLocked_of_unlocked (hmap : s.MapPermutes) (h : (s.lane x).locked = false) :
    s.allLocked (s.legOf x) = false := State.allLocked_eq_false.mpr ⟨x, State.mem_allMemberSides hmap x, h⟩

theorem State.notice_fallToAcquire (h : (s.leg l).state = .carrying) :
    (s.fallToAcquire l).summary.getLsbD (16 + l.val) = true :=
  (legUpdate_enterAcquire _ l).summary _
    (State.notice_leaveCarrying (by rw [State.state_abandonSessions, h]))

theorem exec_receiverUnlock_eq (hr : s.resetHeld = false) (hw : s.NoWork) (hl : (s.lane x).locked = true) :
    exec (.receiverUnlock x) s = .next (s.unlockEvent x) := by
  rw [exec_receiverUnlock, whenRunning_of_can _ hr hl]
  refine congrArg _ (State.afterLegEvent_of_noWork (t := s.unlockEvent x) ?_ s _)
  by_cases h : (s.leg (s.legOf x)).state = .tune ∨ (s.leg (s.legOf x)).state = .carrying
  · rw [State.unlockEvent_of_out h]
    exact (legUpdate_fallToAcquire _ _).noWork (State.noWork_modLane hw x _)
  · rw [State.unlockEvent_of_in (by cases hs : (s.leg (s.legOf x)).state <;> simp [hs] at h ⊢)]
    exact State.noWork_modLane hw x _

/-- Settles O14. -/
theorem lockLossSendsTheLegToAcquire : Obligations.LockLossSendsTheLegToAcquire := by
  intro x s hr hmap hw hl
  refine ⟨_, exec_receiverUnlock_eq hr hw hl, ?unlocked, fun hin => ?stays, fun hout => ?falls⟩
  case stays =>
    rw [State.unlockEvent_of_in hin]
    exact ⟨State.lane_modLane_self .., State.sameLanesBut_modLane s x _, fun _ _ => rfl, State.sameOutside_modLane s x _⟩
  case unlocked =>
    by_cases h : (s.leg (s.legOf x)).state = .tune ∨ (s.leg (s.legOf x)).state = .carrying
    · rw [State.unlockEvent_of_out h, ((legUpdate_fallToAcquire _ _).lanes x).2.1, State.lane_modLane_self]
      rfl
    · rw [State.unlockEvent_of_in (by cases hs : (s.leg (s.legOf x)).state <;> simp [hs] at h ⊢),
        State.lane_modLane_self]
  case falls =>
    have hunlocked : (s.modLane x LaneState.loseLock).allLocked (s.legOf x) = false :=
      State.allLocked_of_unlocked (s := s.modLane x LaneState.loseLock) hmap (by rw [State.lane_modLane_self]; rfl)
    have hupdate := legUpdate_fallToAcquire (s.modLane x LaneState.loseLock) (s.legOf x)
    have hleg := State.leg_fallToAcquire hunlocked
    rw [State.leg_modLane] at hleg
    obtain ⟨-, hintent, hattempts, -⟩ := Leg.abandoned_keeps (s.leg (s.legOf x))
    obtain ⟨hpins, hpower, hdevice, hsame, hfaults, -, hline, -⟩ := hupdate.registers
    obtain ⟨hpresence, -, hcounters, -⟩ := hupdate.lanes x
    rw [State.lane_modLane_self] at hpresence hcounters
    have hother (y : LaneSide) (hy : y ≠ x) : ((s.modLane x LaneState.loseLock).lane y) = s.lane y := by
      rw [State.lane_modLane, if_neg hy]
    rw [State.unlockEvent_of_out hout]
    refine ⟨by rw [hleg], by rw [hleg], by rw [hleg, hattempts], congrArg LaneCounters.lockLosses hcounters,
      (congrArg LaneCounters.presenceDrops hcounters).trans rfl,
      fun y hy => by rw [(hupdate.lanes y).2.2.1, hother y hy], fun y => ?taps, fun hc => ?notice,
      fun ht d hd => ?sessions, ?inFlight, hupdate.setup, by rw [hleg, hintent],
      fun y => ⟨?presence, fun hy => by rw [(hupdate.lanes y).2.1, hother y hy]⟩, hupdate.sameLegsBut, hpins, hpower,
      hdevice, hsame, hfaults, hline⟩
    case taps =>
      rw [State.fallToAcquire_eq hunlocked, State.lane_modLeg, keepsTaps_leave]
      exact State.KeepsTaps.modLane s x (f := LaneState.loseLock) (fun _ => rfl) y
    case notice => exact State.notice_fallToAcquire (s := s.modLane x LaneState.loseLock) hc
    case sessions =>
      have hside : ((((s.modLane x LaneState.loseLock).fallToAcquire (s.legOf x)).leg (s.legOf x)).side d) =
          ((s.leg (s.legOf x)).abandoned.side d) := by
        rw [hleg]
        cases d <;> rfl
      rw [hside, Leg.side_abandoned, if_pos ht]
      exact LegSide.abandoned_of_running hd
    case inFlight => rw [State.fallToAcquire_eq hunlocked, State.engine_modLeg, State.engine_leave, State.engine_modLane]
    case presence =>
      by_cases hy : y = x
      · rw [hy, hpresence]
        rfl
      · rw [(hupdate.lanes y).1, hother y hy]

end Sys2Proof.Machine

end

section
/-! The tuning frame on the line: what a transmitter sends, what a sent frame says, and the handling of a received frame
that moves neither the climb nor the leg (O19, O20, O21, O23, O24, O25). -/

namespace Sys2Proof.Machine

variable {s t : State} {x : LaneSide} {l : LegId} {d : Side}

/-! ### The polarity stage and the data path -/

theorem applyPolarity_eq (p : Polarity) (b : Byte) : applyPolarity p b = if p = .inverted then ~~~b else b := by
  cases p <;> simp [applyPolarity]

theorem State.throughPolarity_eq (s : State) (x : LaneSide) (bs : List Byte) :
    s.throughPolarity x bs = bs.map (fun b => if s.polarity x = .inverted then ~~~b else b) :=
  List.map_congr_left fun b _ => applyPolarity_eq (s.polarity x) b

/-- R6: two polarity stages in a row invert exactly when they differ. -/
theorem applyPolarity_both (p q : Polarity) (b : Byte) :
    applyPolarity q (applyPolarity p b) = if p = q then b else ~~~b := by
  cases p <;> cases q <;> simp [applyPolarity]

theorem State.throughPolarity_both (s : State) (x y : LaneSide) (bs : List Byte) :
    s.throughPolarity y (s.throughPolarity x bs) = bs.map (fun b => if s.polarity x = s.polarity y then b else ~~~b) := by
  simp only [State.throughPolarity, List.map_map]
  exact List.map_congr_left fun b _ => applyPolarity_both _ _ b

theorem State.polarity_line (s : State) (i : LaneId) : s.polarity ⟨.line, i⟩ = (s.entry i).linePolarity := rfl

theorem State.polarity_source (hmap : s.MapPermutes) (i : LaneId) :
    s.polarity ⟨.switch, (s.entry i).source⟩ = (s.entry i).switchPolarity := by
  show (s.entry (s.fedBy (s.entry i).source)).switchPolarity = _
  rw [State.fedBy_source hmap]

section
variable (pins : Signals)

theorem State.output_of_data (h : s.transmit x = .data) : s.output pins x =
    some (s.throughPolarity x (s.throughPolarity (s.pairedWith x) (pins (s.pairedWith x)))) := by
  simp only [State.output, State.sent, h, Option.map_some, State.recovered]

theorem State.output_of_loop (h : s.transmit x = .loop) : s.output pins x =
    if (s.lane x).presence.qualified then some (pins x) else none := by
  cases hq : (s.lane x).presence.qualified <;>
    simp [State.output, State.sent, h, hq, State.recovered]

theorem State.output_of_frames (h : s.transmit x = .frames) :
    s.output pins x = some (s.throughPolarity x (s.frameFields x).bytes) := by
  simp only [State.output, State.sent, h, Option.map_some]

theorem State.output_of_squelched (h : s.transmit x = .squelched) : s.output pins x = none := by
  simp only [State.output, State.sent, h, Option.map_none]

end

/-- R50: every frame holds the present taps and the own session mark. -/
theorem State.frameFields_taps_mark (s : State) (x : LaneSide) :
    (s.frameFields x).taps = (s.lane x).taps ∧ (s.frameFields x).mark = (s.lane x).tuner.ownMark := by
  unfold State.frameFields
  by_cases ht : (s.leg (s.legOf x)).state = .tune
  · cases ho : (s.lane x).tuner.outstanding <;> simp [ht, ho]
  · simp [ht]

/-- Settles O19, by the transmit state; in DATA the two polarity stages of a lane pair meet. -/
theorem dataPathFollowsTheMap : Obligations.DataPathFollowsTheMap := by
  intro s pins hmap
  refine ⟨fun i => ⟨fun h => ?line, fun h => ?switch⟩, fun x => ⟨fun h hq => ?present, fun h hq => ?absent,
    fun h => ?frames, State.output_of_squelched pins⟩⟩
  case line =>
    rw [State.output_of_data pins h, State.throughPolarity_both, State.pairedWith_line, State.polarity_line,
      State.polarity_source hmap]
  case switch =>
    rw [State.output_of_data pins h, State.throughPolarity_both, State.pairedWith_switch,
      State.fedBy_source hmap, State.polarity_line, State.polarity_source hmap]
    simp only [eq_comm (a := (s.entry i).linePolarity)]
  case present => rw [State.output_of_loop pins h, if_pos hq]
  case absent => rw [State.output_of_loop pins h, if_neg (by simp [hq])]
  case frames =>
    obtain ⟨htaps, hmark⟩ := s.frameFields_taps_mark x
    exact ⟨s.frameFields x, htaps, hmark,
      (State.output_of_frames pins h).trans (congrArg some (s.throughPolarity_eq x _)),
      fun other => (State.output_of_frames other h).trans (State.output_of_frames pins h).symm⟩

/-! ### The bytes of a frame -/

theorem byteSum_eq_sum (bs : List Byte) : byteSum bs = bs.sum := by
  rw [byteSum, List.sum_eq_foldl]

/-- R51: the check byte completes the sum of a sent frame to 255. -/
theorem byteSum_bytes (f : FrameFields) : byteSum f.bytes = 255 := by
  rw [FrameFields.bytes, byteSum_eq_sum, byteSum_eq_sum, List.sum_append, List.sum_singleton]
  exact add_sub_cancel _ _

theorem decodeOutcome_code (o : ReplyOutcome) : decodeOutcome o.code = some o := by cases o <;> rfl

/-- Table 11-10: the four fields of byte 0. -/
theorem extractLsb'_byte0 : ∀ a b c d : BitVec 2, (a ++ b ++ c ++ d).extractLsb' 0 2 = d ∧
    (a ++ b ++ c ++ d).extractLsb' 2 2 = c ∧ (a ++ b ++ c ++ d).extractLsb' 4 2 = b ∧
    (a ++ b ++ c ++ d).extractLsb' 6 2 = a := by decide

/-- Table 11-10: the two fields of byte 2. -/
theorem extractLsb'_byte2 : ∀ (content : Bool) (o : BitVec 3),
    (0#4 ++ BitVec.ofBool content ++ o).extractLsb' 0 3 = o ∧
    (0#4 ++ BitVec.ofBool content ++ o).getLsbD 3 = content := by decide

/-- Settles O20, by the fields of each byte. -/
theorem frameDecodesToItsFields : Obligations.FrameDecodesToItsFields := by
  intro f bytes hbytes
  have hget (i : Nat) (hi : i < 8) : bytes[i] = f.bytes[i] := by
    simp only [← hbytes, Vector.getElem_toList]
  obtain ⟨htag, hkind, htap, hrep⟩ := extractLsb'_byte0 f.reply.tag f.reqTap f.reqKind f.reqTag
  obtain ⟨houtcome, hcontent⟩ := extractLsb'_byte2 f.content f.reply.outcome.code
  refine ⟨by rw [frameGood, hbytes, byteSum_bytes]; rfl, ?_⟩
  have h0 : bytes[0] = f.reply.tag ++ f.reqTap ++ f.reqKind ++ f.reqTag := hget 0 (by omega)
  have h1 : bytes[1] = f.reqArg := hget 1 (by omega)
  have h2 : bytes[2] = 0#4 ++ BitVec.ofBool f.content ++ f.reply.outcome.code := hget 2 (by omega)
  have h6 : bytes[6] = f.mark := hget 6 (by omega)
  simp only [decodeFrame, h0, h1, h2, h6, htag, hkind, htap, hrep, houtcome, hcontent, decodeOutcome_code]

/-! ### TUNING_FRAME_SENT -/

theorem exec_tuningFrameSent_of_none (hr : s.resetHeld = false)
    (hgen : (s.leg (s.legOf x)).state.generates = true) (hwait : s.nextWait x = none) :
    exec (.tuningFrameSent x) s = .next (s.formFrame x) := by
  rw [exec_tuningFrameSent, whenRunning_of_can _ hr hgen]
  have hperiod : s.framePeriod x = s.formFrame x := by simp only [State.framePeriod, hwait]
  exact congrArg Host.Outcome.next ((congrArg (State.afterLegEvent · s _) hperiod).trans (State.afterLegEvent_of_state rfl))

theorem exec_tuningFrameSent_of_some {count limit : Nat} (hr : s.resetHeld = false)
    (hgen : (s.leg (s.legOf x)).state.generates = true) (hwait : s.nextWait x = some (count, limit))
    (hlimit : count < limit) : exec (.tuningFrameSent x) s =
      .next ((s.formFrame x).modTuner x (fun v => { v with waitCount := count })) := by
  rw [exec_tuningFrameSent, whenRunning_of_can _ hr hgen]
  have hperiod : s.framePeriod x = (s.formFrame x).modTuner x (fun v => { v with waitCount := count }) := by
    simp only [State.framePeriod, hwait]
    exact if_neg fun h => absurd h.1 (Nat.not_le.mpr hlimit)
  exact congrArg Host.Outcome.next ((congrArg (State.afterLegEvent · s _) hperiod).trans (State.afterLegEvent_of_state rfl))

/-- A frame that counts changes one lane side twice, its record and its wait count, and so once. -/
theorem State.modTuner_formFrame (s : State) (x : LaneSide) (f : Tuner → Tuner) :
    (s.formFrame x).modTuner x f = s.modLane x (fun v => { v with
      frame := some ⟨s.throughPolarity x (s.frameFields x).bytes, decide (s.transmit x = .frames)⟩
      tuner := f v.tuner }) :=
  s.modLane_modLane x (fun v => { v with
    frame := some ⟨s.throughPolarity x (s.frameFields x).bytes, decide (s.transmit x = .frames)⟩ }) (fun v =>
    { v with tuner := f v.tuner })

theorem State.lane_formFrame (s : State) (x : LaneSide) : (s.formFrame x).lane x = { s.lane x with
    frame := some ⟨(s.frameFields x).bytes.map (fun b => if s.polarity x = .inverted then ~~~b else b),
      decide (s.transmit x = .frames)⟩ } := by
  rw [← s.throughPolarity_eq]
  exact s.lane_modLane_self x _

/-- R25: what the frames of DARK and ACQUIRE say. -/
theorem State.frameFields_of_out (h : (s.leg (s.legOf x)).state ≠ .tune) : s.frameFields x =
    ⟨0, 0, 0, 0, ⟨0, .none⟩, false, (s.lane x).taps, (s.lane x).tuner.ownMark⟩ := if_neg h

/-- R50: what the frames of TUNE say. -/
theorem State.frameFields_of_tune (h : (s.leg (s.legOf x)).state = .tune) :
    (s.frameFields x).reply = (s.lane x).tuner.reply ∧ (s.frameFields x).content = (s.lane x).tuner.content ∧
    (match (s.lane x).tuner.outstanding with
      | none => (s.frameFields x).reqTag = 0 ∧ (s.frameFields x).reqKind = 0 ∧ (s.frameFields x).reqTap = 0 ∧
          (s.frameFields x).reqArg = 0
      | some ⟨tag, .nudge tap step⟩ => (s.frameFields x).reqTag = tag ∧ (s.frameFields x).reqKind = 1 ∧
          (s.frameFields x).reqTap = tap.code ∧ (s.frameFields x).reqArg = BitVec.ofInt 8 step
      | some ⟨tag, .preset n⟩ => (s.frameFields x).reqTag = tag ∧ (s.frameFields x).reqKind = 2 ∧
          (s.frameFields x).reqArg = BitVec.ofNat 8 n.val) := by
  simp only [State.frameFields, if_pos h]
  rcases (s.lane x).tuner.outstanding with _ | ⟨tag, _ | _⟩
  · exact ⟨rfl, rfl, rfl, rfl, rfl, rfl⟩
  · exact ⟨rfl, rfl, rfl, rfl, rfl, rfl⟩
  · exact ⟨rfl, rfl, rfl, rfl, rfl⟩

theorem RequestWait.limit_eq_none (w : RequestWait) : w.limit = none ↔ w = .unlimited := by
  cases w <;> simp [RequestWait.limit]

/-- R63: a frame formed in TUNE counts when a request is outstanding, the frame is sent and the limit is finite. -/
theorem State.nextWait_of_tune (h : (s.leg (s.legOf x)).state = .tune) :
    (s.nextWait x = none ∧ ¬((s.lane x).tuner.outstanding.isSome = true ∧ s.transmit x = .frames ∧
      (s.leg (s.legOf x)).setup.requestWait ≠ .unlimited)) ∨
    ∃ m, s.nextWait x = some ((s.lane x).tuner.waitCount + 1, m) ∧
      (s.leg (s.legOf x)).setup.requestWait.limit = some m ∧ (s.lane x).tuner.outstanding.isSome = true ∧
      s.transmit x = .frames ∧ (s.leg (s.legOf x)).setup.requestWait ≠ .unlimited := by
  cases ho : (s.lane x).tuner.outstanding with
  | none => exact .inl ⟨by simp only [State.nextWait, ho], by simp⟩
  | some r =>
    cases hm : (s.leg (s.legOf x)).setup.requestWait.limit with
    | none =>
      exact .inl ⟨by simp only [State.nextWait, ho, hm], fun h => h.2.2 ((RequestWait.limit_eq_none _).mp hm)⟩
    | some m =>
      have hlimited : (s.leg (s.legOf x)).setup.requestWait ≠ .unlimited := fun hu => by
        simp [(RequestWait.limit_eq_none _).mpr hu] at hm
      by_cases hf : s.transmit x = .frames
      · exact .inr ⟨m, by simp only [State.nextWait, ho, hm, h, hf, and_self, if_true], rfl, rfl, hf, hlimited⟩
      · exact .inl ⟨by simp only [State.nextWait, ho, hm, hf, and_false, if_false], fun h => hf h.2.1⟩

theorem State.sameLegsBut_modLane (s : State) (x : LaneSide) (f : LaneState → LaneState) :
    s.SameLegsBut [] (s.modLane x f) := fun _ _ => rfl

/-- Settles O21: the frame is formed, and in TUNE the wait count of its request advances. -/
theorem frameCarriesTheRecord : Obligations.FrameCarriesTheRecord := by
  intro x s hr
  refine ⟨fun hout => ?out, fun htune hcount => ?tune⟩
  case out =>
    have hnot : (s.leg (s.legOf x)).state ≠ .tune := by rcases hout with h | h <;> simp [h]
    have hgen : (s.leg (s.legOf x)).state.generates = true := by rcases hout with h | h <;> simp [h, LegState.generates]
    have hwait : s.nextWait x = none := by
      unfold State.nextWait
      rcases (s.lane x).tuner.outstanding with _ | r <;>
        rcases (s.leg (s.legOf x)).setup.requestWait.limit with _ | m <;> simp only [hnot, false_and, if_false]
    refine ⟨_, exec_tuningFrameSent_of_none hr hgen hwait, ?_, ?_, s.sameLanesBut_modLane x _,
      s.sameLegsBut_modLane x _, s.sameOutside_modLane x _⟩
    · rw [s.lane_formFrame x, State.frameFields_of_out hnot]
    · rw [s.lane_formFrame x]
  case tune =>
    obtain ⟨htaps, hmark⟩ := s.frameFields_taps_mark x
    obtain ⟨hreply, hcontent, hrequest⟩ := State.frameFields_of_tune htune
    have hgen : (s.leg (s.legOf x)).state.generates = true := by rw [htune]; rfl
    rcases State.nextWait_of_tune htune with ⟨hwait, hno⟩ | ⟨m, hwait, hlimit, hcounts⟩
    · refine ⟨_, exec_tuningFrameSent_of_none hr hgen hwait,
        ⟨s.frameFields x, ?_, hreply, hcontent, htaps, hmark, hrequest⟩, ?_, s.sameLanesBut_modLane x _,
        s.sameLegsBut_modLane x _, s.sameOutside_modLane x _⟩
      · rw [s.lane_formFrame x]
      · rw [if_neg hno, s.lane_formFrame x]
    · have hexec := exec_tuningFrameSent_of_some hr hgen hwait (hcount m hlimit)
      have hlane : ((s.formFrame x).modTuner x fun v => { v with waitCount := (s.lane x).tuner.waitCount + 1 }).lane x =
          { (s.formFrame x).lane x with tuner := { ((s.formFrame x).lane x).tuner with
              waitCount := (s.lane x).tuner.waitCount + 1 } } := (s.formFrame x).lane_modLane_self x _
      refine ⟨_, hexec, ⟨s.frameFields x, ?_, hreply, hcontent, htaps, hmark, hrequest⟩, ?_, ?_, ?_, ?_⟩
      · rw [hlane, s.lane_formFrame x]
      · rw [if_pos hcounts, hlane, s.lane_formFrame x]
      · rw [State.modTuner_formFrame]
        exact s.sameLanesBut_modLane x _
      · exact fun _ _ => rfl
      · rw [State.modTuner_formFrame]
        exact s.sameOutside_modLane x _

end Sys2Proof.Machine
end

section
/-! A received frame that moves neither the climb nor the leg: bad frames, restarts, new requests, AGREED lane sides
(O23, O24, O25). -/

namespace Sys2Proof.Machine

variable {s t : State} {x : LaneSide} {l : LegId} {d : Side}

/-! ### The handling of a good frame -/

/-- R57, steps 1 and 2: a lane side after the session mark and the request of a good frame. -/
def LaneState.takeFrame (g : Setup) (f : RxFrame) (v : LaneState) : LaneState :=
  LaneState.respond { v with tuner := v.tuner.takeMark f.mark } g f

/-- R57, step 4: a lane side after the hold is counted. -/
def LaneState.settle (content : Bool) (v : LaneState) : LaneState := { v with tuner := v.tuner.countHold content }

theorem State.goodFrame_eq (s : State) (x : LaneSide) (f : RxFrame) : s.goodFrame x f =
    ((s.modLane x (LaneState.takeFrame (s.leg (s.legOf x)).setup f)).takeReply x f).takeAgreement x f.content :=
  congrArg (fun u => State.takeAgreement (State.takeReply u x f) x f.content)
    (s.modLane_modLane x (fun v => { v with tuner := v.tuner.takeMark f.mark })
      (fun v => v.respond (s.leg (s.legOf x)).setup f))

theorem Tuner.takeMark_keeps (v : Tuner) (m : Byte) : (v.takeMark m).outstanding = v.outstanding ∧
    (v.takeMark m).phase = v.phase ∧ (v.takeMark m).content = v.content := by
  unfold Tuner.takeMark
  split <;> [skip; split] <;> exact ⟨rfl, rfl, rfl⟩

theorem Tuner.takeMark_of_known {v : Tuner} {m : Byte} (h : v.partnerMark = some m) : v.takeMark m = v := by
  simp only [Tuner.takeMark, h, if_true]

theorem Tuner.takeMark_of_first {v : Tuner} (h : v.partnerMark = none) (m : Byte) :
    v.takeMark m = { v with partnerMark := some m } := by
  simp only [Tuner.takeMark, h]

theorem Tuner.takeMark_of_restart {v : Tuner} {m m' : Byte} (h : v.partnerMark = some m) (hne : m ≠ m') :
    v.takeMark m' = { v with partnerMark := some m', lastAnswered := none, reply := ⟨0, .none⟩, hold := 0 } := by
  simp only [Tuner.takeMark, h, if_neg hne]

theorem LaneState.respond_keeps (v : LaneState) (g : Setup) (f : RxFrame) :
    (v.respond g f).tuner.outstanding = v.tuner.outstanding ∧ (v.respond g f).tuner.phase = v.tuner.phase ∧
    (v.respond g f).tuner.content = v.tuner.content := by
  unfold LaneState.respond
  split <;> exact ⟨rfl, rfl, rfl⟩

theorem LaneState.respond_of_old {v : LaneState} (g : Setup) {f : RxFrame}
    (h : f.reqKind = 0 ∨ v.tuner.lastAnswered = some f.reqTag) : v.respond g f = v := if_pos h

theorem LaneState.respond_of_new {v : LaneState} (g : Setup) {f : RxFrame} (hk : f.reqKind ≠ 0)
    (ht : v.tuner.lastAnswered ≠ some f.reqTag) : v.respond g f = { v with
      taps := (v.answer g f).2
      tuner := { v.tuner with reply := ⟨f.reqTag, (v.answer g f).1⟩, lastAnswered := some f.reqTag }
      counters := { v.counters with
        requestsAnswered := countUp Config.laneCounterMax v.counters.requestsAnswered } } :=
  if_neg (not_or.mpr ⟨hk, ht⟩)

/-- Neither the mark nor a request changes the own request, the phase and CONTENT. -/
theorem LaneState.takeFrame_keeps (g : Setup) (f : RxFrame) (v : LaneState) :
    (v.takeFrame g f).tuner.outstanding = v.tuner.outstanding ∧ (v.takeFrame g f).tuner.phase = v.tuner.phase ∧
    (v.takeFrame g f).tuner.content = v.tuner.content := by
  obtain ⟨ho, hp, hc⟩ := LaneState.respond_keeps { v with tuner := v.tuner.takeMark f.mark } g f
  obtain ⟨ho', hp', hc'⟩ := v.tuner.takeMark_keeps f.mark
  exact ⟨ho.trans ho', hp.trans hp', hc.trans hc'⟩

theorem LaneState.takeFrame_of_known {v : LaneState} (g : Setup) {f : RxFrame}
    (h : v.tuner.partnerMark = some f.mark) : v.takeFrame g f = v.respond g f := by
  rw [LaneState.takeFrame, Tuner.takeMark_of_known h]

/-- A frame of the known mark without a request changes nothing before its reply is read. -/
theorem LaneState.takeFrame_of_plain {v : LaneState} (g : Setup) {f : RxFrame}
    (hm : v.tuner.partnerMark = some f.mark) (hk : f.reqKind = 0) : v.takeFrame g f = v :=
  (LaneState.takeFrame_of_known g hm).trans (LaneState.respond_of_old g (.inl hk))

theorem Tuner.replyIn_congr {v w : Tuner} (h : v.outstanding = w.outstanding) (f : RxFrame) :
    v.replyIn f = w.replyIn f := by
  simp only [Tuner.replyIn, h]

theorem Tuner.replyIn_of_none {v : Tuner} (h : v.outstanding = none) (f : RxFrame) : v.replyIn f = none := by
  simp only [Tuner.replyIn, h]

/-- A good frame that does not answer the own request: the mark, the request and the hold are handled. -/
theorem State.goodFrame_of_noReply {f : RxFrame} (hreply : (s.lane x).tuner.replyIn f = none) :
    s.goodFrame x f = (s.modLane x (LaneState.takeFrame (s.leg (s.legOf x)).setup f)).takeAgreement x f.content := by
  rw [State.goodFrame_eq]
  congr 1
  have hnone : ((s.modLane x (LaneState.takeFrame (s.leg (s.legOf x)).setup f)).lane x).tuner.replyIn f = none := by
    rw [State.lane_modLane_self]
    exact (Tuner.replyIn_congr (LaneState.takeFrame_keeps _ f _).1 f).trans hreply
  simp only [State.takeReply, hnone]

/-- R67: short of the last agreement only the hold is counted. -/
theorem State.takeAgreement_of_not {content : Bool}
    (h : ((s.leg (s.legOf x)).side x.side).session ≠ .running ∨ ∃ y ∈ s.memberSides (s.legOf x) x.side,
      ((s.modLane x (LaneState.settle content)).lane y).tuner.phase ≠ .agreed) :
    s.takeAgreement x content = s.modLane x (LaneState.settle content) := by
  refine if_neg fun ⟨hrun, hall⟩ => ?_
  rcases h with h | ⟨y, hy, hne⟩
  · exact h hrun
  · exact hne (of_decide_eq_true (List.all_eq_true.mp hall y hy))

theorem exec_frameReceived_good {frame : Vector Byte 8} (hr : s.resetHeld = false)
    (htune : (s.leg (s.legOf x)).state = .tune) (hlock : (s.lane x).locked = true)
    (hgood : frameGood (s.afterPolarity x frame) = true) : exec (.tuningFrameReceived x frame) s =
      .next ((s.goodFrame x (decodeFrame (s.afterPolarity x frame))).afterLegEvent s (s.legOf x)) := by
  rw [exec_tuningFrameReceived, whenRunning_of_can _ hr (by simp [htune, hlock])]
  exact congrArg (fun u => Host.Outcome.next (State.afterLegEvent u s (s.legOf x))) (if_pos hgood)

/-- A good frame without a reply, short of the last agreement, changes its lane side alone. -/
theorem exec_frameReceived_quiet {frame : Vector Byte 8} {f : RxFrame} (hr : s.resetHeld = false)
    (htune : (s.leg (s.legOf x)).state = .tune) (hlock : (s.lane x).locked = true)
    (hgood : frameGood (s.afterPolarity x frame) = true) (hf : f = decodeFrame (s.afterPolarity x frame))
    (hreply : (s.lane x).tuner.replyIn f = none)
    (h : ((s.leg (s.legOf x)).side x.side).session ≠ .running ∨ ∃ y ∈ s.memberSides (s.legOf x) x.side,
      ((s.modLane x fun v => (v.takeFrame (s.leg (s.legOf x)).setup f).settle f.content).lane y).tuner.phase ≠ .agreed) :
    exec (.tuningFrameReceived x frame) s =
      .next (s.modLane x fun v => (v.takeFrame (s.leg (s.legOf x)).setup f).settle f.content) := by
  subst hf
  rw [exec_frameReceived_good hr htune hlock hgood, State.goodFrame_of_noReply hreply]
  rw [← State.modLane_modLane] at h
  rw [State.takeAgreement_of_not h, State.modLane_modLane]
  exact congrArg Host.Outcome.next (State.afterLegEvent_of_state rfl)

theorem Tuner.countHold_of_other {v : Tuner} (h : v.phase ≠ .holding) (content : Bool) : v.countHold content = v :=
  if_neg h

theorem Tuner.countHold_of_clear {v : Tuner} : v.countHold false =
    { v with hold := if v.phase = .holding then 0 else v.hold } := by
  unfold Tuner.countHold
  split <;> simp

theorem LaneState.settle_of_other {v : LaneState} (h : v.tuner.phase ≠ .holding) (content : Bool) :
    v.settle content = v := by
  rw [LaneState.settle, Tuner.countHold_of_other h]

/-- A lane side that does not agree by the frame keeps its side short of the last agreement. -/
theorem State.short_of_phase (hmap : s.MapPermutes) {f : LaneState → LaneState}
    (h : (f (s.lane x)).tuner.phase ≠ .agreed) : ∃ y ∈ s.memberSides (s.legOf x) x.side,
      ((s.modLane x f).lane y).tuner.phase ≠ .agreed :=
  ⟨x, State.mem_memberSides hmap x, by rwa [State.lane_modLane_self]⟩

/-! ### Bad frames and restarts -/

theorem State.afterPolarity_eq (s : State) (x : LaneSide) (frame : Vector Byte 8) : s.afterPolarity x frame =
    frame.map (fun b => if s.polarity x = .inverted then ~~~b else b) := by
  rw [State.afterPolarity, mapVector_eq_map, funext (applyPolarity_eq (s.polarity x))]

/-- Settles O23, by the session mark that the lane side holds. -/
theorem badFramesAndRestarts : Obligations.BadFramesAndRestarts := by
  intro x frame s hr htune hlock
  refine ⟨fun hbad => ?bad, fun f m hmap hgood hf hm hne hk hreply hc hp => ?restart,
    fun f hmap hgood hf hm hk hreply hc hp => ?first⟩
  case bad =>
    have hnot : frameGood (s.afterPolarity x frame) = false := by
      rw [frameGood, byteSum_eq_sum, State.afterPolarity_eq]
      exact beq_false_of_ne hbad
    refine ⟨s.badFrame x, ?_, s.lane_modLane_self x _, s.sameLanesBut_modLane x _, s.sameLegsBut_modLane x _,
      s.sameOutside_modLane x _⟩
    rw [exec_tuningFrameReceived, whenRunning_of_can _ hr (by simp [htune, hlock])]
    have hbad : s.receiveFrame x frame = s.badFrame x := if_neg (by simp [hnot])
    exact congrArg Host.Outcome.next
      ((congrArg (State.afterLegEvent · s _) hbad).trans (State.afterLegEvent_of_state rfl))
  case restart =>
    have hlane : ((s.lane x).takeFrame (s.leg (s.legOf x)).setup f).settle f.content = { s.lane x with
        tuner := { (s.lane x).tuner with
          partnerMark := some f.mark, lastAnswered := none, reply := ⟨0, .none⟩, hold := 0 } } := by
      rw [LaneState.takeFrame, LaneState.respond_of_old _ (.inl hk), Tuner.takeMark_of_restart hm hne, LaneState.settle,
        hc, Tuner.countHold_of_clear]
      simp only [ite_self]
    refine ⟨_, exec_frameReceived_quiet hr htune hlock hgood hf hreply (.inr (State.short_of_phase hmap ?_)),
      (s.lane_modLane_self x _).trans hlane, s.sameLanesBut_modLane x _, s.sameLegsBut_modLane x _,
      s.sameOutside_modLane x _⟩
    rw [hlane]
    exact hp
  case first =>
    have hlane : ((s.lane x).takeFrame (s.leg (s.legOf x)).setup f).settle f.content = { s.lane x with
        tuner := { (s.lane x).tuner with
          partnerMark := some f.mark
          hold := if (s.lane x).tuner.phase = .holding then 0 else (s.lane x).tuner.hold } } := by
      rw [LaneState.takeFrame, LaneState.respond_of_old _ (.inl hk), Tuner.takeMark_of_first hm, LaneState.settle,
        hc, Tuner.countHold_of_clear]
    refine ⟨_, exec_frameReceived_quiet hr htune hlock hgood hf hreply (.inr (State.short_of_phase hmap ?_)),
      (s.lane_modLane_self x _).trans hlane, s.sameLanesBut_modLane x _, s.sameLegsBut_modLane x _,
      s.sameOutside_modLane x _⟩
    rw [hlane]
    exact hp

/-! ### New requests -/

theorem answerRequest_kind3 (mode : BudgetMode) (rate : RateClass) (v : Taps) {f : RxFrame} (h : f.reqKind = 3) :
    answerRequest mode rate v f = (.badRequest, v) := by
  simp only [answerRequest, h]
  rfl

theorem decodeTap_three : decodeTap 3 = none := rfl

/-- R59: a NUDGE of the fourth tap or of a step outside its set. -/
theorem answerRequest_badNudge (mode : BudgetMode) (rate : RateClass) (v : Taps) {f : RxFrame} (h : f.reqKind = 1)
    (hbad : f.reqTap = 3 ∨ f.reqArg.toInt = 0 ∨ 3 < f.reqArg.toInt ∨ f.reqArg.toInt < -3) :
    answerRequest mode rate v f = (.badRequest, v) := by
  have hkind : f.reqKind.toNat = 1 := by rw [h]; rfl
  simp only [answerRequest, hkind]
  rcases hbad with htap | hstep
  · simp only [htap, decodeTap_three]
  · have hout : ¬(1 ≤ f.reqArg.toInt.natAbs ∧ f.reqArg.toInt.natAbs ≤ 3) := by omega
    cases decodeTap f.reqTap with
    | none => rfl
    | some tap => exact if_neg hout

theorem answerRequest_nudge (mode : BudgetMode) (rate : RateClass) (v : Taps) {f : RxFrame} {tap : Tap}
    (h : f.reqKind = 1) (htap : f.reqTap = tap.code) (h0 : f.reqArg.toInt ≠ 0) (hlow : -3 ≤ f.reqArg.toInt)
    (hhigh : f.reqArg.toInt ≤ 3) : answerRequest mode rate v f = nudge mode rate v tap f.reqArg.toInt := by
  have hkind : f.reqKind.toNat = 1 := by rw [h]; rfl
  have hdecode : decodeTap tap.code = some tap := by cases tap <;> rfl
  simp only [answerRequest, hkind, htap, hdecode]
  exact if_pos (by omega)

theorem answerRequest_badPreset (mode : BudgetMode) (rate : RateClass) (v : Taps) {f : RxFrame} (h : f.reqKind = 2)
    (hbad : 4 < f.reqArg.toNat) : answerRequest mode rate v f = (.badPreset, v) := by
  have hkind : f.reqKind.toNat = 2 := by rw [h]; rfl
  have hdecode : decodeFin 5 f.reqArg = none := dif_neg (by omega)
  simp only [answerRequest, hkind, hdecode]

theorem answerRequest_preset (mode : BudgetMode) (rate : RateClass) (v : Taps) {f : RxFrame} (h : f.reqKind = 2)
    (hle : f.reqArg.toNat ≤ 4) : answerRequest mode rate v f = (.applied, loadPreset rate ⟨f.reqArg.toNat, by omega⟩) := by
  have hkind : f.reqKind.toNat = 2 := by rw [h]; rfl
  have hdecode : decodeFin 5 f.reqArg = some ⟨f.reqArg.toNat, by omega⟩ := dif_pos (by omega)
  simp only [answerRequest, hkind, hdecode]

/-- Table 4-3: the triples of the presets, PRE 0 in RC-A. -/
theorem loadPreset_eq (rate : RateClass) (n : Fin 5) : loadPreset rate n =
    ⟨if rate = .rcA then 0 else if n = 2 then -6 else if n = 3 then -8 else 0,
      if n = 0 then 60 else if n = 1 then 48 else if n = 2 then 42 else if n = 3 then 36 else 40,
      if n = 1 ∨ n = 2 then -12 else if n = 3 then -16 else 0⟩ := by
  revert n
  cases rate <;> decide

/-- Settles O24: the answer is the arithmetic's, and its cases are the kinds of the request. -/
theorem newRequestIsAnswered : Obligations.NewRequestIsAnswered := by
  intro x frame f s hr hmap htune hlock hgood hf hm hk htag hout hphase
  have hagreed : (s.lane x).tuner.phase ≠ .agreed := by rcases hphase with h | h <;> simp [h]
  have hholding : (s.lane x).tuner.phase ≠ .holding := by rcases hphase with h | h <;> simp [h]
  let g := (s.leg (s.legOf x)).setup
  have hanswer : (s.lane x).answer g f = answerRequest g.budget g.rate (s.lane x).taps f := if_neg hagreed
  have hphase' : ((s.lane x).takeFrame g f).tuner.phase = (s.lane x).tuner.phase :=
    (LaneState.takeFrame_keeps g f (s.lane x)).2.1
  have hlane : ((s.lane x).takeFrame g f).settle f.content = (s.lane x).takeFrame g f :=
    LaneState.settle_of_other (by rwa [hphase']) _
  have hnew : (s.lane x).takeFrame g f = _ :=
    (LaneState.takeFrame_of_known g hm).trans (LaneState.respond_of_new g hk htag)
  refine ⟨s.modLane x fun v => (v.takeFrame g f).settle f.content, ((s.lane x).answer g f).1,
    ((s.lane x).answer g f).2, exec_frameReceived_quiet hr htune hlock hgood hf (Tuner.replyIn_of_none hout f)
      (.inr (State.short_of_phase hmap ?phase)),
    (s.lane_modLane_self x _).trans (hlane.trans hnew), fun hbad => ?bad, fun h2 hbad => ?badPreset,
    fun h2 hle => ?preset, fun tap h1 htap h0 hlow hhigh => ?nudge, s.sameLanesBut_modLane x _,
    s.sameLegsBut_modLane x _, s.sameOutside_modLane x _⟩
  case phase => rwa [hlane, hphase']
  case bad =>
    have hanswer' : (s.lane x).answer g f = (.badRequest, (s.lane x).taps) := by
      rcases hbad with h3 | ⟨h1, hbad⟩
      · exact hanswer.trans (answerRequest_kind3 _ _ _ h3)
      · exact hanswer.trans (answerRequest_badNudge _ _ _ h1 hbad)
    rw [hanswer']
    exact ⟨rfl, rfl⟩
  case badPreset =>
    rw [hanswer, answerRequest_badPreset _ _ _ h2 hbad]
    exact ⟨rfl, rfl⟩
  case preset =>
    have hn (k : Fin 5) : (⟨f.reqArg.toNat, by omega⟩ : Fin 5) = k ↔ f.reqArg = BitVec.ofNat 8 k.val := by
      rw [Fin.ext_iff, ← BitVec.toNat_inj, BitVec.toNat_ofNat, Nat.mod_eq_of_lt (by omega)]
    rw [hanswer, answerRequest_preset _ _ _ h2 hle]
    refine ⟨rfl, (loadPreset_eq _ _).trans ?_⟩
    simp only [hn]
    rfl
  case nudge =>
    have hcode : f.reqTap = tap.code := by rw [htap]; cases tap <;> rfl
    rw [hanswer, answerRequest_nudge _ _ _ h1 hcode h0 hlow hhigh]

/-! ### AGREED lane sides -/

/-- R66, R70: a frame that an AGREED lane side takes touches its tuner record and its counters alone. -/
theorem LaneState.takeFrame_of_agreed {v : LaneState} (g : Setup) (f : RxFrame) (h : v.tuner.phase = .agreed) :
    { v.takeFrame g f with tuner := v.tuner, counters := v.counters } = v := by
  have hphase : (v.tuner.takeMark f.mark).phase = .agreed := (v.tuner.takeMark_keeps f.mark).2.1.trans h
  have hanswer (w : LaneState) (hw : w.tuner.phase = .agreed) : w.answer g f = (.frozen, w.taps) := if_pos hw
  unfold LaneState.takeFrame LaneState.respond
  split
  · rfl
  · simp only [hanswer { v with tuner := v.tuner.takeMark f.mark } hphase]

/-- Settles O25: an AGREED lane side answers FROZEN, and its side is not at its last agreement. -/
theorem agreedLaneIsFrozen : Obligations.AgreedLaneIsFrozen := by
  intro x frame f s hr htune hlock hgood hf hside hphase hout
  let g := (s.leg (s.legOf x)).setup
  obtain ⟨-, hphase', hcontent⟩ := LaneState.takeFrame_keeps g f (s.lane x)
  have hlane : ((s.lane x).takeFrame g f).settle f.content = (s.lane x).takeFrame g f :=
    LaneState.settle_of_other (by simp [hphase', hphase]) _
  have hself : ((s.modLane x fun v => (v.takeFrame g f).settle f.content).lane x) = (s.lane x).takeFrame g f :=
    (s.lane_modLane_self x _).trans hlane
  refine ⟨s.modLane x fun v => (v.takeFrame g f).settle f.content,
    exec_frameReceived_quiet hr htune hlock hgood hf (Tuner.replyIn_of_none hout f) (hside.imp_right ?short), ?_, ?_, ?_,
    fun hm => ⟨fun hk htag => ?new, fun hold => ?old⟩, s.sameLanesBut_modLane x _, s.sameLegsBut_modLane x _,
    s.sameOutside_modLane x _⟩
  case short =>
    rintro ⟨y, hy, hne⟩
    have hyx : y ≠ x := fun h => hne (h ▸ hphase)
    exact ⟨y, hy, by rwa [State.lane_modLane, if_neg hyx]⟩
  · rw [hself]
    exact LaneState.takeFrame_of_agreed g f hphase
  · rw [hself, hphase', hphase]
  · rw [hself, hcontent]
  case new =>
    have hanswer : (s.lane x).answer g f = (.frozen, (s.lane x).taps) := if_pos hphase
    rw [hself, LaneState.takeFrame_of_known g hm, LaneState.respond_of_new g hk htag, hanswer]
    rfl
  case old =>
    rw [hself, LaneState.takeFrame_of_known g hm, LaneState.respond_of_old g hold]

end Sys2Proof.Machine
end

section
/-! The climb (Section 5): what its steps do, and what moves it, a completed margin reading (O27) and a reply (O28). -/

namespace Sys2Proof.Machine

variable {s t u : State} {x : LaneSide} {l : LegId} {d : Side}

/-! ### Steps that stay on one lane side -/

/-- What every step of a climb keeps: the other lane sides, everything but lane sides and legs, the leg states. -/
structure State.LaneStep (x : LaneSide) (s t : State) : Prop where
  lanes : s.SameLanesBut [x] t
  signals : s.KeepsSignals t
  legStates : ∀ l, (t.leg l).state = (s.leg l).state

namespace State.LaneStep

theorem refl (x : LaneSide) (s : State) : s.LaneStep x s := ⟨fun _ _ => rfl, .refl s, fun _ => rfl⟩

theorem trans (h : s.LaneStep x t) (h' : t.LaneStep x u) : s.LaneStep x u :=
  ⟨fun y hy => (h'.lanes y hy).trans (h.lanes y hy), h.signals.trans h'.signals,
    fun l => (h'.legStates l).trans (h.legStates l)⟩

theorem modLane (s : State) (x : LaneSide) {f : LaneState → LaneState}
    (hf : ∀ v : LaneState, (f v).presence = v.presence ∧ (f v).locked = v.locked) : s.LaneStep x (s.modLane x f) :=
  ⟨s.sameLanesBut_modLane x f, s.keepsSignals_modLane x hf, fun _ => rfl⟩

theorem modLegSide (s : State) (x : LaneSide) (l : LegId) (d : Side) (f : LegSide → LegSide) :
    s.LaneStep x (s.modLegSide l d f) := by
  refine ⟨fun _ _ => rfl, (State.KeepsSignals.refl s).modLeg l _, fun k => ?_⟩
  rw [State.leg_modLegSide]
  split
  · next h => rw [h]; cases d <;> rfl
  · rfl

theorem legOf (h : s.LaneStep x t) (y : LaneSide) : t.legOf y = s.legOf y :=
  State.legOf_of_sources h.signals.sameOutside.1.2.2 (fun i => congrArg MapEntry.source (h.signals.sameOutside.2.2.2.1 i)) y

theorem mapPermutes (h : s.LaneStep x t) (hmap : s.MapPermutes) : t.MapPermutes := fun sw =>
  (hmap sw).imp fun i hi => (congrArg MapEntry.source (h.signals.sameOutside.2.2.2.1 i)).trans hi

end State.LaneStep

theorem laneStep_modTuner (s : State) (x : LaneSide) (f : Tuner → Tuner) : s.LaneStep x (s.modTuner x f) :=
  .modLane s x fun _ => ⟨rfl, rfl⟩

theorem laneStep_modClimb (s : State) (x : LaneSide) (f : Climb → Climb) : s.LaneStep x (s.modClimb x f) :=
  .modLane s x fun _ => ⟨rfl, rfl⟩

theorem laneStep_issue (s : State) (x : LaneSide) (k : RequestKind) : s.LaneStep x (s.issue x k) :=
  laneStep_modTuner s x _

theorem laneStep_startReading (s : State) (x : LaneSide) : s.LaneStep x (s.startReading x) :=
  .modLane s x fun _ => ⟨rfl, rfl⟩

/-! ### The climb's functions, case by case -/

/-- R110: a lane side at the end of its climb. -/
def LaneState.endClimb (v : LaneState) : LaneState :=
  { v with climb := { v.climb with stage := .ended }, tuner := { v.tuner with content := true, phase := .holding } }

theorem State.endClimb_eq (s : State) (x : LaneSide) : s.endClimb x =
    if (s.lane x).climb.weak = true then (s.modLane x LaneState.endClimb).modLegSide (s.legOf x) x.side
      (fun d => { d with weak := d.weak ||| laneBit (s.lineOf x) })
    else s.modLane x LaneState.endClimb := rfl

theorem State.trialCheck_of_left (h : (s.lane x).climb.answered ≤ 30) : s.trialCheck x =
    (s.issue x (.nudge (s.lane x).climb.tap.tap (s.lane x).climb.direction.step)).modClimb x
      (fun c => { c with stage := .trial }) :=
  if_pos (show 2 ≤ 32 - (s.lane x).climb.answered by omega)

theorem State.trialCheck_of_spent (h : 30 < (s.lane x).climb.answered) : s.trialCheck x = s.endClimb x :=
  if_neg (show ¬2 ≤ 32 - (s.lane x).climb.answered by omega)

/-- R108: the climb turns to the opposite direction. -/
def Climb.turn (c : Climb) : Climb := { c with triedOpposite := true, direction := c.direction.reversed }

/-- R104, R108: a pass over one tap begins. -/
def Climb.pass (tap : ClimbTap) (c : Climb) : Climb :=
  { c with tap := tap, direction := .up, improved := false, triedOpposite := false }

theorem State.passDecision_turns (hi : (s.lane x).climb.improved = false)
    (ho : (s.lane x).climb.triedOpposite = false) : s.passDecision x = (s.modClimb x Climb.turn).trialCheck x :=
  if_pos (by simp [hi, ho])

theorem State.passDecision_moves (h : (s.lane x).climb.improved = true ∨ (s.lane x).climb.triedOpposite = true) :
    s.passDecision x = (match (s.lane x).climb.tap with
      | .post => (s.modClimb x (Climb.pass .pre)).trialCheck x
      | .pre => s.endClimb x) :=
  if_neg (by rcases h with h | h <;> simp [h])

/-- R109: the climb counts an answer. -/
def Climb.count (o : ReplyOutcome) (c : Climb) : Climb :=
  { c with answered := c.answered + 1, frozenSeen := c.frozenSeen || o = .frozen }

/-- R97, R104: a reading starts, and the climb waits for it in a stage. -/
def State.measure (s : State) (x : LaneSide) (stage : ClimbStage) : State :=
  (s.startReading x).modClimb x (fun c => { c with stage := stage })

section
variable {o : ReplyOutcome}

theorem State.climbReply_presetting (h : (s.lane x).climb.stage = .presetting) :
    s.climbReply x o = (s.modClimb x (Climb.count o)).measure x .baseline := by
  simp only [State.climbReply, h]
  exact rfl

theorem State.climbReply_measures (h : (s.lane x).climb.stage = .trial) (ho : o = .applied ∨ o = .clipped) :
    s.climbReply x o = (s.modClimb x (Climb.count o)).measure x .measuring := by
  rcases ho with rfl | rfl <;> simp only [State.climbReply, h] <;> exact rfl

theorem State.climbReply_frozen (h : (s.lane x).climb.stage = .trial ∨ (s.lane x).climb.stage = .reverting) :
    s.climbReply x .frozen = (s.modClimb x (Climb.count .frozen)).endClimb x := by
  rcases h with h | h <;> simp only [State.climbReply, h] <;> exact rfl

theorem State.climbReply_decides (h : ((s.lane x).climb.stage = .trial ∧ o ≠ .applied ∧ o ≠ .clipped) ∨
    (s.lane x).climb.stage = .reverting) (ho : o ≠ .frozen) :
    s.climbReply x o = (s.modClimb x (Climb.count o)).passDecision x := by
  rcases h with ⟨h, ha, hc⟩ | h <;> simp only [State.climbReply, h]
  · exact rfl
  · exact if_neg ho

theorem State.climbReply_ignores (hp : (s.lane x).climb.stage ≠ .presetting) (ht : (s.lane x).climb.stage ≠ .trial)
    (hr : (s.lane x).climb.stage ≠ .reverting) : s.climbReply x o = s := by
  simp only [State.climbReply]

end

section
variable {m : Nat}

theorem State.climbReading_baseline (h : (s.lane x).climb.stage = .baseline) : s.climbReading x m =
    if (s.lane x).climb.frozenSeen = true then (s.modClimb x (fun c => { c with best := some m })).endClimb x
    else ((s.modClimb x (fun c => { c with best := some m })).modClimb x (Climb.pass .post)).trialCheck x := by
  simp only [State.climbReading, h]
  exact rfl

theorem State.climbReading_measuring (h : (s.lane x).climb.stage = .measuring) : s.climbReading x m =
    if (s.lane x).climb.best.getD 0 + (s.lane x).climb.threshold ≤ m then
      (s.modClimb x (fun c => { c with best := some m, improved := true })).trialCheck x
    else (s.issue x (.nudge (s.lane x).climb.tap.tap (s.lane x).climb.direction.reversed.step)).modClimb x
      (fun c => { c with stage := .reverting }) := by
  simp only [State.climbReading, h]

theorem State.climbReading_ignores (hb : (s.lane x).climb.stage ≠ .baseline)
    (hm : (s.lane x).climb.stage ≠ .measuring) : s.climbReading x m = s := by
  simp only [State.climbReading]

end

/-! ### The climb's functions stay on one lane side -/

theorem laneStep_endClimb (s : State) (x : LaneSide) : s.LaneStep x (s.endClimb x) := by
  have hlane := State.LaneStep.modLane s x (f := LaneState.endClimb) fun _ => ⟨rfl, rfl⟩
  rw [State.endClimb_eq]
  split
  · exact hlane.trans (.modLegSide _ x _ _ _)
  · exact hlane

theorem laneStep_measure (s : State) (x : LaneSide) (stage : ClimbStage) : s.LaneStep x (s.measure x stage) :=
  (laneStep_startReading s x).trans (laneStep_modClimb _ x _)

theorem laneStep_trialCheck (s : State) (x : LaneSide) : s.LaneStep x (s.trialCheck x) := by
  rcases Nat.lt_or_ge 30 (s.lane x).climb.answered with h | h
  · rw [State.trialCheck_of_spent h]
    exact laneStep_endClimb s x
  · rw [State.trialCheck_of_left h]
    exact (laneStep_issue s x _).trans (laneStep_modClimb _ x _)

theorem laneStep_passDecision (s : State) (x : LaneSide) : s.LaneStep x (s.passDecision x) := by
  by_cases h : (s.lane x).climb.improved = true ∨ (s.lane x).climb.triedOpposite = true
  · rw [State.passDecision_moves h]
    cases (s.lane x).climb.tap with
    | post => exact (laneStep_modClimb s x _).trans (laneStep_trialCheck _ x)
    | pre => exact laneStep_endClimb s x
  · obtain ⟨hi, ho⟩ := not_or.mp h
    rw [State.passDecision_turns (Bool.eq_false_of_not_eq_true hi) (Bool.eq_false_of_not_eq_true ho)]
    exact (laneStep_modClimb s x _).trans (laneStep_trialCheck _ x)

theorem laneStep_climbReply (s : State) (x : LaneSide) (o : ReplyOutcome) : s.LaneStep x (s.climbReply x o) := by
  have hcount := laneStep_modClimb s x (Climb.count o)
  by_cases hp : (s.lane x).climb.stage = .presetting
  · rw [State.climbReply_presetting hp]
    exact hcount.trans (laneStep_measure _ x _)
  by_cases hout : (s.lane x).climb.stage = .trial ∨ (s.lane x).climb.stage = .reverting
  · by_cases hfrozen : o = .frozen
    · subst hfrozen
      rw [State.climbReply_frozen hout]
      exact hcount.trans (laneStep_endClimb _ x)
    by_cases hread : (s.lane x).climb.stage = .trial ∧ (o = .applied ∨ o = .clipped)
    · rw [State.climbReply_measures hread.1 hread.2]
      exact hcount.trans (laneStep_measure _ x _)
    · rw [State.climbReply_decides (by tauto) hfrozen]
      exact hcount.trans (laneStep_passDecision _ x)
  · obtain ⟨ht, hr⟩ := not_or.mp hout
    rw [State.climbReply_ignores hp ht hr]
    exact .refl x s

theorem laneStep_climbReading (s : State) (x : LaneSide) (m : Nat) : s.LaneStep x (s.climbReading x m) := by
  by_cases hb : (s.lane x).climb.stage = .baseline
  · rw [State.climbReading_baseline hb]
    split
    · exact (laneStep_modClimb s x _).trans (laneStep_endClimb _ x)
    · exact (laneStep_modClimb s x _).trans ((laneStep_modClimb _ x _).trans (laneStep_trialCheck _ x))
  by_cases hm : (s.lane x).climb.stage = .measuring
  · rw [State.climbReading_measuring hm]
    split
    · exact (laneStep_modClimb s x _).trans (laneStep_trialCheck _ x)
    · exact (laneStep_issue s x _).trans (laneStep_modClimb _ x _)
  · rw [State.climbReading_ignores hb hm]
    exact .refl x s

/-! ### The climb's steps as the statements name them -/

/-- A predicate about a step of the climb speaks of the lane side it starts from, not of the state before it. -/
theorem State.climbEnds_modLane (f : LaneState → LaneState) {v : LaneState} :
    (s.modLane x f).ClimbEnds t x v ↔ s.ClimbEnds t x v := Iff.rfl

theorem State.climbNudges_modLane (f : LaneState → LaneState) {v : LaneState} {step : Int} {stage : ClimbStage} :
    (s.modLane x f).ClimbNudges t x v step stage ↔ s.ClimbNudges t x v step stage := Iff.rfl

theorem State.climbTries_modLane (f : LaneState → LaneState) {v : LaneState} {hold : Nat} :
    (s.modLane x f).ClimbTries t x v hold ↔ s.ClimbTries t x v hold := Iff.rfl

theorem Climb.weak_eq (c : Climb) : c.weak = c.best.any (fun b => b < c.floor) := by
  unfold Climb.weak
  cases c.best <;> rfl

theorem State.climbEnds_endClimb (u : State) (x : LaneSide) : u.ClimbEnds (u.endClimb x) x (u.lane x) := by
  have hside := Leg.side_modSide (u.leg (u.legOf x)) x.side (f := fun d => { d with weak := d.weak ||| laneBit (u.lineOf x) })
  rw [State.endClimb_eq, Climb.weak_eq]
  unfold State.ClimbEnds
  cases hw : (u.lane x).climb.best.any (fun b => b < (u.lane x).climb.floor) with
  | false => exact ⟨u.lane_modLane_self x _, fun _ _ => rfl, rfl, rfl, rfl⟩
  | true =>
    refine ⟨u.lane_modLane_self x _, fun k hk => ?_, ?_, ?_, ?_⟩
    · exact (State.leg_modLegSide _ _ _ _ _).trans (if_neg (by simpa using hk))
    · unfold State.SameLegItems
      simp only [if_true, State.leg_modLegSide_self]
      cases x.side <;> rfl
    · simp only [if_true, State.leg_modLegSide_self, State.leg_modLane, hside, if_neg (otherSide_ne x.side)]
    · simp only [if_true, State.leg_modLegSide_self, State.leg_modLane, hside]
      rfl

theorem Direction.step_eq (c : Direction) : c.step = (match c with
    | .up => 1
    | .down => -1) := by
  cases c <;> rfl

/-- R61, R103: a NUDGE of the climb's tap is issued. -/
theorem State.climbNudges_issue (u : State) (x : LaneSide) (step : Int) (stage : ClimbStage) :
    u.ClimbNudges ((u.issue x (.nudge (u.lane x).climb.tap.tap step)).modClimb x (fun c => { c with stage := stage })) x
      (u.lane x) step stage := by
  refine ⟨?_, fun _ _ => rfl⟩
  have hlane : ((u.issue x (.nudge (u.lane x).climb.tap.tap step)).modClimb x
      (fun c => { c with stage := stage })).lane x = { u.lane x with
        climb := { (u.lane x).climb with stage := stage }
        tuner := (u.lane x).tuner.issue (.nudge (u.lane x).climb.tap.tap step) } := by
    simp only [State.modClimb, State.issue, State.modTuner, State.lane_modLane_self]
  refine hlane.trans ?_
  cases (u.lane x).climb.tap <;> rfl

theorem State.climbTries_trialCheck (u : State) (x : LaneSide) :
    u.ClimbTries (u.trialCheck x) x (u.lane x) (u.lane x).tuner.hold := by
  refine ⟨fun h => ?_, fun h => ?_⟩
  · rw [State.trialCheck_of_left h]
    have hnudge := u.climbNudges_issue x (u.lane x).climb.direction.step .trial
    rw [Direction.step_eq] at hnudge ⊢
    cases hd : (u.lane x).climb.direction <;> rw [hd] at hnudge <;> exact hnudge
  · rw [State.trialCheck_of_spent h]
    exact u.climbEnds_endClimb x

/-! ### A completed reading -/

theorem State.lane_modClimb_self (s : State) (x : LaneSide) (f : Climb → Climb) :
    (s.modClimb x f).lane x = { s.lane x with climb := f (s.lane x).climb } := s.lane_modLane_self x _

/-- Settles O27, by the stage of the climb. -/
theorem marginReadingMovesTheClimb : Obligations.MarginReadingMovesTheClimb := by
  intro x value left s hr hreading
  let u := s.modLane x fun v => { v with monitor := .idle }
  have hu : u.lane x = { s.lane x with monitor := .idle } := s.lane_modLane_self x _
  have hclimb : (u.lane x).climb = (s.lane x).climb := by rw [hu]
  have hidle : s.LaneStep x u := .modLane s x fun _ => ⟨rfl, rfl⟩
  have hstep : s.LaneStep x (u.climbReading x value.val) := hidle.trans (laneStep_climbReading u x value.val)
  refine ⟨u.climbReading x value.val, ?_, hstep.lanes, hstep.signals.sameOutside, fun hb => ⟨fun hf => ?frozen,
    fun hf => ?passes⟩, fun b hm hbest => ⟨fun hle => ?keeps, fun hlt => ?reverts⟩, fun hb hm => ?ignores⟩
  · rw [exec_marginReadingComplete, whenRunning_of_can _ hr (by rw [hreading]; rfl)]
    exact rfl
  case frozen =>
    rw [State.climbReading_baseline (by rw [hclimb, hb]), if_pos (by rw [hclimb, hf])]
    have hends := State.climbEnds_endClimb (u.modClimb x fun c => { c with best := some value.val }) x
    rw [State.lane_modClimb_self, hu] at hends
    exact hends
  case passes =>
    rw [State.climbReading_baseline (by rw [hclimb, hb]), if_neg (by simp [hclimb, hf])]
    have htries := State.climbTries_trialCheck
      ((u.modClimb x fun c => { c with best := some value.val }).modClimb x (Climb.pass .post)) x
    rw [State.lane_modClimb_self, State.lane_modClimb_self, hu] at htries
    exact htries
  case keeps =>
    rw [State.climbReading_measuring (by rw [hclimb, hm]), if_pos (by rw [hclimb, hbest]; exact hle)]
    have htries := State.climbTries_trialCheck
      (u.modClimb x fun c => { c with best := some value.val, improved := true }) x
    rw [State.lane_modClimb_self, hu] at htries
    exact htries
  case reverts =>
    rw [State.climbReading_measuring (by rw [hclimb, hm]),
      if_neg (by rw [hclimb, hbest]; exact Nat.not_le.mpr hlt)]
    have hnudges := u.climbNudges_issue x (u.lane x).climb.direction.reversed.step .reverting
    rw [hclimb, hu] at hnudges
    rw [hclimb]
    cases hd : (s.lane x).climb.direction <;> rw [hd] at hnudges <;> exact hnudges
  case ignores =>
    rw [State.climbReading_ignores (by rwa [hclimb]) (by rwa [hclimb])]
    exact ⟨hu, fun _ _ => rfl⟩

end Sys2Proof.Machine
end

section
/-! A reply moves the climb (O28). -/

namespace Sys2Proof.Machine

variable {s t u : State} {x : LaneSide} {l : LegId} {d : Side}

theorem State.modLane_of_eq {f : LaneState → LaneState} (h : f (s.lane x) = s.lane x) : s.modLane x f = s := by
  obtain ⟨_ | _, i⟩ := x
  · have hset : s.lineSide.set i (f s.lineSide[i]) = s.lineSide := by
      rw [show f s.lineSide[i] = s.lineSide[i] from h]
      exact Vector.set_getElem_self i.isLt
    simp only [State.modLane, hset]
  · have hset : s.switchSide.set i (f s.switchSide[i]) = s.switchSide := by
      rw [show f s.switchSide[i] = s.switchSide[i] from h]
      exact Vector.set_getElem_self i.isLt
    simp only [State.modLane, hset]

/-! ### A climb and the agreement hold -/

/-- What a lane side that has just climbed is short of: no agreement hold counted, and CLIMBING or HOLDING. -/
def LaneState.Open (v : LaneState) : Prop :=
  v.tuner.hold = 0 ∧ (v.tuner.phase = .climbing ∨ v.tuner.phase = .holding)

theorem LaneState.Open.settle_ne {v : LaneState} (h : v.Open) (content : Bool) :
    (v.settle content).tuner.phase ≠ .agreed := by
  obtain ⟨hhold, hphase | hphase⟩ := h <;> cases content <;>
    simp [LaneState.settle, Tuner.countHold, hhold, hphase, Config.agreementFrames]

theorem LaneState.settle_of_holding {v : LaneState} (hhold : v.tuner.hold = 0) (hphase : v.tuner.phase = .holding)
    (content : Bool) :
    v.settle content = { v with tuner := { v.tuner with hold := if content then 1 else 0 } } := by
  cases content <;> simp [LaneState.settle, Tuner.countHold, hhold, hphase, Config.agreementFrames]

theorem State.takeAgreement_of_open (hmap : s.MapPermutes) (h : (s.lane x).Open) (content : Bool) :
    s.takeAgreement x content = s.modLane x (LaneState.settle content) :=
  State.takeAgreement_of_not (.inr (State.short_of_phase hmap (h.settle_ne content)))

/-- A lane side that goes on climbing is not counted. -/
theorem State.takeAgreement_of_climbing (hmap : s.MapPermutes) (hphase : (s.lane x).tuner.phase = .climbing)
    (content : Bool) : s.takeAgreement x content = s := by
  have hsettle : (s.lane x).settle content = s.lane x := LaneState.settle_of_other (by simp [hphase]) content
  have hself : s.modLane x (LaneState.settle content) = s := State.modLane_of_eq hsettle
  rw [State.takeAgreement_of_not (.inr (State.short_of_phase hmap (by rw [hsettle, hphase]; nofun))), hself]

theorem State.climbEnds_takeAgreement (hmap : t.MapPermutes) {v : LaneState} (h : s.ClimbEnds t x v)
    (hhold : v.tuner.hold = 0) (content : Bool) : s.ClimbEnds (t.takeAgreement x content) x
      { v with tuner := { v.tuner with hold := if content then 1 else 0 } } := by
  obtain ⟨hlane, hlegs, hitems, hother, hside⟩ := h
  have hopen : (t.lane x).Open := by rw [hlane]; exact ⟨hhold, .inr rfl⟩
  rw [State.takeAgreement_of_open hmap hopen content]
  refine ⟨?_, hlegs, hitems, hother, hside⟩
  rw [State.lane_modLane_self, LaneState.settle_of_holding hopen.1 (by rw [hlane]), hlane]

theorem State.climbNudges_takeAgreement (hmap : t.MapPermutes) {v : LaneState} {step : Int} {stage : ClimbStage}
    (h : s.ClimbNudges t x v step stage) (hphase : v.tuner.phase = .climbing) (content : Bool) :
    s.ClimbNudges (t.takeAgreement x content) x v step stage := by
  rw [State.takeAgreement_of_climbing hmap (by rw [h.1]; exact hphase) content]
  exact h

theorem State.climbTries_takeAgreement (hmap : t.MapPermutes) {v : LaneState}
    (h : s.ClimbTries t x v v.tuner.hold) (hhold : v.tuner.hold = 0) (hphase : v.tuner.phase = .climbing)
    (content : Bool) : s.ClimbTries (t.takeAgreement x content) x v (if content then 1 else 0) :=
  ⟨fun hle => State.climbNudges_takeAgreement hmap (h.1 hle) hphase content,
    fun hlt => State.climbEnds_takeAgreement hmap (h.2 hlt) hhold content⟩

/-! ### What a climb leaves of the phase -/

theorem State.open_endClimb (h : (s.lane x).Open) : ((s.endClimb x).lane x).Open := by
  rw [(s.climbEnds_endClimb x).1]
  exact ⟨h.1, .inr rfl⟩

theorem State.open_trialCheck (h : (s.lane x).Open) : ((s.trialCheck x).lane x).Open := by
  obtain ⟨htry, hend⟩ := s.climbTries_trialCheck x
  rcases Nat.lt_or_ge 30 (s.lane x).climb.answered with hlt | hge
  · rw [(hend hlt).1]
    exact ⟨h.1, .inr rfl⟩
  · rw [(htry hge).1]
    exact h

theorem State.open_modClimb (h : (s.lane x).Open) (f : Climb → Climb) : ((s.modClimb x f).lane x).Open := by
  rw [State.lane_modClimb_self]
  exact h

theorem State.lane_measure (s : State) (x : LaneSide) (stage : ClimbStage) : (s.measure x stage).lane x =
    { s.lane x with climb := { (s.lane x).climb with stage := stage }, monitor := .reading 200 } := by
  rw [State.measure, State.lane_modClimb_self]
  exact congrArg (fun v : LaneState => { v with climb := { v.climb with stage := stage } }) (s.lane_modLane_self x _)

theorem State.open_passDecision (h : (s.lane x).Open) : ((s.passDecision x).lane x).Open := by
  by_cases hm : (s.lane x).climb.improved = true ∨ (s.lane x).climb.triedOpposite = true
  · rw [State.passDecision_moves hm]
    cases (s.lane x).climb.tap with
    | post => exact State.open_trialCheck (State.open_modClimb h _)
    | pre => exact State.open_endClimb h
  · obtain ⟨hi, ho⟩ := not_or.mp hm
    rw [State.passDecision_turns (Bool.eq_false_of_not_eq_true hi) (Bool.eq_false_of_not_eq_true ho)]
    exact State.open_trialCheck (State.open_modClimb h _)

theorem State.open_climbReply (h : (s.lane x).Open) (o : ReplyOutcome) : ((s.climbReply x o).lane x).Open := by
  have hcount := State.open_modClimb h (Climb.count o)
  have hread (stage : ClimbStage) : (((s.modClimb x (Climb.count o)).measure x stage).lane x).Open := by
    rw [State.lane_measure]
    exact hcount
  by_cases hp : (s.lane x).climb.stage = .presetting
  · rw [State.climbReply_presetting hp]
    exact hread _
  by_cases hout : (s.lane x).climb.stage = .trial ∨ (s.lane x).climb.stage = .reverting
  · by_cases hfrozen : o = .frozen
    · subst hfrozen
      rw [State.climbReply_frozen hout]
      exact State.open_endClimb hcount
    by_cases hm : (s.lane x).climb.stage = .trial ∧ (o = .applied ∨ o = .clipped)
    · rw [State.climbReply_measures hm.1 hm.2]
      exact hread _
    · rw [State.climbReply_decides (by tauto) hfrozen]
      exact State.open_passDecision hcount
  · obtain ⟨ht, hr⟩ := not_or.mp hout
    rw [State.climbReply_ignores hp ht hr]
    exact h

/-! ### The reply -/

/-- R62: the request of a lane side whose reply has come has ended. -/
def Tuner.answered (v : Tuner) : Tuner := { v with outstanding := none, nextTag := v.nextTag + 1 }

theorem Tuner.replyIn_eq_some {v : Tuner} {f : RxFrame} {r : Request} {o : ReplyOutcome} (hr : v.outstanding = some r)
    (htag : f.repTag = r.tag) (ho : f.outcome = some o) (hne : o ≠ .none) : v.replyIn f = some o := by
  simp only [Tuner.replyIn, hr, ho]
  exact if_pos ⟨htag, hne⟩

theorem Tuner.replyIn_eq_none {v : Tuner} {f : RxFrame} (h : ∀ r, v.outstanding = some r →
    f.repTag ≠ r.tag ∨ f.outcome = none ∨ f.outcome = some .none) : v.replyIn f = none := by
  cases hr : v.outstanding with
  | none => simp only [Tuner.replyIn, hr]
  | some r =>
    cases ho : f.outcome with
    | none => simp only [Tuner.replyIn, hr, ho]
    | some o =>
      simp only [Tuner.replyIn, hr, ho]
      refine if_neg fun ⟨htag, hne⟩ => ?_
      rcases h r hr with h | h | h
      · exact h htag
      · rw [ho] at h; cases h
      · rw [ho] at h; exact hne (Option.some.inj h)

/-- A good frame of the known mark without a request, with the reply to the outstanding one: the climb acts on it. -/
theorem State.goodFrame_of_reply {f : RxFrame} {o : ReplyOutcome} (hmark : (s.lane x).tuner.partnerMark = some f.mark)
    (hk : f.reqKind = 0) (hreply : (s.lane x).tuner.replyIn f = some o) :
    s.goodFrame x f = ((s.modTuner x Tuner.answered).climbReply x o).takeAgreement x f.content := by
  rw [State.goodFrame_eq, State.modLane_of_eq (LaneState.takeFrame_of_plain _ hmark hk)]
  simp only [State.takeReply, hreply]
  exact rfl

/-- Settles O28, by the reply, the stage and the outcome; the frame that ends a climb is counted toward the agreement. -/
theorem repliesMoveTheClimb : Obligations.RepliesMoveTheClimb := by
  intro x frame f s hr hmap htune hlock hgood hf hmark hk hphase hhold
  cases hreply : (s.lane x).tuner.replyIn f with
  | none =>
    have hsame : (s.lane x).takeFrame (s.leg (s.legOf x)).setup f = s.lane x := LaneState.takeFrame_of_plain _ hmark hk
    have hlane : ((s.lane x).takeFrame (s.leg (s.legOf x)).setup f).settle f.content = s.lane x := by
      rw [hsame]
      exact LaneState.settle_of_other (by simp [hphase]) _
    refine ⟨_, exec_frameReceived_quiet hr htune hlock hgood hf hreply
      (.inr (State.short_of_phase hmap (by rw [hlane, hphase]; nofun))), s.sameLanesBut_modLane x _,
      s.sameOutside_modLane x _, fun _ => ⟨(s.lane_modLane_self x _).trans hlane, s.sameLegsBut_modLane x _⟩,
      fun r o c v hold hout htag ho hne => ?_⟩
    rw [Tuner.replyIn_eq_some hout htag ho hne] at hreply
    exact absurd hreply nofun
  | some o =>
    let u := s.modTuner x Tuner.answered
    have hu : u.lane x = { s.lane x with tuner := (s.lane x).tuner.answered } := s.lane_modLane_self x _
    have hclimb : (u.lane x).climb = (s.lane x).climb := by rw [hu]
    have hopen : (u.lane x).Open := by rw [hu]; exact ⟨hhold, .inl hphase⟩
    have hstep : s.LaneStep x (u.climbReply x o) := (laneStep_modTuner s x _).trans (laneStep_climbReply u x o)
    have hmapped {w : State} (h : u.LaneStep x w) : w.MapPermutes := ((laneStep_modTuner s x _).trans h).mapPermutes hmap
    have hsettled := State.takeAgreement_of_open (hstep.mapPermutes hmap) (State.open_climbReply hopen o) f.content
    have hall : s.LaneStep x ((u.climbReply x o).takeAgreement x f.content) := by
      rw [hsettled]
      exact hstep.trans (.modLane _ x fun _ => ⟨rfl, rfl⟩)
    refine ⟨(u.climbReply x o).takeAgreement x f.content, ?_, hall.lanes, hall.signals.sameOutside,
      fun hno => ?_, fun r o' c v hold hout htag ho hne hc hv hh => ?_⟩
    · subst hf
      rw [exec_frameReceived_good hr htune hlock hgood, State.goodFrame_of_reply hmark hk hreply]
      exact congrArg Host.Outcome.next (State.afterLegEvent_of_state (hall.legStates _))
    · rw [Tuner.replyIn_eq_none hno] at hreply
      exact absurd hreply nofun
    obtain rfl : o' = o := Option.some.inj ((Tuner.replyIn_eq_some hout htag ho hne).symm.trans hreply)
    subst hh
    have hcount : (u.modClimb x (Climb.count o')).lane x = v := by rw [State.lane_modClimb_self, hu, hv, hc]; rfl
    have hvc : v.climb = c := by rw [hv]
    have hvhold : v.tuner.hold = 0 := by rw [hv]; exact hhold
    have hvphase : v.tuner.phase = .climbing := by rw [hv]; exact hphase
    have hfirst := laneStep_modClimb u x (Climb.count o')
    have hstage : c.stage = (u.lane x).climb.stage := by rw [hclimb, hc]
    have hmeasure (stage : ClimbStage) (h : u.climbReply x o' = (u.modClimb x (Climb.count o')).measure x stage) :
        ((u.climbReply x o').takeAgreement x f.content).lane x =
          { v with climb := { c with stage := stage }, monitor := .reading 200 } ∧
        s.SameLegsBut [] ((u.climbReply x o').takeAgreement x f.content) := by
      have hlane : (u.climbReply x o').lane x = { v with
          climb := { c with stage := stage }
          monitor := .reading 200 } := by
        rw [h, State.lane_measure, hcount, hvc]
      rw [State.takeAgreement_of_climbing (hstep.mapPermutes hmap) (by rw [hlane]; exact hvphase), hlane, h]
      exact ⟨rfl, fun _ _ => rfl⟩
    refine ⟨fun hst => hmeasure .baseline (State.climbReply_presetting (by rw [← hstage, hst])),
      fun hst ho => hmeasure .measuring (State.climbReply_measures (by rw [← hstage, hst]) ho), fun hst ho => ?frozen,
      fun hst => ⟨fun hi hopp => ?turns, fun hm htap => ?moves, fun hm htap => ?ends⟩, fun hp ht hr' => ?ignores⟩
    case frozen =>
      subst ho
      have hends := State.climbEnds_endClimb (u.modClimb x (Climb.count .frozen)) x
      rw [hcount] at hends
      rw [State.climbReply_frozen (by rwa [← hstage])]
      exact State.climbEnds_takeAgreement (hmapped (hfirst.trans (laneStep_endClimb _ x))) hends hvhold _
    case ignores =>
      have hsame : u.climbReply x o' = u :=
        State.climbReply_ignores (by rwa [← hstage]) (by rwa [← hstage]) (by rwa [← hstage])
      have huv : u.lane x = { v with climb := (s.lane x).climb } := by rw [hu, hv]; rfl
      rw [hsame, State.takeAgreement_of_climbing (hmapped (.refl x u)) (by rw [hu]; exact hphase)]
      exact ⟨huv, fun _ _ => rfl⟩
    all_goals
      have hdecides : u.climbReply x o' = (u.modClimb x (Climb.count o')).passDecision x := by
        refine State.climbReply_decides ?_ ?_
        · rw [← hstage]
          rcases hst with ⟨hst, rfl | rfl | rfl⟩ | ⟨hst, -⟩ <;> simp [hst]
        · rintro rfl
          simp at hst
      have hlaneClimb : ((u.modClimb x (Climb.count o')).lane x).climb = c := by rw [hcount, hvc]
      rw [hdecides]
    case turns =>
      have htries := State.climbTries_trialCheck ((u.modClimb x (Climb.count o')).modClimb x Climb.turn) x
      rw [State.lane_modClimb_self, hcount, hvc] at htries
      rw [State.passDecision_turns (by rw [hlaneClimb, hi]) (by rw [hlaneClimb, hopp])]
      have hsettle := State.climbTries_takeAgreement (hmapped (hfirst.trans ((laneStep_modClimb _ x _).trans
        (laneStep_trialCheck _ x)))) htries hvhold hvphase f.content
      rw [Climb.turn] at hsettle
      cases hd : c.direction <;> rw [hd] at hsettle <;> exact hsettle
    case moves =>
      have htries := State.climbTries_trialCheck ((u.modClimb x (Climb.count o')).modClimb x (Climb.pass .pre)) x
      rw [State.lane_modClimb_self, hcount, hvc] at htries
      rw [State.passDecision_moves (by rwa [hlaneClimb]), hlaneClimb, htap]
      exact State.climbTries_takeAgreement (hmapped (hfirst.trans ((laneStep_modClimb _ x _).trans
        (laneStep_trialCheck _ x)))) htries hvhold hvphase f.content
    case ends =>
      have hends := State.climbEnds_endClimb (u.modClimb x (Climb.count o')) x
      rw [hcount] at hends
      rw [State.passDecision_moves (by rwa [hlaneClimb]), hlaneClimb, htap]
      exact State.climbEnds_takeAgreement (hmapped (hfirst.trans (laneStep_endClimb _ x))) hends hvhold _

end Sys2Proof.Machine
end

section
/-! The power rise: LOWPWR_RELEASE and RISE_COMPLETION (O9). -/

namespace Sys2Proof.Machine

variable {s t u : State} {l : LegId}

/-! ### What two steps in a row leave unchanged -/

theorem State.SamePins.trans (h : s.SamePins t) (h' : t.SamePins u) : s.SamePins u :=
  ⟨h'.1.trans h.1, h'.2.1.trans h.2.1, h'.2.2.trans h.2.2⟩

theorem State.SamePower.trans (h : s.SamePower t) (h' : t.SamePower u) : s.SamePower u :=
  ⟨h'.1.trans h.1, h'.2.1.trans h.2.1, h'.2.2.trans h.2.2⟩

theorem State.SameDevice.trans (h : s.SameDevice t) (h' : t.SameDevice u) : s.SameDevice u := by
  obtain ⟨hdevice, hinit, hby, hreset, hlast, hrelease⟩ := h
  obtain ⟨hdevice', hinit', hby', hreset', hlast', hrelease'⟩ := h'
  exact ⟨hdevice'.trans hdevice, hinit'.trans hinit, hby'.trans hby, hreset'.trans hreset, hlast'.trans hlast,
    hrelease'.trans hrelease⟩

theorem State.SameMap.trans (h : s.SameMap t) (h' : t.SameMap u) : s.SameMap u := fun i => (h' i).trans (h i)

theorem State.SameFaults.trans (h : s.SameFaults t) (h' : t.SameFaults u) : s.SameFaults u :=
  ⟨h'.1.trans h.1, h'.2.trans h.2⟩

theorem State.SameSettings.trans (h : s.SameSettings t) (h' : t.SameSettings u) : s.SameSettings u :=
  ⟨h'.1.trans h.1, h'.2.1.trans h.2.1, h'.2.2.trans h.2.2⟩

theorem State.SameLine.trans (h : s.SameLine t) (h' : t.SameLine u) : s.SameLine u := by
  obtain ⟨hoffset, hwrite, hread, hack, hdata⟩ := h
  obtain ⟨hoffset', hwrite', hread', hack', hdata'⟩ := h'
  exact ⟨hoffset'.trans hoffset, hwrite'.trans hwrite, hread'.trans hread, hack'.trans hack, hdata'.trans hdata⟩

theorem State.SameLanesBut.trans {xs : List LaneSide} (h : s.SameLanesBut xs t) (h' : t.SameLanesBut xs u) :
    s.SameLanesBut xs u := fun y hy => (h' y hy).trans (h y hy)

theorem State.SameLegsBut.trans {ls : List LegId} (h : s.SameLegsBut ls t) (h' : t.SameLegsBut ls u) :
    s.SameLegsBut ls u := fun l hl => (h' l hl).trans (h l hl)

theorem State.SamePagesBut.trans {ps : List PageId} (h : s.SamePagesBut ps t) (h' : t.SamePagesBut ps u) :
    s.SamePagesBut ps u := fun p hp => (h' p hp).trans (h p hp)

/-! ### The tasks of the power wait list finish together -/

/-- R160: the awaited tasks of some slots finish with one status and one result. -/
def State.endAll (s : State) (ns : List SlotId) (result : List Byte) (st : Status) : State :=
  ns.foldl (fun t n => t.endAwaited n result st) s

theorem State.finishPowerWait_eq (s : State) (st : Status) :
    s.finishPowerWait st = { s with powerWait := [] }.endAll s.powerWait s.powerResult st := rfl

section
variable (ns : List SlotId) (result : List Byte) (st : Status)

theorem State.endAll_update (s : State) : ∃ slots mem summary line,
    s.endAll ns result st = { s with slots := slots, mem := mem, summary := summary, latchedLine := line } := by
  induction ns generalizing s with
  | nil => exact ⟨_, _, _, _, rfl⟩
  | cons n ns ih =>
    obtain ⟨_, _, _, _, h⟩ := ih (s.endAwaited n result st)
    exact ⟨_, _, _, _, h.trans rfl⟩

theorem State.slot_endAll (s : State) (m : SlotId) : (s.endAll ns result st).slot m =
    if m ∈ ns then { s.slot m with state := .done, status := st } else s.slot m := by
  induction ns generalizing s with
  | nil => simp [State.endAll]
  | cons n ns ih =>
    refine (ih (s.endAwaited n result st)).trans ?_
    rw [State.slot_endAwaited]
    by_cases hm : m = n
    · simp [hm]
    · simp [hm]

theorem State.summary_endAll (s : State) {i : Nat} (h : s.summary.getLsbD i = true) :
    (s.endAll ns result st).summary.getLsbD i = true := by
  induction ns generalizing s with
  | nil => exact h
  | cons n ns ih => exact ih (s.endAwaited n result st) (by simp [h])

end

/-- What the end of the power wait list leaves. -/
theorem State.finishPowerWait_keeps (s : State) (st : Status) : s.SamePins (s.finishPowerWait st) ∧
    s.SamePower (s.finishPowerWait st) ∧ s.SameDevice (s.finishPowerWait st) ∧ s.SameMap (s.finishPowerWait st) ∧
    s.SameLanesBut [] (s.finishPowerWait st) ∧ s.SameLegsBut [] (s.finishPowerWait st) ∧
    s.SamePagesBut [] (s.finishPowerWait st) ∧ s.SameFaults (s.finishPowerWait st) ∧
    s.SameLine (s.finishPowerWait st) ∧ s.SameSettings (s.finishPowerWait st) ∧
    (∀ l, (s.finishPowerWait st).engine l = s.engine l) ∧ (s.finishPowerWait st).deviceQueue = s.deviceQueue ∧
    (s.finishPowerWait st).handOver = s.handOver ∧ (s.finishPowerWait st).owed = s.owed ∧
    (s.finishPowerWait st).powerWait = [] := by
  obtain ⟨_, _, _, _, h⟩ := State.endAll_update s.powerWait s.powerResult st { s with powerWait := [] }
  rw [State.finishPowerWait_eq, h]
  exact ⟨⟨rfl, rfl, rfl⟩, ⟨rfl, rfl, rfl⟩, ⟨rfl, rfl, rfl, rfl, rfl, rfl⟩, fun _ => rfl, fun _ _ => rfl, fun _ _ => rfl,
    fun _ _ => rfl, ⟨rfl, rfl⟩, ⟨rfl, rfl, rfl, rfl, rfl⟩, ⟨rfl, rfl, rfl⟩, fun _ => rfl, rfl, rfl, rfl, rfl⟩

theorem State.slot_finishPowerWait (s : State) (st : Status) (m : SlotId) : (s.finishPowerWait st).slot m =
    if m ∈ s.powerWait then { s.slot m with state := .done, status := st } else s.slot m :=
  State.slot_endAll s.powerWait s.powerResult st { s with powerWait := [] } m

theorem State.summary_finishPowerWait (s : State) (st : Status) {i : Nat} (h : s.summary.getLsbD i = true) :
    (s.finishPowerWait st).summary.getLsbD i = true :=
  State.summary_endAll s.powerWait s.powerResult st { s with powerWait := [] } h

/-! ### Each leg by itself -/

/-- A walk over the legs whose step changes its own leg, by that leg and by what no step changes, changes each leg of
the list as the step would from the start. -/
theorem State.leg_foldl_signals {f : State → LegId → State} {F : State → LegId → Leg}
    (hkeep : ∀ (s : State) (l : LegId), s.KeepsSignals (f s l)) (hleg : ∀ (s : State) (l k : LegId), (f s l).leg k = if k = l then F s l else s.leg k)
    (hF : ∀ (s t : State) (k : LegId), s.KeepsSignals t → t.leg k = s.leg k → F t k = F s k) {ls : List LegId} (hn : ls.Nodup) (s : State)
    (k : LegId) : (ls.foldl f s).leg k = if k ∈ ls then F s k else s.leg k := by
  induction ls generalizing s with
  | nil => simp
  | cons l ls ih =>
    obtain ⟨hl, hls⟩ := List.nodup_cons.mp hn
    refine (ih hls (f s l)).trans ?_
    rw [hleg]
    by_cases hk : k = l
    · subst hk
      simp [hl]
    · have hsame : F (f s l) k = F s k := hF s (f s l) k (hkeep s l) ((hleg s l k).trans (if_neg hk))
      simp [hk, hsame]

theorem State.keepsSignals_foldl {f : State → LegId → State} (hkeep : ∀ (s : State) (l : LegId), s.KeepsSignals (f s l)) (ls : List LegId)
    (s : State) : s.KeepsSignals (ls.foldl f s) := by
  induction ls generalizing s with
  | nil => exact .refl s
  | cons l ls ih => exact (hkeep s l).trans (ih _)

/-! ### The rise of a leg -/

/-- R30: a leg at the rise completion. -/
def Leg.risen (g : Leg) (used present locked : Bool) : Leg :=
  if used = true ∧ g.state = .parked ∧ g.intent = true then { g with attempts := 0 }.enteredDark present locked else g

theorem State.leg_riseLeg (s : State) (l k : LegId) : (s.riseLeg l).leg k =
    if k = l then (s.leg l).risen (s.used l) (s.allPresent l) (s.allLocked l) else s.leg k := by
  unfold State.riseLeg Leg.risen
  by_cases h : s.used l = true ∧ (s.leg l).state = .parked ∧ (s.leg l).intent = true
  · rw [if_pos h, if_pos h, State.leg_enterDark, State.leg_modLeg_self, State.leg_modLeg]
    by_cases hk : k = l
    · rw [if_pos hk, if_pos hk]; exact rfl
    · rw [if_neg hk, if_neg hk, if_neg hk]
  · rw [if_neg h, if_neg h]
    by_cases hk : k = l
    · rw [if_pos hk, hk]
    · rw [if_neg hk]

theorem State.keepsSignals_riseLeg (s : State) (l : LegId) : s.KeepsSignals (s.riseLeg l) := by
  unfold State.riseLeg
  split
  · exact ((State.KeepsSignals.refl s).modLeg l _).trans (State.keepsSignals_enterDark _ l)
  · exact .refl s

theorem State.lane_riseLeg (h : s.used l = true → s.allLocked l = false) (y : LaneSide) :
    (s.riseLeg l).lane y = s.lane y := by
  unfold State.riseLeg
  split
  · next hrise =>
    have hlocked : (s.modLeg l fun g => { g with attempts := 0 }).allLocked l = false := h hrise.1
    exact (State.lane_enterDark (.inr hlocked) y).trans rfl
  · rfl

theorem State.lane_riseLegs (h : ∀ l, s.used l = true → s.allLocked l = false) (ls : List LegId) (y : LaneSide) :
    (ls.foldl (fun s l => s.riseLeg l) s).lane y = s.lane y := by
  induction ls generalizing s with
  | nil => rfl
  | cons l ls ih =>
    have hkeep := s.keepsSignals_riseLeg l
    exact (ih fun k hk => by
      rw [hkeep.allLocked]
      exact h k (by rwa [← hkeep.used])).trans (State.lane_riseLeg (h l) y)

theorem State.leg_riseLegs (s : State) (k : LegId) : (allLegs.foldl (fun s l => s.riseLeg l) s).leg k =
    (s.leg k).risen (s.used k) (s.allPresent k) (s.allLocked k) :=
  (State.leg_foldl_signals (F := fun s l => (s.leg l).risen (s.used l) (s.allPresent l) (s.allLocked l))
    State.keepsSignals_riseLeg State.leg_riseLeg
    (fun s t k hkeep hleg => by
      show (t.leg k).risen (t.used k) (t.allPresent k) (t.allLocked k) = _
      rw [hleg, hkeep.used, hkeep.allPresent, hkeep.allLocked])
    (by decide) s k).trans (if_pos (mem_allLegs k))

/-- A used leg with every receiver UNLOCKED is not all LOCKED. -/
theorem State.allLocked_of_used (h : ∀ x, (s.lane x).locked = false) (hu : s.used l = true) :
    s.allLocked l = false := by
  cases hm : s.members l with
  | nil => simp [State.used, hm] at hu
  | cons i is =>
    refine State.allLocked_eq_false.mpr ⟨s.sideOf i .line, List.mem_append_left _ ?_, h _⟩
    exact List.mem_map.mpr ⟨i, by rw [hm]; exact List.mem_cons_self, rfl⟩

/-! ### LOWPWR_RELEASE and RISE_COMPLETION -/

theorem State.tryRise_of_noWork (hw : s.NoWork) : s.tryRise =
    if s.effective = .low ∧ s.lowpwr = false ∧ s.requested = .active then
      { s with effective := .rising, riseTimer := some 10000 } else s := by
  have hexamine : State.examineLegs { s with effective := .rising, riseTimer := some 10000 } =
      { s with effective := .rising, riseTimer := some 10000 } := State.examineLegs_nil hw.2.1
  have hcond : (s.effective = .low ∧ s.lowpwr = false ∧ s.requested = .active) ↔
      (s.effective = .low ∧ ¬s.lowpwr = true ∧ s.requested = .active) := by simp
  simp only [hcond]
  exact congrArg (fun t => if s.effective = .low ∧ ¬s.lowpwr = true ∧ s.requested = .active then t else s) hexamine

theorem exec_lowpwrRelease (hr : s.resetHeld = false) (hp : s.lowpwr = true) (hw : s.NoWork) :
    exec .lowpwrRelease s = .next { s with lowpwr := false }.tryRise := by
  have hexec : exec .lowpwrRelease s = .next { s with lowpwr := false }.tryRise.intake :=
    congrArg Host.Outcome.next (if_neg (by simp [hr, hp]))
  have hlist : ({ s with lowpwr := false }.tryRise).handOver = [] := by
    rw [State.tryRise_of_noWork (s := { s with lowpwr := false }) hw]
    split <;> exact hw.1
  rw [hexec, State.intake_nil hlist]

/-- The part as the rise completes, before its legs rise. -/
def State.powered (s : State) : State := { s with effective := .active, riseTimer := none }.raise powerBit

/-- The part after its legs rose. -/
def State.rose (s : State) : State := allLegs.foldl (fun s l => s.riseLeg l) s.powered

theorem State.keepsSignals_rose (s : State) : s.powered.KeepsSignals s.rose :=
  State.keepsSignals_foldl State.keepsSignals_riseLeg allLegs s.powered

theorem exec_riseCompletion_eq (hr : s.resetHeld = false) (he : s.effective = .rising) (hw : s.NoWork) :
    exec .riseCompletion s = .next (s.rose.finishPowerWait .ok) := by
  rw [exec_riseCompletion, whenRunning_of_can _ hr (by simp [he])]
  obtain ⟨-, -, -, -, ⟨hengines, -, -, hlist, -⟩, -⟩ := s.keepsSignals_rose.sameOutside
  obtain ⟨-, -, -, -, -, -, -, -, -, -, hengines', -, hlist', -, -⟩ := s.rose.finishPowerWait_keeps .ok
  have hexamine : (s.rose.finishPowerWait .ok).examineLegs = s.rose.finishPowerWait .ok :=
    State.examineLegs_nil fun l => by
      rw [hengines', hengines]
      exact hw.2.1 l
  have hintake : (s.rose.finishPowerWait .ok).intake = s.rose.finishPowerWait .ok :=
    State.intake_nil (hlist'.trans (hlist.trans hw.1))
  exact congrArg Host.Outcome.next ((congrArg State.intake hexamine).trans hintake)

/-- Settles O9: at the release only the power unit moves; at the completion each leg rises by itself, and the power
wait list finishes. -/
theorem powerRisesToActive : Obligations.PowerRisesToActive := by
  intro s hr hw
  refine ⟨fun hp => ?release, fun he hl => ?completion⟩
  case release =>
    refine ⟨_, exec_lowpwrRelease hr hp hw, ?_⟩
    rw [State.tryRise_of_noWork (s := { s with lowpwr := false }) hw]
    have hrise (h : s.effective = .low ∧ s.requested = .active) : s.effective = .low ∧ false = false ∧
        s.requested = .active := ⟨h.1, rfl, h.2⟩
    refine ⟨?_, ?_, fun h => ?_, fun h => ?_, ?_⟩
    · split <;> rfl
    · split <;> rfl
    · rw [if_pos (hrise h)]
      exact ⟨rfl, rfl⟩
    · rw [if_neg fun h' => h.elim (fun h => h h'.1) fun h => nomatch h'.2.2.symm.trans h]
      exact ⟨rfl, rfl⟩
    · split <;> exact ⟨⟨rfl, rfl, rfl, rfl, rfl, rfl⟩, fun _ => rfl, fun _ _ => rfl, fun _ _ => rfl,
        ⟨fun _ => rfl, rfl, rfl, rfl, rfl⟩, fun _ _ => rfl, fun _ _ => rfl, fun _ => rfl, ⟨rfl, rfl, rfl, rfl, rfl⟩,
        ⟨rfl, rfl⟩, ⟨rfl, rfl, rfl, rfl, rfl⟩⟩
  case completion =>
    obtain ⟨hpins, ⟨hrequested, heffective, htimer⟩, hdevice, hmap, ⟨hengines, hqueue, hwait, -, -⟩, hslots,
      hpages, -, ⟨hsummary, henables, -, -, -⟩, hfaults, hline⟩ := s.keepsSignals_rose.sameOutside
    obtain ⟨hpins', ⟨hrequested', heffective', htimer'⟩, hdevice', hmap', hlanes', hlegs', hpages', hfaults', hline',
      ⟨henables', -, -⟩, hengines', hqueue', -, -, hwait'⟩ := s.rose.finishPowerWait_keeps .ok
    have hleg (l : LegId) : (s.rose.finishPowerWait .ok).leg l =
        (s.leg l).risen (s.used l) (s.allPresent l) (s.allLocked l) :=
      (hlegs' l List.not_mem_nil).trans (s.powered.leg_riseLegs l)
    have hslot (m : SlotId) : (s.rose.finishPowerWait .ok).slot m =
        if m ∈ s.powerWait then { s.slot m with state := .done, status := .ok } else s.slot m := by
      have hm : s.rose.slot m = s.slot m := hslots m List.not_mem_nil
      have hw : s.rose.powerWait = s.powerWait := hwait
      rw [State.slot_finishPowerWait, hm, hw]
    have hlane (y : LaneSide) : s.rose.lane y = s.lane y :=
      State.lane_riseLegs (s := s.powered) (fun l => State.allLocked_of_used (s := s.powered) hl) allLegs y
    refine ⟨_, exec_riseCompletion_eq hr he hw, heffective'.trans heffective, htimer'.trans htimer, ?notice, hwait',
      fun n hn => ?done, fun l hrise => ?rises, fun l hno => ?stays, (show s.SamePins s.rose from hpins).trans hpins',
      hrequested'.trans hrequested, (show s.SameDevice s.rose from hdevice).trans hdevice', (show s.SameMap s.rose from hmap).trans hmap',
      fun y hy => (hlanes' y hy).trans (hlane y), fun l => (hengines' l).trans (hengines l), hqueue'.trans hqueue,
      fun m hm => by rw [hslot, if_neg hm], fun p hp => (hpages' p hp).trans (hpages p hp), henables'.trans henables,
      (show s.SameFaults s.rose from hfaults).trans hfaults',
      (show s.SameLine s.rose from hline).trans hline'⟩
    case notice =>
      refine s.rose.summary_finishPowerWait .ok ?_
      rw [hsummary]
      show (s.summary ||| powerBit).getLsbD 25 = true
      rw [BitVec.getLsbD_or, Bool.or_eq_true]
      exact .inr (by decide)
    case done => rw [hslot, if_pos hn]; exact ⟨rfl, rfl⟩
    case rises =>
      have hlocked : s.allLocked l = false := State.allLocked_of_used hl hrise.1
      rw [hleg, Leg.risen, if_pos hrise, hlocked]
      obtain ⟨hintent, hattempts, -, -⟩ := Leg.enteredDark_keeps { s.leg l with attempts := 0 } (s.allPresent l) false
      refine ⟨?_, hattempts, hintent.trans hrise.2.2⟩
      cases s.allPresent l <;> rfl
    case stays => rw [hleg, Leg.risen, if_neg hno]

end Sys2Proof.Machine
end

section
/-! The host's writes of one action byte: the hand-over byte (O34, O35), the release byte and the page state (O39). -/

namespace Sys2Proof.Machine

variable {s t : State} {n : SlotId} {v : Byte}

/-! ### A write transaction of one action byte -/

/-- The line interface after a write transaction that ended at an offset, the action byte still to act. -/
def State.wroteTo (s : State) (offset : BitVec 16) : State :=
  { s with acknowledged := true, offset := offset, writeOpen := none }

theorem State.lineAfter_of_fixed {k : Nat} (h : s.LineFree) (hf : t.fixed = (s.wroteTo (BitVec.ofNat 16 k)).fixed) :
    s.LineAfter t k :=
  let a := BitVec.ofNat 16 k
  ⟨State.offset_of_fixed (s := s.wroteTo a) hf, State.writeOpen_of_fixed (s := s.wroteTo a) hf,
    (State.readOpen_of_fixed (s := s.wroteTo a) hf).trans h.2.2.2,
    State.acknowledged_of_fixed (s := s.wroteTo a) hf, State.readData_of_fixed (s := s.wroteTo a) hf⟩

theorem State.sameSettings_of_fixed {a : BitVec 16} (hf : t.fixed = (s.wroteTo a).fixed) : s.SameSettings t :=
  ⟨State.enables_of_fixed (s := s.wroteTo a) hf, State.latchedMode_of_fixed (s := s.wroteTo a) hf,
    State.holdIntake_of_fixed (s := s.wroteTo a) hf⟩

theorem State.samePins_of_fixed {a : BitVec 16} (hf : t.fixed = (s.wroteTo a).fixed) : s.SamePins t :=
  ⟨State.resetHeld_of_fixed (s := s.wroteTo a) hf, State.lowpwr_of_fixed (s := s.wroteTo a) hf,
    State.straps_of_fixed (s := s.wroteTo a) hf⟩

theorem State.sameDevice_of_fixed {a : BitVec 16} (hf : t.fixed = (s.wroteTo a).fixed) : s.SameDevice t :=
  ⟨State.device_of_fixed (s := s.wroteTo a) hf, State.initTimer_of_fixed (s := s.wroteTo a) hf,
    State.initByPowerOn_of_fixed (s := s.wroteTo a) hf, State.resetTimer_of_fixed (s := s.wroteTo a) hf,
    State.lastCause_of_fixed (s := s.wroteTo a) hf, State.releaseCause_of_fixed (s := s.wroteTo a) hf⟩

/-- R133: a host write of one action byte leaves what the byte does. -/
theorem State.hostWrite_acts (h : s.LineFree) {a : Nat} (ha : isActionOffset a = true) (hlt : a < 0x2000)
    (hr : a < 0x400 ∨ s.device ≠ .exchangeResetting) (ht : ((s.wroteTo (BitVec.ofNat 16 (a + 1))).act (a, v)).readOpen = none) :
    s.hostWrite a [v] = (s.wroteTo (BitVec.ofNat 16 (a + 1))).act (a, v) := by
  have hoffset : BitVec.ofNat 16 a + 1 = BitVec.ofNat 16 (a + 1) := (BitVec.ofNat_add a 1).symm
  have hline : { s with acknowledged := true, offset := BitVec.ofNat 16 a + 1, writeOpen := none } =
      s.wroteTo (BitVec.ofNat 16 (a + 1)) := by rw [hoffset]; rfl
  rw [State.hostWrite_action h a v ha hlt hr, hline, State.endRead, ht]

/-! ### The hand-over byte -/

/-- R136: a host write of a hand-over byte at READY. -/
theorem State.hostWrite_handOver (h : s.LineFree) (hd : s.device = .ready) (n : SlotId) (v : Byte) :
    s.hostWrite (slotBase n + 0x0F) [v] = (s.wroteTo (BitVec.ofNat 16 (slotBase n + 0x10))).writeHandOver n v := by
  obtain ⟨-, -, hlow, hhigh, haction⟩ := slotOffset n 0x0F (by omega)
  have hact := State.act_handOver (s := s.wroteTo (BitVec.ofNat 16 (slotBase n + 0x10))) n v
  refine (State.hostWrite_acts h haction (by omega) (.inr (by rw [hd]; nofun)) ?_).trans hact
  rw [hact]
  exact (State.readOpen_of_fixed (State.writeHandOver_fixed _ n v)).trans h.2.2.2

section
variable (hd : s.device ≠ .exchangeResetting)
include hd

/-- R136: EMPTY written to a FILLED slot retracts it. -/
theorem State.writeHandOver_retracts (hs : (s.slot n).state = .filled) :
    s.writeHandOver n 0 = (s.leaveList n).modSlot n Slot.vacate := by
  have hzero : (0 : Byte).toNat = 0 := rfl
  rw [State.writeHandOver, if_neg hd, hzero, hs]
  exact rfl

/-- R136: EMPTY written to a DONE slot releases it. -/
theorem State.writeHandOver_releases (hs : (s.slot n).state = .done) :
    s.writeHandOver n 0 = (s.modSlot n Slot.vacate).lower (slotBit n) := by
  have hzero : (0 : Byte).toNat = 0 := rfl
  rw [State.writeHandOver, if_neg hd, hzero, hs]
  exact rfl

/-- R136: EMPTY written to an EMPTY or a TAKEN slot is ignored. -/
theorem State.writeHandOver_ignores (hs : (s.slot n).state = .empty ∨ (s.slot n).state = .taken) :
    s.writeHandOver n 0 = s := by
  have hzero : (0 : Byte).toNat = 0 := rfl
  rw [State.writeHandOver, if_neg hd, hzero]
  rcases hs with hs | hs <;> rw [hs] <;> exact rfl

end

theorem exec_emptyWrite {c : Instr} (hc : c = .slotRetract n ∨ c = .slotRelease n) (h : s.LineFree)
    (hd : s.device = .ready) : exec c s = .next ((s.wroteTo (BitVec.ofNat 16 (slotBase n + 0x10))).writeHandOver n 0) := by
  have hexec : exec c s = .next (s.hostWrite (slotBase n + 0x0F) [0x00]) := by rcases hc with rfl | rfl <;> rfl
  rw [hexec, State.hostWrite_handOver h hd]

/-- Settles O35, by the state of the slot. -/
theorem emptyWriteRetractsAndReleases : Obligations.EmptyWriteRetractsAndReleases := by
  intro n c s h hd hc
  have hfixed := State.writeHandOver_fixed (s.wroteTo (BitVec.ofNat 16 (slotBase n + 0x10))) n 0
  refine ⟨_, exec_emptyWrite hc h hd, State.lineAfter_of_fixed h hfixed, ?_⟩
  generalize BitVec.ofNat 16 (slotBase n + 0x10) = o at hfixed ⊢
  have hready : (s.wroteTo o).device ≠ .exchangeResetting := by
    show s.device ≠ _
    rw [hd]; nofun
  have hslot (m : SlotId) : (State.modSlot (s.wroteTo o) n Slot.vacate).slot m =
      if m = n then (s.slot n).vacate else s.slot m := State.slot_modSlot (s := s.wroteTo o) n m Slot.vacate
  have hpins := State.samePins_of_fixed hfixed
  have hdevice := State.sameDevice_of_fixed hfixed
  have hsettings := State.sameSettings_of_fixed hfixed
  have hstay (hs : (s.slot n).state = .empty ∨ (s.slot n).state = .taken) :
      (s.wroteTo o).writeHandOver n 0 = s.wroteTo o := State.writeHandOver_ignores hready hs
  cases hs : (s.slot n).state with
  | filled =>
    rw [State.writeHandOver_retracts hready hs] at hpins hdevice hsettings ⊢
    exact ⟨⟨hpins, ⟨rfl, rfl, rfl⟩, hdevice, fun _ => rfl, fun _ _ => rfl, fun _ _ => rfl⟩, fun _ _ => rfl, hsettings,
      rfl, ⟨rfl, rfl⟩, fun _ => rfl, fun m hm => (hslot m).trans (if_neg (by simpa using hm)), fun _ => rfl, rfl, rfl,
      (hslot n).trans (if_pos rfl), rfl, rfl⟩
  | done =>
    rw [State.writeHandOver_releases hready hs] at hpins hdevice hsettings ⊢
    exact ⟨⟨hpins, ⟨rfl, rfl, rfl⟩, hdevice, fun _ => rfl, fun _ _ => rfl, fun _ _ => rfl⟩, fun _ _ => rfl, hsettings,
      rfl, ⟨rfl, rfl⟩, fun _ => rfl, fun m hm => (hslot m).trans (if_neg (by simpa using hm)), fun _ => rfl, rfl, rfl,
      (hslot n).trans (if_pos rfl), rfl, rfl⟩
  | empty =>
    rw [hstay (.inl hs)] at hpins hdevice hsettings ⊢
    exact ⟨⟨hpins, ⟨rfl, rfl, rfl⟩, hdevice, fun _ => rfl, fun _ _ => rfl, fun _ _ => rfl⟩, fun _ _ => rfl, hsettings,
      rfl, ⟨rfl, rfl⟩, fun _ => rfl, fun _ _ => rfl, fun _ => rfl, rfl, rfl, rfl, rfl, rfl⟩
  | taken =>
    rw [hstay (.inr hs)] at hpins hdevice hsettings ⊢
    exact ⟨⟨hpins, ⟨rfl, rfl, rfl⟩, hdevice, fun _ => rfl, fun _ _ => rfl, fun _ _ => rfl⟩, fun _ _ => rfl, hsettings,
      rfl, ⟨rfl, rfl⟩, fun _ => rfl, fun _ _ => rfl, fun _ => rfl, rfl, rfl, rfl, rfl, rfl⟩

/-! ### A fault reported -/

theorem State.faultReported_reportFault (s : State) (r : FaultRecord) : s.FaultReported (s.reportFault r) r := by
  cases h : s.faultRecord with
  | none =>
    have hreport : s.reportFault r = { s with faultRecord := some r }.raise faultBit := by
      simp only [State.reportFault, h]
    rw [hreport]
    exact ⟨fun _ => ⟨rfl, rfl, rfl⟩, fun hne => absurd h hne⟩
  | some r' =>
    have hreport : s.reportFault r = { s with laterFaults := countUp 255 s.laterFaults } := by
      simp only [State.reportFault, h]
    rw [hreport]
    exact ⟨fun hn => absurd (h.symm.trans hn) nofun, fun _ => ⟨rfl, rfl, rfl⟩⟩

/-- R168: a fault reported leaves everything but the attention unit and the fault log. -/
theorem State.reportFault_keeps (s : State) (r : FaultRecord) : s.SamePower (s.reportFault r) ∧
    s.SameMap (s.reportFault r) ∧ s.SameLanesBut [] (s.reportFault r) ∧ s.SameLegsBut [] (s.reportFault r) ∧
    s.SamePagesBut [] (s.reportFault r) ∧ s.SameSlotsBut [] (s.reportFault r) ∧ s.SameTasks (s.reportFault r) ∧
    s.SameBytes (s.reportFault r) := by
  obtain ⟨_, _, _, _, h⟩ := s.reportFault_eq_update r
  rw [h]
  exact ⟨⟨rfl, rfl, rfl⟩, fun _ => rfl, fun _ _ => rfl, fun _ _ => rfl, fun _ _ => rfl, fun _ _ => rfl,
    ⟨fun _ => rfl, rfl, rfl, rfl, rfl⟩, fun _ => rfl⟩

/-! ### SLOT_HAND_OVER -/

theorem State.writeHandOver_misuse (hd : s.device ≠ .exchangeResetting) (hs : (s.slot n).state ≠ .empty) :
    s.writeHandOver n 1 = s.slotMisuse n 1 := by
  have hone : (1 : Byte).toNat = 1 := rfl
  rw [State.writeHandOver, if_neg hd, hone]
  cases h : (s.slot n).state with
  | empty => exact absurd h hs
  | filled => exact rfl
  | taken => exact rfl
  | done => exact rfl

/-- R136: FILLED written to an EMPTY slot: the slot is FILLED and last in the list. -/
def State.fill (s : State) (n : SlotId) : State :=
  { s with handOver := s.handOver ++ [n] }.modSlot n (fun c => { c with state := .filled })

/-- R170: the intake that is held examines nothing. -/
theorem State.intake_held (h : s.intakeHeld = true) : s.intake = s := by
  simp [State.intake, State.intakeRounds, h]

theorem taskKind_eq_none : ∀ b : Byte, b ∉ ([1, 2, 3, 4, 5, 6, 7, 8, 0x10, 0x11] : List Byte) → taskKind b = none := by
  decide

/-- R138: an awaited task of an unknown kind that the intake takes at once: DONE, its result area 0. -/
theorem State.intake_fill_unknown (hl : s.handOver = []) (hh : s.intakeHeld = false) (hc : s.slotByte n 1 ≠ 1)
    (hk : s.slotByte n 0 ∉ ([1, 2, 3, 4, 5, 6, 7, 8, 0x10, 0x11] : List Byte)) :
    (s.fill n).intake = ((s.fill n).takeSlot n true).endAwaited n [] .unknownKind := by
  have hlist : (s.fill n).handOver = [n] := by
    show s.handOver ++ [n] = [n]
    rw [hl, List.nil_append]
  have hcheck : (s.fill n).checkSlot n = .error .unknownKind := by
    have hkind : taskKind ((s.fill n).slotByte n 0) = none := taskKind_eq_none _ hk
    simp only [State.checkSlot, hkind]
  rw [State.intake_refuses hlist hh hcheck, State.refuseSlot_awaited (s.fill n) (n := n) hc]

theorem State.slot_fill (s : State) (n m : SlotId) : (s.fill n).slot m =
    if m = n then { s.slot n with state := .filled } else s.slot m :=
  State.slot_modSlot (s := { s with handOver := s.handOver ++ [n] }) n m _

/-- R138, R139: what the refusal of an awaited slot leaves in it. -/
theorem State.slot_refused (s : State) (n m : SlotId) (st : Status) :
    ((s.takeSlot n true).endAwaited n [] st).slot m = if m = n then ⟨.done, st, false⟩ else s.slot m := by
  have htake (k : SlotId) : (s.takeSlot n true).slot k = if k = n then ⟨.taken, .inProgress, false⟩ else s.slot k :=
    State.slot_modSlot (s := { s.leaveList n with mem := s.mem.clear (slotBase n + 0x80) 0x80 }) n k
      (fun _ => ⟨.taken, .inProgress, false⟩)
  rw [State.slot_endAwaited, htake, htake, if_pos rfl]
  by_cases hm : m = n <;> simp [hm]

theorem State.takeSlot_awaited (s : State) (n : SlotId) : s.takeSlot n true = { s with
    handOver := s.handOver.filter (fun m => m ≠ n)
    mem := s.mem.clear (slotBase n + 0x80) 0x80
    slots := s.slots.set n ⟨.taken, .inProgress, false⟩ } := by
  rw [State.takeSlot, if_pos rfl]
  exact rfl

theorem State.fill_update (s : State) (n : SlotId) : s.fill n = { s with
    handOver := s.handOver ++ [n]
    slots := (s.fill n).slots } := rfl

theorem State.endAwaited_update (s : State) (n : SlotId) (st : Status) : ∃ slots line, s.endAwaited n [] st = { s with
    summary := s.summary ||| slotBit n
    latchedLine := line
    slots := slots } := ⟨_, _, rfl⟩

theorem State.refused_update (s : State) (n : SlotId) (st : Status) : ∃ slots line,
    ((s.fill n).takeSlot n true).endAwaited n [] st = { s with
      handOver := (s.handOver ++ [n]).filter (fun m => m ≠ n)
      slots := slots
      mem := s.mem.clear (slotBase n + 0x80) 0x80
      summary := s.summary ||| slotBit n
      latchedLine := line } := by
  obtain ⟨_, _, h⟩ := ((s.fill n).takeSlot n true).endAwaited_update n st
  rw [h, State.takeSlot_awaited, State.fill_update]
  exact ⟨_, _, rfl⟩

/-- R137, R138: what a filling and a refusal leave of the power unit, the map, the lane sides, the legs, the pages, the
engines, the fault log, and the summary. -/
theorem State.refused_keeps (s : State) (n : SlotId) (st : Status) (t : State)
    (ht : t = ((s.fill n).takeSlot n true).endAwaited n [] st) : s.SamePower t ∧ s.SameMap t ∧ s.SameLanesBut [] t ∧
    s.SameLegsBut [] t ∧ s.SamePagesBut [] t ∧ s.SameFaults t ∧ (∀ l, t.engine l = s.engine l) ∧
    t.deviceQueue = s.deviceQueue ∧ t.powerWait = s.powerWait ∧ t.owed = s.owed ∧
    t.handOver = (s.handOver ++ [n]).filter (fun m => m ≠ n) ∧ t.summary = s.summary ||| slotBit n ∧
    t.mem = s.mem.clear (slotBase n + 0x80) 0x80 := by
  obtain ⟨_, _, hupdate⟩ := s.refused_update n st
  rw [hupdate] at ht
  generalize s.mem.clear (slotBase n + 0x80) 0x80 = mem at ht ⊢
  subst ht
  exact ⟨⟨rfl, rfl, rfl⟩, fun _ => rfl, fun _ _ => rfl, fun _ _ => rfl, fun _ _ => rfl, ⟨rfl, rfl⟩, fun _ => rfl, rfl,
    rfl, rfl, rfl, rfl, rfl⟩

/-- Settles O34: a misuse, a FILLED slot that waits, or a refusal. -/
theorem handOverFillsTheSlot : Obligations.HandOverFillsTheSlot := by
  intro n s h hd
  have hexec : exec (.slotHandOver n) s =
      .next ((s.wroteTo (BitVec.ofNat 16 (slotBase n + 0x10))).writeHandOver n 1) :=
    congrArg Host.Outcome.next (State.hostWrite_handOver h hd n 1)
  have hfixed := State.writeHandOver_fixed (s.wroteTo (BitVec.ofNat 16 (slotBase n + 0x10))) n 1
  refine ⟨_, hexec, State.lineAfter_of_fixed h hfixed, State.sameSettings_of_fixed hfixed, ?_⟩
  clear hexec
  generalize BitVec.ofNat 16 (slotBase n + 0x10) = o at hfixed ⊢
  have hready : (s.wroteTo o).device ≠ .exchangeResetting := by
    show s.device ≠ _
    rw [hd]; nofun
  have hpins := State.samePins_of_fixed hfixed
  have hdevice := State.sameDevice_of_fixed hfixed
  by_cases hs : (s.slot n).state = .empty
  case neg =>
    have hmisuse : (s.wroteTo o).writeHandOver n 1 = (s.wroteTo o).reportFault ⟨.misuse, .inProgress, n.val,
        s.slotByte n 0, s.slotByte n 2, s.slotByte n 4, s.slotByte n 5, 0x01, (s.slot n).state.code⟩ :=
      State.writeHandOver_misuse hready hs
    rw [hmisuse] at hpins hdevice ⊢
    obtain ⟨hpower, hmap, hlanes, hlegs, hpages, hslots, htasks, hbytes⟩ := (s.wroteTo o).reportFault_keeps
      ⟨.misuse, .inProgress, n.val, s.slotByte n 0, s.slotByte n 2, s.slotByte n 4, s.slotByte n 5, 0x01,
        (s.slot n).state.code⟩
    exact ⟨fun _ => ⟨⟨hpins, hpower, hdevice, hmap, hlanes, hlegs⟩, hpages, fun m _ => hslots m List.not_mem_nil⟩,
      fun h => absurd h hs, fun h => absurd h hs,
      fun _ => ⟨hslots n List.not_mem_nil, (s.wroteTo o).faultReported_reportFault _, htasks, hbytes⟩⟩
  case pos =>
    have hwrite : (s.wroteTo o).writeHandOver n 1 = ((s.wroteTo o).fill n).intake :=
      State.writeHandOver_fills n hready hs
    rw [hwrite] at hpins hdevice ⊢
    have hslot (m : SlotId) : ((s.wroteTo o).fill n).slot m =
        if m = n then { s.slot n with state := .filled } else s.slot m := (s.wroteTo o).slot_fill n m
    by_cases hheld : s.holdIntake = true ∧ s.faultRecord ≠ none
    · have hintake : ((s.wroteTo o).fill n).intake = (s.wroteTo o).fill n :=
        State.intake_held (by
          show (s.holdIntake && s.faultRecord.isSome) = true
          simp [hheld.1, Option.isSome_iff_ne_none.mpr hheld.2])
      rw [hintake] at hpins hdevice ⊢
      exact ⟨fun _ => ⟨⟨hpins, ⟨rfl, rfl, rfl⟩, hdevice, fun _ => rfl, fun _ _ => rfl, fun _ _ => rfl⟩, fun _ _ => rfl,
          fun m hm => (hslot m).trans (if_neg (by simpa using hm))⟩,
        fun _ _ => ⟨(hslot n).trans (if_pos rfl), rfl, fun _ => rfl, ⟨rfl, rfl, rfl, rfl, rfl⟩, ⟨rfl, rfl⟩,
          fun _ => rfl, rfl, rfl⟩,
        fun _ hno => absurd hheld (by rintro ⟨hh, hf⟩; rcases hno with hno | hno <;> simp [hno] at hh hf),
        fun hne => absurd hs hne⟩
    · have hfree : (s.wroteTo o).intakeHeld = false := by
        show (s.holdIntake && s.faultRecord.isSome) = false
        rw [Bool.eq_false_iff]
        simpa [Option.isSome_iff_ne_none] using hheld
      have hrefused (hl : s.handOver = []) (hc : s.slotByte n 1 ≠ 1)
          (hk : s.slotByte n 0 ∉ ([1, 2, 3, 4, 5, 6, 7, 8, 0x10, 0x11] : List Byte)) := by
        exact State.intake_fill_unknown (s := s.wroteTo o) (n := n) hl hfree hc hk
      have hdone (m : SlotId) : ((((s.wroteTo o).fill n).takeSlot n true).endAwaited n [] .unknownKind).slot m =
          if m = n then ⟨.done, .unknownKind, false⟩ else s.slot m := by
        rw [State.slot_refused, hslot]
        by_cases hm : m = n <;> simp [hm]
      obtain ⟨hpower, hmap, hlanes, hlegs, hpages, hfaults, hengines, hqueue, hwait, howed, hlist, hsummary, hmem⟩ :=
        (s.wroteTo o).refused_keeps n .unknownKind _ rfl
      refine ⟨fun hcase => ?_, fun _ h => absurd h hheld, fun _ _ hl hc hk => ?_, fun hne => absurd hs hne⟩
      · obtain ⟨hl, hc, hk⟩ := (hcase.resolve_left (not_not_intro hs)).resolve_left hheld
        rw [hrefused hl hc hk] at hpins hdevice ⊢
        exact ⟨⟨hpins, hpower, hdevice, hmap, hlanes, hlegs⟩, hpages,
          fun m hm => (hdone m).trans (if_neg (by simpa using hm))⟩
      · rw [hrefused hl hc hk]
        refine ⟨(hdone n).trans (if_pos rfl), hsummary, fun a => ?_, ⟨hengines, hqueue, hwait, hlist.trans ?_, howed⟩,
          hfaults⟩
        · rw [hmem]
          exact (Memory.read_clear s.mem (slotBase n + 0x80) 0x80 a).trans rfl
        · show (s.handOver ++ [n]).filter (fun m => m ≠ n) = s.handOver
          simp [hl]

end Sys2Proof.Machine
end

section
/-! The release byte and the page state (O39). -/

namespace Sys2Proof.Machine

variable {s t : State} {p : PageId} {v : Byte}

/-! ### FAULT_LOG_RELEASE -/

/-- R133: a host write of one head byte that acts. -/
theorem State.hostWrite_head (h : s.LineFree) {a : Nat} (ha : isActionOffset a = true) (hlt : a < 0x400)
    (ht : ((s.wroteTo (BitVec.ofNat 16 (a + 1))).act (a, v)).readOpen = none) :
    s.hostWrite a [v] = (s.wroteTo (BitVec.ofNat 16 (a + 1))).act (a, v) :=
  State.hostWrite_acts h ha (by omega) (.inl hlt) ht

theorem State.act_release (s : State) (v : Byte) : s.act (0x5F, v) = s.writeRelease v := rfl

theorem State.writeRelease_ignores (h : v = 0 ∨ s.faultRecord = none) : s.writeRelease v = s :=
  if_pos (by simpa using h)

/-- R169: with no slot waiting a release only empties the log. -/
theorem State.writeRelease_releases (hv : v ≠ 0) (hf : s.faultRecord ≠ none) (hl : s.handOver = []) :
    s.writeRelease v = s.releaseFaults :=
  (if_neg fun h => h.elim hv fun h => hf (by simpa using h)).trans (State.intake_nil hl)

theorem exec_faultLogRelease_eq (h : s.LineFree) (hl : s.handOver = []) (v : Byte) :
    exec (.faultLogRelease v) s = .next ((s.wroteTo 0x60).writeRelease v) := by
  refine congrArg Host.Outcome.next (State.hostWrite_head (a := 0x5F) h rfl (by omega) ?_)
  rw [State.act_release]
  by_cases hv : v = 0 ∨ s.faultRecord = none
  · have hsame : (s.wroteTo 0x60).writeRelease v = s.wroteTo 0x60 := State.writeRelease_ignores hv
    exact (congrArg State.readOpen hsame).trans h.2.2.2
  · obtain ⟨hv, hf⟩ := not_or.mp hv
    have hsame : (s.wroteTo 0x60).writeRelease v = (s.wroteTo 0x60).releaseFaults :=
      State.writeRelease_releases hv hf hl
    exact (congrArg State.readOpen hsame).trans h.2.2.2

/-! ### PAGE_STATE_WRITE -/

theorem pageOffset (p : PageId) : (pageBase p - 0x1000) / 0x400 = p.val ∧ 0x1000 ≤ pageBase p ∧ pageBase p < 0x2000 ∧
    isActionOffset (pageBase p) = true := by
  have hp := p.isLt
  refine ⟨by simp only [pageBase]; omega, by simp only [pageBase]; omega, by simp only [pageBase]; omega, ?_⟩
  simp only [isActionOffset, Bool.or_eq_true, Bool.and_eq_true, decide_eq_true_eq, beq_iff_eq]
  simp only [pageBase]
  omega

/-- R133: the action byte of a page's state. -/
theorem State.act_page (s : State) (p : PageId) (v : Byte) : s.act (pageBase p, v) = s.writePage p v := by
  obtain ⟨hindex, hlow, -, -⟩ := pageOffset p
  have hp : Fin.ofNat 4 p.val = p := Fin.ext (Nat.mod_eq_of_lt p.isLt)
  have hsummary : ¬pageBase p < 0x14 := by omega
  have hcontrol : pageBase p ≠ 0x18 := by omega
  have hrelease : pageBase p ≠ 0x5F := by omega
  have hslot : ¬pageBase p < 0x1000 := by omega
  simp only [State.act, hsummary, hcontrol, hrelease, hslot, hindex, hp, if_false]

/-- R116: a host write of a page's state byte at READY. -/
theorem State.hostWrite_page (h : s.LineFree) (hd : s.device ≠ .exchangeResetting) (p : PageId) (v : Byte) :
    s.hostWrite (pageBase p) [v] = (s.wroteTo (BitVec.ofNat 16 (pageBase p + 1))).writePage p v := by
  obtain ⟨-, -, hhigh, haction⟩ := pageOffset p
  have hact := State.act_page (s.wroteTo (BitVec.ofNat 16 (pageBase p + 1))) p v
  refine (State.hostWrite_acts h haction (by omega) (.inr hd) ?_).trans hact
  rw [hact]
  exact (State.readOpen_of_fixed (State.writePage_fixed _ p v)).trans h.2.2.2

/-- R143: a host write of a page's state byte during an exchange reset acts on nothing. -/
theorem State.hostWrite_page_ignored (h : s.LineFree) (hd : s.device = .exchangeResetting) (p : PageId) (v : Byte) :
    s.hostWrite (pageBase p) [v] = s.wroteTo (BitVec.ofNat 16 (pageBase p + 1)) := by
  obtain ⟨-, hlow, hhigh, haction⟩ := pageOffset p
  have hoffset : (BitVec.ofNat 16 (pageBase p)).toNat = pageBase p := by
    rw [BitVec.toNat_ofNat]; omega
  have hnext : BitVec.ofNat 16 (pageBase p) + 1 = BitVec.ofNat 16 (pageBase p + 1) := (BitVec.ofNat_add _ 1).symm
  have hslot : 0x400 ≤ pageBase p := by omega
  rw [State.hostWrite_eq h]
  simpa [State.sendBytes, State.receiveByte, State.receiveData, hoffset, haction, hslot, hd, State.endTransaction,
    State.endWrite, State.endRead, h.2.2.2, State.wroteTo] using hnext

theorem State.device_of_free (h : s.LineFree) (hd : s.device ≠ .ready) : s.device = .exchangeResetting := by
  obtain ⟨-, hinit, -, -⟩ := h
  cases hs : s.device with
  | initializing => exact absurd hs hinit
  | ready => exact absurd hs hd
  | exchangeResetting => rfl

section
variable (hd : s.device ≠ .exchangeResetting)
include hd

theorem State.writePage_misuse (h : v ≠ 0 ∨ ∃ slot left, (s.page p).state = .busy slot left) :
    s.writePage p v = s.reportFault ⟨.misuse, .inProgress, 16 + p.val, 0, 0, 0, 0, v, (s.page p).state.code⟩ := by
  rw [State.writePage, if_neg hd]
  by_cases hv : v = 0
  · obtain ⟨slot, left, hbusy⟩ := h.resolve_left (not_not_intro hv)
    rw [if_neg (not_not_intro hv), State.pageMisuse, hbusy]
  · rw [if_pos hv]
    exact rfl

theorem State.writePage_frees (hp : (s.page p).state = .held) : s.writePage p 0 =
    { s with mem := s.mem.clear (pageBase p + 0x200) 0x200 }.modPage p (fun _ => Page.reset) := by
  rw [State.writePage, if_neg hd, if_neg (not_not_intro rfl), hp]

theorem State.writePage_ignores (hp : (s.page p).state = .free) : s.writePage p 0 = s := by
  rw [State.writePage, if_neg hd, if_neg (not_not_intro rfl), hp]

end

/-- Settles O39: a release empties a log that holds a record; a page's state byte by its value and the page's state. -/
theorem releasesEmptyTheLogAndThePage : Obligations.ReleasesEmptyTheLogAndThePage := by
  intro s h
  refine ⟨fun value hl => ⟨_, exec_faultLogRelease_eq h hl value, ?release⟩, fun p value => ?page⟩
  case release =>
    by_cases hv : value = 0 ∨ s.faultRecord = none
    · have hsame : (s.wroteTo 0x60).writeRelease value = s.wroteTo 0x60 := State.writeRelease_ignores hv
      have hrecord : s.faultRecord = if value = 0 then s.faultRecord else none := by
        split
        · rfl
        · next hne => exact hv.resolve_left hne
      rw [hsame, if_pos hv, if_pos hv]
      exact ⟨hrecord, rfl, rfl, ⟨rfl, rfl, rfl⟩, rfl, ⟨rfl, rfl, h.2.2.2, rfl, rfl⟩,
        ⟨⟨rfl, rfl, rfl⟩, ⟨rfl, rfl, rfl⟩, ⟨rfl, rfl, rfl, rfl, rfl, rfl⟩, fun _ => rfl, fun _ _ => rfl, fun _ _ => rfl⟩,
        ⟨fun _ => rfl, rfl, rfl, rfl, rfl⟩, fun _ _ => rfl, fun _ _ => rfl, fun _ => rfl⟩
    · obtain ⟨hne, hf⟩ := not_or.mp hv
      have hsame : (s.wroteTo 0x60).writeRelease value = (s.wroteTo 0x60).releaseFaults :=
        State.writeRelease_releases hne hf hl
      rw [hsame, if_neg hv, if_neg hv, if_neg hne]
      exact ⟨rfl, rfl, rfl, ⟨rfl, rfl, rfl⟩, rfl, ⟨rfl, rfl, h.2.2.2, rfl, rfl⟩,
        ⟨⟨rfl, rfl, rfl⟩, ⟨rfl, rfl, rfl⟩, ⟨rfl, rfl, rfl, rfl, rfl, rfl⟩, fun _ => rfl, fun _ _ => rfl, fun _ _ => rfl⟩,
        ⟨fun _ => rfl, rfl, rfl, rfl, rfl⟩, fun _ _ => rfl, fun _ _ => rfl, fun _ => rfl⟩
  case page =>
    by_cases hd : s.device = .ready
    case neg =>
      have hreset := State.device_of_free h hd
      have hexec : exec (.pageStateWrite p value) s = .next (s.wroteTo (BitVec.ofNat 16 (pageBase p + 1))) :=
        congrArg Host.Outcome.next (State.hostWrite_page_ignored h hreset p value)
      refine ⟨_, hexec, State.lineAfter_of_fixed h rfl, ?_⟩
      generalize BitVec.ofNat 16 (pageBase p + 1) = o
      exact ⟨⟨⟨rfl, rfl, rfl⟩, ⟨rfl, rfl, rfl⟩, ⟨rfl, rfl, rfl, rfl, rfl, rfl⟩, fun _ => rfl, fun _ _ => rfl,
          fun _ _ => rfl⟩, ⟨fun _ => rfl, rfl, rfl, rfl, rfl⟩, fun _ _ => rfl, ⟨rfl, rfl, rfl⟩,
        fun h => absurd h hd, fun _ => ⟨fun _ _ => rfl, fun _ => rfl, ⟨rfl, rfl, rfl, rfl, rfl⟩, ⟨rfl, rfl⟩⟩,
        fun h => absurd h hd⟩
    case pos =>
      have hexec : exec (.pageStateWrite p value) s =
          .next ((s.wroteTo (BitVec.ofNat 16 (pageBase p + 1))).writePage p value) :=
        congrArg Host.Outcome.next (State.hostWrite_page h (by rw [hd]; nofun) p value)
      have hfixed := State.writePage_fixed (s.wroteTo (BitVec.ofNat 16 (pageBase p + 1))) p value
      refine ⟨_, hexec, State.lineAfter_of_fixed h hfixed, ?_⟩
      clear hexec
      generalize BitVec.ofNat 16 (pageBase p + 1) = o at hfixed ⊢
      have hready : (s.wroteTo o).device ≠ .exchangeResetting := by
        show s.device ≠ _
        rw [hd]; nofun
      have hpins := State.samePins_of_fixed hfixed
      have hdevice := State.sameDevice_of_fixed hfixed
      have hsettings := State.sameSettings_of_fixed hfixed
      by_cases hmisuse : value ≠ 0 ∨ ∃ slot left, (s.page p).state = .busy slot left
      · have hwrite : (s.wroteTo o).writePage p value = (s.wroteTo o).reportFault
            ⟨.misuse, .inProgress, 16 + p.val, 0, 0, 0, 0, value, (s.page p).state.code⟩ :=
          State.writePage_misuse hready hmisuse
        rw [hwrite] at hpins hdevice hsettings ⊢
        obtain ⟨hpower, hmap, hlanes, hlegs, hpages, hslots, htasks, hbytes⟩ := (s.wroteTo o).reportFault_keeps
          ⟨.misuse, .inProgress, 16 + p.val, 0, 0, 0, 0, value, (s.page p).state.code⟩
        refine ⟨⟨hpins, hpower, hdevice, hmap, hlanes, hlegs⟩, htasks, hslots, hsettings, fun _ h0 hheld => ?_,
          fun hno => ?_, fun _ _ => ⟨hpages, hbytes, (s.wroteTo o).faultReported_reportFault _⟩⟩
        · rcases hmisuse with hne | ⟨_, _, hbusy⟩
          · exact absurd h0 hne
          · rw [hheld] at hbusy; cases hbusy
        · rcases hno with hno | ⟨h0, hfree⟩
          · exact absurd hd hno
          · rcases hmisuse with hne | ⟨_, _, hbusy⟩
            · exact absurd h0 hne
            · rw [hfree] at hbusy; cases hbusy
      · obtain ⟨hzero, hnot⟩ := not_or.mp hmisuse
        obtain rfl : value = 0 := not_not.mp hzero
        cases hp : (s.page p).state with
        | busy slot left => exact absurd ⟨slot, left, hp⟩ hnot
        | free =>
          have hwrite : (s.wroteTo o).writePage p 0 = s.wroteTo o := State.writePage_ignores hready hp
          rw [hwrite]
          exact ⟨⟨⟨rfl, rfl, rfl⟩, ⟨rfl, rfl, rfl⟩, ⟨rfl, rfl, rfl, rfl, rfl, rfl⟩, fun _ => rfl, fun _ _ => rfl,
              fun _ _ => rfl⟩, ⟨fun _ => rfl, rfl, rfl, rfl, rfl⟩, fun _ _ => rfl, ⟨rfl, rfl, rfl⟩,
            fun _ _ hh => absurd hh nofun,
            fun _ => ⟨fun _ _ => rfl, fun _ => rfl, ⟨rfl, rfl, rfl, rfl, rfl⟩, ⟨rfl, rfl⟩⟩,
            fun _ hm => absurd hm (by rintro (hm | ⟨_, _, hm⟩); exacts [hm rfl, nomatch hm])⟩
        | held =>
          have hread (a : Nat) := Memory.read_clear s.mem (pageBase p + 0x200) 0x200 a
          have hwrite : (s.wroteTo o).writePage p 0 =
              { s.wroteTo o with mem := s.mem.clear (pageBase p + 0x200) 0x200 }.modPage p (fun _ => Page.reset) :=
            State.writePage_frees hready hp
          rw [hwrite] at hpins hdevice hsettings ⊢
          generalize s.mem.clear (pageBase p + 0x200) 0x200 = mem at hread hpins hdevice hsettings ⊢
          have hpage (q : PageId) : ({ s.wroteTo o with mem := mem }.modPage p fun _ => Page.reset).page q =
              if q = p then Page.reset else s.page q :=
            State.page_modPage (s := { s.wroteTo o with mem := mem }) p q fun _ => Page.reset
          exact ⟨⟨hpins, ⟨rfl, rfl, rfl⟩, hdevice, fun _ => rfl, fun _ _ => rfl, fun _ _ => rfl⟩,
            ⟨fun _ => rfl, rfl, rfl, rfl, rfl⟩, fun _ _ => rfl, hsettings,
            fun _ _ _ => ⟨(hpage p).trans (if_pos rfl), hread, fun q hq => (hpage q).trans (if_neg (by simpa using hq)),
              ⟨rfl, rfl, rfl, rfl, rfl⟩, ⟨rfl, rfl⟩⟩,
            fun hno => absurd hno (by rintro (hno | ⟨-, hno⟩); exacts [hno hd, nomatch hno]),
            fun _ hm => absurd hm (by rintro (hm | ⟨_, _, hm⟩); exacts [hm rfl, nomatch hm])⟩

end Sys2Proof.Machine
end

section
/-! The head writes of the attention unit and of exchange control, and the exchange reset (O37, O40). -/

namespace Sys2Proof.Machine

variable {s t : State} {v : Byte}

/-! ### The four bytes of a head word -/

/-- R164: what byte k of the summary, written, clears. -/
def clearMask (k : Nat) (v : Byte) : BitVec 32 := (v.setWidth 32 <<< (8 * k)) &&& clearableBits

theorem State.hostWrite_summary (h : s.LineFree) (b0 b1 b2 b3 : Byte) : s.hostWrite 0x10 [b0, b1, b2, b3] =
    ((((s.wroteTo 0x14).lower (clearMask 0 b0)).lower (clearMask 1 b1)).lower (clearMask 2 b2)).lower
      (clearMask 3 b3) := by
  rw [State.hostWrite_eq h]
  simp [State.sendBytes, State.receiveByte, State.receiveData, isActionOffset, addAction, State.endTransaction,
    State.endWrite, State.endRead, State.wroteTo, State.act, State.lower, h.2.2.2, clearMask]

theorem State.hostWrite_enables (h : s.LineFree) (b0 b1 b2 b3 : Byte) : s.hostWrite 0x14 [b0, b1, b2, b3] =
    ((((s.wroteTo 0x18).writeEnable 0 b0).writeEnable 1 b1).writeEnable 2 b2).writeEnable 3 b3 := by
  rw [State.hostWrite_eq h]
  simp [State.sendBytes, State.receiveByte, State.receiveData, isActionOffset, State.endTransaction,
    State.endWrite, State.endRead, State.wroteTo, State.storeByte, State.writeEnable, h.2.2.2]

theorem getLsbD_byteAt (v : Byte) (k i : Nat) (hk : k < 4) (hi : i < 32) :
    (v.setWidth 32 <<< (8 * k)).getLsbD i = (decide (8 * k ≤ i ∧ i < 8 * k + 8) && v.getLsbD (i - 8 * k)) := by
  by_cases hin : 8 * k ≤ i ∧ i < 8 * k + 8
  · simp [BitVec.getLsbD_shiftLeft, hin, hi, Nat.not_lt.mpr hin.1, show i - 8 * k < 32 by omega]
  · rw [decide_eq_false hin, Bool.false_and, BitVec.getLsbD_shiftLeft]
    rcases Nat.lt_or_ge i (8 * k) with hlt | hge
    · simp [hlt]
    · have hout : v.getLsbD (i - 8 * k) = false := BitVec.getLsbD_of_ge _ _ (by omega)
      simp [hout]

/-- Byte k of a word, in its place, holds the word's bits there. -/
theorem getLsbD_wordByte (value : BitVec 32) (k i : Nat) (hk : k < 4) (hi : i < 32) :
    ((value.extractLsb' (8 * k) 8).setWidth 32 <<< (8 * k)).getLsbD i = (decide (i / 8 = k) && value.getLsbD i) := by
  rw [getLsbD_byteAt _ k i hk hi, BitVec.getLsbD_extractLsb']
  by_cases h : i / 8 = k
  · have hin : 8 * k ≤ i ∧ i < 8 * k + 8 := by omega
    rw [decide_eq_true hin, decide_eq_true h, decide_eq_true (show i - 8 * k < 8 by omega), Bool.true_and,
      Nat.add_sub_cancel' hin.1]
  · rw [decide_eq_false (show ¬(8 * k ≤ i ∧ i < 8 * k + 8) by omega), decide_eq_false h, Bool.false_and, Bool.false_and]

/-- R164: the four bytes clear together what the word names. -/
theorem clearMask_word (value : BitVec 32) : clearMask 0 (value.extractLsb' 0 8) ||| clearMask 1 (value.extractLsb' 8 8) |||
    clearMask 2 (value.extractLsb' 16 8) ||| clearMask 3 (value.extractLsb' 24 8) = value &&& clearableBits := by
  refine BitVec.eq_of_getLsbD_eq fun i hi => ?_
  have hbyte (k : Nat) (hk : k < 4) := getLsbD_wordByte value k i hk hi
  have hplace : i / 8 = 0 ∨ i / 8 = 1 ∨ i / 8 = 2 ∨ i / 8 = 3 := by omega
  simp only [clearMask, BitVec.getLsbD_or, BitVec.getLsbD_and, hbyte 0 (by omega), hbyte 1 (by omega),
    hbyte 2 (by omega), hbyte 3 (by omega)]
  rcases hplace with h | h | h | h <;> simp [h]

/-! ### The enables -/

/-- R165: the enables after byte k is written: the byte's bits in their place, the others kept, all implemented. -/
theorem getLsbD_replaceEnable (enables value : BitVec 32) (k i : Nat) (hk : k < 4) (hi : i < 32) :
    (replaceEnable enables k (value.extractLsb' (8 * k) 8)).getLsbD i =
      ((if i / 8 = k then value.getLsbD i else enables.getLsbD i) && implementedBits.getLsbD i) := by
  have hmask : (0xFF#32 <<< (8 * k)).getLsbD i = decide (i / 8 = k) := by
    have hall : ∀ j : Fin 8, (0xFF#8).getLsbD j = true := by decide
    refine (getLsbD_byteAt (0xFF#8) k i hk hi).trans ?_
    by_cases h : i / 8 = k
    · rw [hall ⟨i - 8 * k, by omega⟩, decide_eq_true h, decide_eq_true (show 8 * k ≤ i ∧ i < 8 * k + 8 by omega)]
      rfl
    · rw [decide_eq_false h, decide_eq_false (show ¬(8 * k ≤ i ∧ i < 8 * k + 8) by omega), Bool.false_and]
  rw [replaceEnable, BitVec.getLsbD_and, BitVec.getLsbD_or, BitVec.getLsbD_and, BitVec.getLsbD_not, hmask,
    getLsbD_wordByte value k i hk hi]
  by_cases h : i / 8 = k <;> simp [h, hi]

/-- R165: the enables after the first k bytes of a word are written. -/
def enablesAfter (enables value : BitVec 32) : Nat → BitVec 32
  | 0 => enables
  | k + 1 => replaceEnable (enablesAfter enables value k) k (value.extractLsb' (8 * k) 8)

theorem getLsbD_enablesAfter (enables value : BitVec 32) (k i : Nat) (hk : k < 4) (hi : i < 32) :
    (enablesAfter enables value (k + 1)).getLsbD i =
      ((if i / 8 ≤ k then value.getLsbD i else enables.getLsbD i) && implementedBits.getLsbD i) := by
  induction k with
  | zero =>
    rw [enablesAfter, getLsbD_replaceEnable _ _ 0 i hk hi]
    simp [enablesAfter]
  | succ k ih =>
    rw [enablesAfter, getLsbD_replaceEnable _ _ (k + 1) i hk hi, ih (by omega)]
    by_cases h : i / 8 = k + 1
    · simp [h]
    · by_cases hle : i / 8 ≤ k
      · simp [h, hle, show i / 8 ≤ k + 1 by omega]
      · simp [h, hle, show ¬i / 8 ≤ k + 1 by omega]

/-- R165: the whole word written leaves its implemented bits. -/
theorem enablesAfter_word (enables value : BitVec 32) : enablesAfter enables value 4 = value &&& implementedBits := by
  refine BitVec.eq_of_getLsbD_eq fun i hi => ?_
  rw [getLsbD_enablesAfter _ _ 3 i (by omega) hi, if_pos (by omega), BitVec.getLsbD_and]

/-- R167: the enables that byte k turns on: those of its place. -/
theorem getLsbD_turnedOn (enables value : BitVec 32) (k i : Nat) (hk : k < 4) (hi : i < 32) :
    (enablesAfter enables value (k + 1) &&& ~~~enablesAfter enables value k).getLsbD i =
      (decide (i / 8 = k) && (value &&& implementedBits &&& ~~~enables).getLsbD i) := by
  simp only [BitVec.getLsbD_and, BitVec.getLsbD_not, getLsbD_enablesAfter _ _ k i hk hi, hi, decide_true, Bool.true_and]
  cases k with
  | zero =>
    simp only [enablesAfter, Nat.le_zero]
    by_cases h : i / 8 = 0
    · simp [h]
    · cases henable : enables.getLsbD i <;> simp [h, henable]
  | succ k =>
    rw [getLsbD_enablesAfter _ _ k i (by omega) hi]
    generalize value.getLsbD i = a, implementedBits.getLsbD i = c, enables.getLsbD i = b
    by_cases h : i / 8 = k + 1
    · rw [if_pos (by omega), if_neg (by omega), decide_eq_true h]
      cases c <;> simp
    · have hsame : (i / 8 ≤ k + 1) = (i / 8 ≤ k) := propext (by omega)
      simp only [hsame, Bool.and_not_self, decide_eq_false h, Bool.false_and]

/-- R167: the enables that the first k bytes of a word turn on. -/
def turnedOn (enables value : BitVec 32) : Nat → BitVec 32
  | 0 => 0
  | k + 1 => turnedOn enables value k ||| (enablesAfter enables value (k + 1) &&& ~~~enablesAfter enables value k)

theorem turnedOn_word (enables value : BitVec 32) :
    turnedOn enables value 4 = value &&& implementedBits &&& ~~~enables := by
  refine BitVec.eq_of_getLsbD_eq fun i hi => ?_
  have hplace : i / 8 = 0 ∨ i / 8 = 1 ∨ i / 8 = 2 ∨ i / 8 = 3 := by omega
  have hbyte (k : Nat) (hk : k < 4) := getLsbD_turnedOn enables value k i hk hi
  simp only [turnedOn, BitVec.getLsbD_or, hbyte 0 (by omega), hbyte 1 (by omega), hbyte 2 (by omega),
    hbyte 3 (by omega)]
  rcases hplace with h | h | h | h <;> simp [h]

/-- R165, R167: the state after the first k bytes of the enables are written. -/
def State.enabled (s : State) (value : BitVec 32) (k : Nat) : State :=
  { s with
    enables := enablesAfter s.enables value k
    latchedLine := s.latchedLine || (s.latchedMode && decide (turnedOn s.enables value k &&& s.summary ≠ 0)) }

theorem State.enabled_zero (s : State) (value : BitVec 32) : s.enabled value 0 = s := by
  simp [State.enabled, enablesAfter, turnedOn]

theorem State.writeEnable_enabled (s : State) (value : BitVec 32) (k : Nat) :
    (s.enabled value k).writeEnable k (value.extractLsb' (8 * k) 8) = s.enabled value (k + 1) := by
  have hline (x y : BitVec 32) (m : BitVec 32) : (decide (x &&& m ≠ 0) || (y &&& m != 0)) =
      decide ((x ||| y) &&& m ≠ 0) := by
    have hor : (x ||| y) &&& m = (x &&& m) ||| (y &&& m) := BitVec.and_or_distrib_right
    rw [hor, Bool.eq_iff_iff]
    simp only [Bool.or_eq_true, decide_eq_true_eq, bne_iff_ne, ne_eq]
    exact not_and_or.symm.trans (not_congr BitVec.or_eq_zero_iff.symm)
  have hlatched : ((s.latchedLine || (s.latchedMode && decide (turnedOn s.enables value k &&& s.summary ≠ 0))) ||
      (s.latchedMode && (enablesAfter s.enables value (k + 1) &&& ~~~enablesAfter s.enables value k &&& s.summary) != 0)) =
      (s.latchedLine || (s.latchedMode && decide (turnedOn s.enables value (k + 1) &&& s.summary ≠ 0))) := by
    rw [Bool.or_assoc, ← Bool.and_or_distrib_left, hline]
    rfl
  exact congrArg (fun line => { s with enables := enablesAfter s.enables value (k + 1), latchedLine := line }) hlatched

/-- R165, R167: the four bytes of the enables written. -/
theorem State.writeEnables (s : State) (value : BitVec 32) :
    (((s.writeEnable 0 (value.extractLsb' 0 8)).writeEnable 1 (value.extractLsb' 8 8)).writeEnable 2
      (value.extractLsb' 16 8)).writeEnable 3 (value.extractLsb' 24 8) = { s with
        enables := value &&& implementedBits
        latchedLine := s.latchedLine || (s.latchedMode &&
          decide (value &&& implementedBits &&& ~~~s.enables &&& s.summary ≠ 0)) } := by
  have h0 := s.writeEnable_enabled value 0
  have h1 := s.writeEnable_enabled value 1
  have h2 := s.writeEnable_enabled value 2
  have h3 := s.writeEnable_enabled value 3
  rw [State.enabled_zero] at h0
  rw [← h2, ← h1, ← h0, State.enabled, enablesAfter_word, turnedOn_word] at h3
  exact h3

/-! ### ATTN_L -/

theorem and_ne_zero_iff (a b : BitVec 32) : (a &&& b) ≠ 0 ↔ ∃ k, a.getLsbD k = true ∧ b.getLsbD k = true := by
  constructor
  · intro h
    by_contra hno
    refine h (BitVec.eq_of_getLsbD_eq fun i _ => ?_)
    rw [BitVec.getLsbD_and]
    cases ha : a.getLsbD i with
    | false => simp
    | true => simpa using fun hb => hno ⟨i, ha, hb⟩
  · rintro ⟨k, ha, hb⟩ h
    have hk := congrArg (BitVec.getLsbD · k) h
    simp [ha, hb] at hk

/-! ### EXCHANGE_CONTROL_WRITE and EXCHANGE_RESET -/

/-- R142: exchange control without its trigger. -/
def State.setControl (s : State) (latched hold : Bool) : State :=
  { s with
    latchedMode := latched
    holdIntake := hold
    latchedLine := if latched = s.latchedMode then s.latchedLine else latched && decide (s.summary &&& s.enables ≠ 0) }

theorem State.setMode_hold (s : State) (latched hold : Bool) :
    { s.setMode latched with holdIntake := hold } = s.setControl latched hold := by
  unfold State.setMode State.setControl
  by_cases h : s.latchedMode = latched
  · subst h
    rw [if_pos rfl, if_pos rfl]
  · have hne : ((s.summary &&& s.enables) != 0) = decide (s.summary &&& s.enables ≠ 0) := by
      rw [Bool.eq_iff_iff, bne_iff_ne, decide_eq_true_eq]
    rw [if_neg h, if_neg (Ne.symm h), hne]

/-- R142, R170: what a write of exchange control does; an examination finds no slot waiting. -/
theorem State.writeControl_eq (s : State) (v : Byte)
    (hl : s.handOver = [] ∨ (v.getLsbD 7 = true ∧ s.device = .ready)) : s.writeControl v =
    if v.getLsbD 7 = true ∧ s.device = .ready then (s.setControl (v.getLsbD 0) (v.getLsbD 1)).startExchangeReset
    else s.setControl (v.getLsbD 0) (v.getLsbD 1) := by
  have hdevice : (s.setControl (v.getLsbD 0) (v.getLsbD 1)).device = s.device := rfl
  unfold State.writeControl
  rw [State.setMode_hold]
  dsimp only
  rw [hdevice]
  by_cases htrigger : v.getLsbD 7 = true ∧ s.device = .ready
  · rw [if_pos htrigger]
    split
    · exact State.intake_nil rfl
    · exact rfl
  · rw [if_neg htrigger]
    split
    · exact State.intake_nil (hl.resolve_right htrigger)
    · exact rfl

theorem State.act_control (s : State) (v : Byte) : s.act (0x18, v) = s.writeControl v := rfl

theorem State.hostWrite_control (h : s.LineFree) (v : Byte)
    (hl : s.handOver = [] ∨ (v.getLsbD 7 = true ∧ s.device = .ready)) :
    s.hostWrite 0x18 [v] = (s.wroteTo 0x19).writeControl v := by
  refine State.hostWrite_head (a := 0x18) h rfl (by omega) ?_
  rw [State.act_control, State.writeControl_eq (s.wroteTo _) v hl]
  split <;> exact h.2.2.2

theorem State.attentionAsserted_of_stopped (h : s.resetHeld = true ∨ s.device = .initializing) :
    s.attentionAsserted = false :=
  if_pos (by rcases h with h | h <;> simp [h])

theorem State.attentionAsserted_of_running (hr : s.resetHeld = false) (hd : s.device ≠ .initializing) :
    s.attentionAsserted = if s.latchedMode then s.latchedLine else (s.summary &&& s.enables) != 0 :=
  if_neg (by simp [hr, hd])

theorem State.summary_lower4 (s : State) (value : BitVec 32) :
    (((s.lower (clearMask 0 (value.extractLsb' 0 8))).lower (clearMask 1 (value.extractLsb' 8 8))).lower
      (clearMask 2 (value.extractLsb' 16 8))).lower (clearMask 3 (value.extractLsb' 24 8)) =
    s.lower (value &&& clearableBits) := by
  have hand (a b c d e : BitVec 32) : a &&& ~~~b &&& ~~~c &&& ~~~d &&& ~~~e = a &&& ~~~(b ||| c ||| d ||| e) := by
    simp only [BitVec.not_or, BitVec.and_assoc]
  rw [← clearMask_word]
  exact congrArg (fun summary => { s with summary := summary }) (hand _ _ _ _ _)

/-- Settles O37: ATTN_L by the mode, and each head write as one change of the attention unit. -/
theorem headWritesSetTheAttentionUnit : Obligations.HeadWritesSetTheAttentionUnit := by
  intro s
  refine ⟨State.attentionAsserted_of_stopped, fun hr hd => ⟨fun hm => ?level, fun hm => ?latched⟩,
    fun h => ⟨fun value => ?clear, fun value => ?enables, fun value hl h7 => ?control⟩⟩
  case level =>
    rw [State.attentionAsserted_of_running hr hd, if_neg (by simp [hm]), bne_iff_ne]
    exact and_ne_zero_iff _ _
  case latched => rw [State.attentionAsserted_of_running hr hd, if_pos hm]
  case clear =>
    have hexec : exec (.attentionSummaryClear value) s = .next ((s.wroteTo 0x14).lower (value &&& clearableBits)) :=
      congrArg Host.Outcome.next ((State.hostWrite_summary h _ _ _ _).trans (State.summary_lower4 _ value))
    exact ⟨_, hexec, rfl, ⟨rfl, rfl, rfl⟩, rfl, ⟨rfl, rfl, h.2.2.2, rfl, rfl⟩,
      ⟨⟨rfl, rfl, rfl⟩, ⟨rfl, rfl, rfl⟩, ⟨rfl, rfl, rfl, rfl, rfl, rfl⟩, fun _ => rfl, fun _ _ => rfl, fun _ _ => rfl⟩,
      ⟨fun _ => rfl, rfl, rfl, rfl, rfl⟩, fun _ _ => rfl, fun _ _ => rfl, fun _ => rfl, ⟨rfl, rfl⟩⟩
  case enables =>
    have hexec : exec (.noticeEnablesWrite value) s = .next { s.wroteTo 0x18 with
        enables := value &&& implementedBits
        latchedLine := s.latchedLine || (s.latchedMode &&
          decide (value &&& implementedBits &&& ~~~s.enables &&& s.summary ≠ 0)) } :=
      congrArg Host.Outcome.next ((State.hostWrite_enables h _ _ _ _).trans (State.writeEnables _ value))
    exact ⟨_, hexec, rfl, rfl, rfl, rfl, rfl, ⟨rfl, rfl, h.2.2.2, rfl, rfl⟩,
      ⟨⟨rfl, rfl, rfl⟩, ⟨rfl, rfl, rfl⟩, ⟨rfl, rfl, rfl, rfl, rfl, rfl⟩, fun _ => rfl, fun _ _ => rfl, fun _ _ => rfl⟩,
      ⟨fun _ => rfl, rfl, rfl, rfl, rfl⟩, fun _ _ => rfl, fun _ _ => rfl, fun _ => rfl, ⟨rfl, rfl⟩⟩
  case control =>
    have hcontrol := (State.hostWrite_control h value (.inl hl)).trans
      (State.writeControl_eq (s.wroteTo 0x19) value (.inl hl))
    rw [if_neg fun htrigger => Bool.false_ne_true (h7.symm.trans htrigger.1)] at hcontrol
    have hexec : exec (.exchangeControlWrite value) s =
        .next ((s.wroteTo 0x19).setControl (value.getLsbD 0) (value.getLsbD 1)) := congrArg Host.Outcome.next hcontrol
    exact ⟨_, hexec, rfl, rfl, rfl, rfl, rfl, ⟨rfl, rfl, h.2.2.2, rfl, rfl⟩,
      ⟨⟨rfl, rfl, rfl⟩, ⟨rfl, rfl, rfl⟩, ⟨rfl, rfl, rfl, rfl, rfl, rfl⟩, fun _ => rfl, fun _ _ => rfl, fun _ _ => rfl⟩,
      ⟨fun _ => rfl, rfl, rfl, rfl, rfl⟩, fun _ _ => rfl, fun _ _ => rfl, fun _ => rfl, ⟨rfl, rfl⟩⟩

/-! ### The exchange reset -/

/-- R142: the exchange control byte of the trigger with two settings. -/
theorem getLsbD_controlByte : ∀ latched hold : Bool,
    (1#1 ++ 0#5 ++ BitVec.ofBool hold ++ BitVec.ofBool latched).getLsbD 0 = latched ∧
    (1#1 ++ 0#5 ++ BitVec.ofBool hold ++ BitVec.ofBool latched).getLsbD 1 = hold ∧
    (1#1 ++ 0#5 ++ BitVec.ofBool hold ++ BitVec.ofBool latched).getLsbD 7 = true := by decide

theorem exec_exchangeReset_eq (h : s.LineFree) (latched hold : Bool) (hl : s.device = .exchangeResetting → s.handOver = []) :
    exec (.exchangeReset latched hold) s = .next (if s.device = .ready then
      ((s.wroteTo 0x19).setControl latched hold).startExchangeReset else (s.wroteTo 0x19).setControl latched hold) := by
  obtain ⟨h0, h1, h7⟩ := getLsbD_controlByte latched hold
  have hcase : s.handOver = [] ∨ ((1#1 ++ 0#5 ++ BitVec.ofBool hold ++ BitVec.ofBool latched).getLsbD 7 = true ∧
      s.device = .ready) := by
    by_cases hd : s.device = .ready
    · exact .inr ⟨h7, hd⟩
    · exact .inl (hl (State.device_of_free h hd))
  have hcontrol := (State.hostWrite_control h _ hcase).trans (State.writeControl_eq (s.wroteTo 0x19) _ hcase)
  rw [h0, h1, h7] at hcontrol
  refine congrArg Host.Outcome.next (hcontrol.trans ?_)
  by_cases hd : s.device = .ready
  · rw [if_pos hd, if_pos ⟨rfl, hd⟩]
  · rw [if_neg hd, if_neg fun htrigger => hd htrigger.2]

theorem Monitor.stopScan_eq (m : Monitor) : m.stopScan = if m = .scanning then .idle else m := by
  cases m <;> rfl

/-- Settles O40: the exchange empties at once, the trigger during a reset only sets the mode, and the completion leaves
the reset values. -/
theorem exchangeResetEmptiesTheExchange : Obligations.ExchangeResetEmptiesTheExchange := by
  intro s
  refine ⟨fun latched hold h hd => ?ready, fun latched hold h hd hl => ?resetting, fun hr hd => ?complete⟩
  case ready =>
    have hexec := exec_exchangeReset_eq h latched hold (by rw [hd]; nofun)
    rw [if_pos hd] at hexec
    refine ⟨_, hexec, rfl, rfl, fun l => ?_, rfl, rfl, rfl, rfl, fun n => ?_, fun p => ?_, rfl, rfl, rfl, rfl, rfl, rfl, rfl,
      ⟨rfl, rfl, h.2.2.2, rfl, rfl⟩, fun x => ?_, fun _ _ => rfl, fun _ => rfl, ⟨rfl, rfl, rfl⟩, ⟨rfl, rfl, rfl⟩,
      fun _ => rfl⟩
    · exact Vector.getElem_replicate l.isLt
    · exact mapVector_getElem Slot.vacate s.slots n n.isLt
    · exact mapVector_getElem Page.vacate s.pages p p.isLt
    · rw [← Monitor.stopScan_eq]
      exact State.lane_startExchangeReset ((s.wroteTo 0x19).setControl latched hold) x
  case resetting =>
    have hexec := exec_exchangeReset_eq h latched hold fun _ => hl
    rw [if_neg (by rw [hd]; nofun)] at hexec
    exact ⟨_, hexec, rfl, rfl, rfl, rfl, ⟨rfl, rfl, h.2.2.2, rfl, rfl⟩,
      ⟨⟨rfl, rfl, rfl⟩, ⟨rfl, rfl, rfl⟩, ⟨rfl, rfl, rfl, rfl, rfl, rfl⟩, fun _ => rfl, fun _ _ => rfl, fun _ _ => rfl⟩,
      ⟨fun _ => rfl, rfl, rfl, rfl, rfl⟩, fun _ _ => rfl, fun _ _ => rfl, fun _ => rfl, ⟨rfl, rfl⟩⟩
  case complete =>
    have hexec : exec .exchangeResetComplete s = .next s.completeExchangeReset := by
      rw [exec_exchangeResetComplete, whenRunning_of_can _ hr (by simp [hd])]
    have hne : ((s.summary &&& s.enables) != 0) = decide (s.summary &&& s.enables ≠ 0) := by
      rw [Bool.eq_iff_iff, bne_iff_ne, decide_eq_true_eq]
    refine ⟨_, hexec, rfl, rfl, fun n => Vector.getElem_replicate n.isLt, fun p => Vector.getElem_replicate p.isLt,
      fun _ => rfl, ?_, rfl, ⟨rfl, rfl, rfl⟩, ⟨rfl, rfl⟩, ⟨fun _ => rfl, rfl, rfl, rfl, rfl⟩, fun _ => rfl,
      fun _ _ => rfl, fun _ _ => rfl, ⟨rfl, rfl, rfl⟩, ⟨rfl, rfl, rfl⟩, ⟨rfl, rfl, rfl, rfl, rfl⟩⟩
    rw [← hne]
    exact rfl

end Sys2Proof.Machine
end

section
/-! Read transactions of the management line (R131), and the read of the attention summary (O38). -/

namespace Sys2Proof.Machine

variable {s t : State} {r : ReadTransaction}

/-! ### The copies of a read transaction -/

/-- R131: every copy of a read transaction shows its block as a state shows it, and a summary byte that was returned
came from a copy of block 0. -/
def ReadTransaction.Shows (r : ReadTransaction) (s : State) : Prop :=
  (∀ c ∈ r.copies, c.2 = s.blockBytes c.1) ∧
  (r.returnedSummary = true → (r.copies.find? (fun c => c.1 = 0)).isSome = true)

theorem State.getD_blockBytes (s : State) (b k : Nat) (hk : k < 64) :
    (s.blockBytes b).getD k 0 = s.readByte (b * 64 + k) := by
  simp [State.blockBytes, List.getD_eq_getElem?_getD, List.getElem?_range hk]

theorem ReadTransaction.Shows.byteAt (h : r.Shows s) {a : Nat}
    (hc : (r.copies.find? (fun c => c.1 = a / 64)).isSome = true) : r.byteAt a = s.readByte a := by
  obtain ⟨c, hc⟩ := Option.isSome_iff_exists.mp hc
  have hblock : c.1 = a / 64 := by simpa using List.find?_some hc
  have hcopy : c.2 = s.blockBytes c.1 := h.1 c (List.mem_of_find?_eq_some hc)
  simp only [ReadTransaction.byteAt, hc]
  rw [hcopy, hblock, s.getD_blockBytes _ _ (Nat.mod_lt a (by omega)), Nat.div_add_mod']

/-- R143: a block that an exchange reset in progress may clear. -/
def State.Clears (s : State) (b : Nat) : Prop := s.device = .exchangeResetting ∧ 0x400 ≤ b * 64 ∧ b * 64 < 0x2000

theorem State.clearProgress_of_not {b : Nat} (h : ¬s.Clears b) : s.clearProgress b = s := if_neg h

/-- R131: the copy of a block, taken from the state as it stands if there is none yet. -/
def ReadTransaction.copy (r : ReadTransaction) (s : State) (b : Nat) : ReadTransaction :=
  if (r.copies.find? (fun c => c.1 = b)).isSome then r else { r with copies := r.copies ++ [(b, s.blockBytes b)] }

theorem State.copyBlock_eq {b : Nat} (h : ¬s.Clears b) (r : ReadTransaction) : s.copyBlock r b = (s, r.copy s b) := by
  unfold State.copyBlock ReadTransaction.copy
  cases hf : r.copies.find? (fun c => c.1 = b) with
  | some c => rfl
  | none => simp only [State.clearProgress_of_not h]; rfl

theorem ReadTransaction.find?_copy (r : ReadTransaction) (s : State) (b k : Nat)
    (h : k = b ∨ (r.copies.find? (fun c => c.1 = k)).isSome = true) :
    ((r.copy s b).copies.find? (fun c => c.1 = k)).isSome = true := by
  unfold ReadTransaction.copy
  split
  · next hb => exact h.elim (fun hk => hk ▸ hb) id
  · rw [List.find?_append]
    rcases h with rfl | h
    · simp
    · simp [h]

theorem ReadTransaction.Shows.copy (h : r.Shows s) (b : Nat) : (r.copy s b).Shows s := by
  refine ⟨fun c hc => ?_, fun hs => r.find?_copy s b 0 (.inr (h.2 ?_))⟩
  · unfold ReadTransaction.copy at hc
    split at hc
    · exact h.1 c hc
    · rcases List.mem_append.mp hc with hc | hc
      · exact h.1 c hc
      · obtain rfl := List.mem_singleton.mp hc
        rfl
  · unfold ReadTransaction.copy at hs
    split at hs <;> exact hs

/-! ### The bytes returned -/

/-- A read transaction in progress on a state: its offset, what it holds and what it has returned. -/
def State.reading (s : State) (o : BitVec 16) (r : ReadTransaction) (ds : List Byte) : State :=
  { s with acknowledged := true, offset := o, readOpen := some r, readData := ds }

/-- A state with another line interface. -/
def State.onLine (s : State) (o : BitVec 16) (w : Option WriteTransaction) (r : Option ReadTransaction) (k : Bool)
    (ds : List Byte) : State :=
  { s with offset := o, writeOpen := w, readOpen := r, acknowledged := k, readData := ds }

/-- The line interface shows in no byte. -/
theorem State.readByte_onLine (o : BitVec 16) (w : Option WriteTransaction) (r : Option ReadTransaction) (k : Bool)
    (ds : List Byte) (a : Nat) : (s.onLine o w r k ds).readByte a = s.readByte a := by
  have hhead (i : Nat) : (s.onLine o w r k ds).headByte i = s.headByte i := by unfold State.headByte; rfl
  have hfault (i : Nat) : (s.onLine o w r k ds).faultByte i = s.faultByte i := by unfold State.faultByte; rfl
  have hleg (l : LegId) (i : Nat) : (s.onLine o w r k ds).legByte l i = s.legByte l i := rfl
  have himage (i : LaneId) : (s.onLine o w r k ds).imageEntry i = s.imageEntry i := rfl
  have hslot (n : SlotId) (i : Nat) : (s.onLine o w r k ds).slotImage n i = s.slotImage n i := by
    unfold State.slotImage; rfl
  have hpage (p : PageId) (i : Nat) : (s.onLine o w r k ds).pageImage p i = s.pageImage p i := by
    unfold State.pageImage; rfl
  simp only [State.readByte, hhead, hfault, hleg, himage, hslot, hpage]

theorem State.readByte_reading (o : BitVec 16) (ds : List Byte) (a : Nat) :
    (s.reading o r ds).readByte a = s.readByte a :=
  s.readByte_onLine o s.writeOpen (some r) true ds a

theorem State.blockBytes_reading (o : BitVec 16) (ds : List Byte) (b : Nat) :
    (s.reading o r ds).blockBytes b = s.blockBytes b := by
  simp only [State.blockBytes, State.readByte_reading]

theorem State.returnByte_eq {u : State} {r' : ReadTransaction} (hopen : u.readOpen = some r)
    (hcopy : u.copyBlock r (u.offset.toNat / 64) = (u, r')) : u.returnByte = { u with
      offset := u.offset + 1
      readData := u.readData ++ [r'.byteAt u.offset.toNat]
      readOpen := some { r' with returnedSummary := r'.returnedSummary || u.offset.toNat == 0x10 } } := by
  simp only [State.returnByte, hopen, hcopy]

theorem offset_beq_ten (o : BitVec 16) : (o.toNat == 0x10) = (o == 0x10) := by
  rw [Bool.eq_iff_iff, beq_iff_eq, beq_iff_eq, ← BitVec.toNat_inj]
  rfl

/-- R131: one byte returned. -/
theorem State.returnByte_reading (h : r.Shows s) {o : BitVec 16} (hc : ¬s.Clears (o.toNat / 64)) (ds : List Byte) :
    ∃ r', (s.reading o r ds).returnByte = s.reading (o + 1) r' (ds ++ [s.readByte o.toNat]) ∧ r'.Shows s ∧
      r'.returnedSummary = (r.returnedSummary || o == 0x10) := by
  let r' : ReadTransaction := { r.copy s (o.toNat / 64) with returnedSummary := r.returnedSummary || o == 0x10 }
  have hcopy : (s.reading o r ds).copyBlock r (o.toNat / 64) = (s.reading o r ds, r.copy s (o.toNat / 64)) :=
    (State.copyBlock_eq (s := s.reading o r ds) hc r).trans (by
      rw [ReadTransaction.copy, ReadTransaction.copy, State.blockBytes_reading])
  have hbyte : (r.copy s (o.toNat / 64)).byteAt o.toNat = s.readByte o.toNat :=
    (h.copy _).byteAt (r.find?_copy s _ _ (.inl rfl))
  have hreturned : (r.copy s (o.toNat / 64)).returnedSummary = r.returnedSummary := by
    unfold ReadTransaction.copy
    split <;> rfl
  refine ⟨r', ?_, ⟨(h.copy _).1, fun hs => ?_⟩, rfl⟩
  · have hreturn := State.returnByte_eq (u := s.reading o r ds) rfl hcopy
    refine hreturn.trans ?_
    show s.reading (o + 1) { r.copy s (o.toNat / 64) with
      returnedSummary := (r.copy s (o.toNat / 64)).returnedSummary || o.toNat == 0x10 }
      (ds ++ [(r.copy s (o.toNat / 64)).byteAt o.toNat]) = _
    rw [hbyte, hreturned, offset_beq_ten]
  · rcases Bool.or_eq_true_iff.mp hs with hs | hs
    · exact r.find?_copy s _ _ (.inr (h.2 hs))
    · have ho : o.toNat / 64 = 0 := by rw [eq_of_beq hs]; rfl
      exact r.find?_copy s _ _ (.inl ho.symm)

/-- The bytes that n offsets from a on show. -/
def State.bytesFrom (s : State) (a n : Nat) : List Byte := (List.range n).map (fun i => s.readByte (a + i))

theorem State.bytesFrom_succ (s : State) (a n : Nat) :
    s.bytesFrom a (n + 1) = s.readByte a :: s.bytesFrom (a + 1) n := by
  rw [State.bytesFrom, List.range_succ_eq_map, List.map_cons, List.map_map]
  refine congrArg (s.readByte a :: ·) (List.map_congr_left fun i _ => congrArg s.readByte ?_)
  omega

/-- R131: the bytes that a read transaction returns from an offset on, with no block of them being cleared. -/
theorem State.takeBytes_reading (n : Nat) (h : r.Shows s) {a : Nat} (ha : a + n ≤ 0x10000)
    (hc : ∀ k, a ≤ k → k < a + n → ¬s.Clears (k / 64)) (ds : List Byte) :
    ∃ r', (s.reading (BitVec.ofNat 16 a) r ds).takeBytes n =
        s.reading (BitVec.ofNat 16 (a + n)) r' (ds ++ s.bytesFrom a n) ∧ r'.Shows s ∧
      (r'.returnedSummary = true ↔ r.returnedSummary = true ∨ a ≤ 0x10 ∧ 0x10 < a + n) := by
  induction n generalizing a r ds with
  | zero =>
    exact ⟨r, by simp [State.takeBytes, State.bytesFrom], h, .inl, fun h => h.elim id fun h => absurd h (by omega)⟩
  | succ n ih =>
    have hto : (BitVec.ofNat 16 a).toNat = a := by rw [BitVec.toNat_ofNat]; omega
    have hnext : BitVec.ofNat 16 a + 1 = BitVec.ofNat 16 (a + 1) := (BitVec.ofNat_add a 1).symm
    obtain ⟨r₁, hbyte, hshows, hreturned⟩ := State.returnByte_reading h (o := BitVec.ofNat 16 a)
      (by rw [hto]; exact hc a (by omega) (by omega)) ds
    rw [hto, hnext] at hbyte
    obtain ⟨r', hbytes, hshows', hreturned'⟩ := ih hshows (a := a + 1) (by omega)
      (fun k hlow hhigh => hc k (by omega) (by omega)) (ds ++ [s.readByte a])
    have hten : (BitVec.ofNat 16 a == 0x10) = decide (a = 0x10) := by
      rw [Bool.eq_iff_iff, beq_iff_eq, decide_eq_true_eq, ← BitVec.toNat_inj, hto]
      rfl
    refine ⟨r', ?_, hshows', hreturned'.trans ?_⟩
    · rw [State.takeBytes, hbyte, hbytes, State.bytesFrom_succ, List.append_assoc, Nat.add_right_comm, Nat.add_assoc]
      rfl
    · rw [hreturned, hten, Bool.or_eq_true, decide_eq_true_eq]
      constructor
      · rintro ((hr | rfl) | hr)
        · exact .inl hr
        · exact .inr ⟨le_refl _, by omega⟩
        · exact .inr (by omega)
      · rintro (hr | hr)
        · exact .inl (.inl hr)
        · by_cases hten' : a = 0x10
          · exact .inl (.inr hten')
          · exact .inr (by omega)

/-! ### A whole read transaction -/

/-- R131, R167: what a read transaction leaves: its bytes, the offset past them, and the latched line by its copies. -/
theorem State.read_whole (h : s.LineFree) (n : Nat) {a : Nat} (ha : a + n ≤ 0x10000) (hlt : a < 0x10000)
    (hc : ∀ k, a ≤ k → k < a + n → ¬s.Clears (k / 64)) :
    ∃ r : ReadTransaction, exec (.attentionSummaryRead (.whole 0x3A (BitVec.ofNat 16 a) n)) s = .next { s with
        offset := BitVec.ofNat 16 (a + n)
        acknowledged := true
        readData := s.bytesFrom a n
        latchedLine := s.latchedLine &&
          !(r.returnedSummary && s.summary &&& s.enables &&& ~~~r.summaryCopy == 0) } ∧
      r.Shows s ∧ (r.returnedSummary = true ↔ a ≤ 0x10 ∧ 0x10 < a + n) := by
  have hto : (BitVec.ofNat 16 a).toNat = a := by rw [BitVec.toNat_ofNat]; omega
  have hshows : (⟨[], false⟩ : ReadTransaction).Shows s := ⟨nofun, nofun⟩
  obtain ⟨r, hbytes, hshows', hreturned⟩ := State.takeBytes_reading n hshows ha hc []
  have hoffset : (s.startWrite 0x3A).sendBytes (offsetBytes a) = { s with
      acknowledged := true
      offset := BitVec.ofNat 16 a
      writeOpen := some ⟨some (BitVec.ofNat 8 (a / 256)), true, []⟩ } := by
    have hsend := State.sendBytes_offset (s := s) a []
    rw [List.append_nil] at hsend
    exact (congrArg (State.sendBytes · (offsetBytes a)) (State.startWrite_of_free h)).trans hsend
  have hstart : ((s.startWrite 0x3A).sendBytes (offsetBytes a)).startRead 0x3A =
      s.reading (BitVec.ofNat 16 a) ⟨[], false⟩ [] := by
    rw [hoffset]
    simp [State.startRead, State.endTransaction, State.endWrite, State.endRead, h.2.2.1, h.2.2.2, State.reading,
      State.listens, h.1, h.2.1, Config.targetAddress]
  have hend : (s.reading (BitVec.ofNat 16 (a + n)) r ([] ++ s.bytesFrom a n)).endTransaction = { s with
      offset := BitVec.ofNat 16 (a + n)
      acknowledged := true
      readData := s.bytesFrom a n
      latchedLine := s.latchedLine && !(r.returnedSummary && s.summary &&& s.enables &&& ~~~r.summaryCopy == 0) } := by
    rw [List.nil_append]
    generalize s.bytesFrom a n = bytes
    simp [State.endTransaction, State.endWrite, State.endRead, h.2.2.1, h.2.2.2, State.reading]
  refine ⟨r, ?_, hshows', hreturned.trans ⟨fun h => h.resolve_left nofun, .inr⟩⟩
  have hexec : exec (.attentionSummaryRead (.whole 0x3A (BitVec.ofNat 16 a) n)) s = .next
      ((((s.startWrite 0x3A).sendBytes (offsetBytes (BitVec.ofNat 16 a).toNat)).startRead 0x3A).takeBytes n).endTransaction :=
    rfl
  rw [hexec, hto, hstart, hbytes, hend]

/-- R131: a read that returns no byte of the summary's first offset leaves the latched line. -/
theorem State.reads_of (h : s.LineFree) {a : Nat} {bytes : List Byte} (hb : s.bytesFrom a bytes.length = bytes)
    (ha : a + bytes.length ≤ 0x10000) (hlt : a < 0x10000) (hten : ¬(a ≤ 0x10 ∧ 0x10 < a + bytes.length))
    (hc : ∀ k, a ≤ k → k < a + bytes.length → ¬s.Clears (k / 64)) : s.Reads a bytes := by
  obtain ⟨r, hexec, -, hreturned⟩ := State.read_whole h bytes.length ha hlt hc
  have hno : r.returnedSummary = false := Bool.eq_false_iff.mpr fun hr => hten (hreturned.mp hr)
  rw [State.Reads, hexec, hb, hno, Bool.false_and, Bool.not_false, Bool.and_true]

/-! ### The read of the attention summary -/

/-- R129: a transaction with an address that is not the part's is not acknowledged. -/
theorem State.startWrite_other {target : BitVec 7} (h : s.endTransaction = s) (ht : target ≠ 0x3A) :
    s.startWrite target = { s with acknowledged := false } := by
  unfold State.startWrite
  rw [h]
  exact if_neg fun hh => ht hh.2

theorem State.startRead_other {target : BitVec 7} (h : s.endTransaction = s) (ht : target ≠ 0x3A) :
    s.startRead target = { s with acknowledged := false } := by
  unfold State.startRead
  rw [h]
  exact if_neg fun hh => ht hh.2

theorem State.sendBytes_of_none (hw : s.writeOpen = none) (bs : List Byte) : s.sendBytes bs = s := by
  have hbyte (v : Byte) : s.receiveByte v = s := by simp only [State.receiveByte, hw]
  induction bs with
  | nil => rfl
  | cons v bs ih => rw [State.sendBytes, List.foldl_cons, hbyte v]; exact ih

theorem State.takeBytes_of_none (hr : s.readOpen = none) (n : Nat) : s.takeBytes n = s := by
  have hbyte : s.returnByte = s := by simp only [State.returnByte, hr]
  induction n with
  | zero => rfl
  | succ n ih => rw [State.takeBytes, hbyte]; exact ih

theorem State.read_other {target : BitVec 7} (hw : s.writeOpen = none) (hr : s.readOpen = none) (ht : target ≠ 0x3A)
    (offset : BitVec 16) (n : Nat) :
    exec (.attentionSummaryRead (.whole target offset n)) s = .next { s with acknowledged := false } := by
  let u : State := { s with acknowledged := false }
  have hu : u.endTransaction = u := State.endTransaction_of_none hw hr
  refine congrArg Host.Outcome.next ?_
  show ((((s.startWrite target).sendBytes _).startRead target).takeBytes n).endTransaction = u
  rw [State.startWrite_other (State.endTransaction_of_none hw hr) ht]
  show (((u.sendBytes _).startRead target).takeBytes n).endTransaction = u
  rw [State.sendBytes_of_none (s := u) hw]
  show ((u.startRead target).takeBytes n).endTransaction = u
  rw [State.startRead_other hu ht]
  show (u.takeBytes n).endTransaction = u
  rw [State.takeBytes_of_none (s := u) hr, hu]

/-- R164: the bytes of the attention summary. -/
theorem State.bytesFrom_summary : s.bytesFrom 0x10 4 = [s.summary.extractLsb' 0 8, s.summary.extractLsb' 8 8,
    s.summary.extractLsb' 16 8, s.summary.extractLsb' 24 8] := rfl

theorem join_summary (w : BitVec 32) :
    w.extractLsb' 24 8 ++ w.extractLsb' 16 8 ++ w.extractLsb' 8 8 ++ w.extractLsb' 0 8 = w := by
  have hlow : w.extractLsb' 8 8 ++ w.extractLsb' 0 8 = w.extractLsb' 0 16 :=
    BitVec.extractLsb'_append_extractLsb'_eq_extractLsb' (by rfl)
  have hhigh : w.extractLsb' 24 8 ++ w.extractLsb' 16 8 = w.extractLsb' 16 16 :=
    BitVec.extractLsb'_append_extractLsb'_eq_extractLsb' (by rfl)
  rw [hhigh, BitVec.append_assoc, hlow]
  have hall : w.extractLsb' 16 16 ++ w.extractLsb' 0 16 = w.extractLsb' 0 32 :=
    BitVec.extractLsb'_append_extractLsb'_eq_extractLsb' (by rfl)
  simpa using hall

/-- R131: the copies of a read transaction that returned a summary byte show the summary. -/
theorem ReadTransaction.Shows.summaryCopy (h : r.Shows s) (hr : r.returnedSummary = true) :
    r.summaryCopy = s.summary := by
  have hbyte (a : Nat) (ha : a / 64 = 0) : r.byteAt a = s.readByte a := h.byteAt (ha ▸ h.2 hr)
  rw [ReadTransaction.summaryCopy, hbyte 0x13 rfl, hbyte 0x12 rfl, hbyte 0x11 rfl, hbyte 0x10 rfl]
  exact join_summary s.summary

/-- Settles O38, by the read transaction's copies, which show the summary that it returns. -/
theorem summaryReadReleasesTheLine : Obligations.SummaryReadReleasesTheLine := by
  intro s hreset hdevice hwrite
  refine ⟨fun r hr => ⟨_, rfl, ?stop⟩, fun hr => ?whole, fun hr target offset count ht => State.read_other hwrite hr ht offset count⟩
  case stop =>
    show s.endTransaction = _
    simp only [State.endTransaction, State.endWrite, hwrite, State.endRead, hr, ReadTransaction.summaryCopy, beq_eq_decide]
  case whole =>
    have hblock (k : Nat) (_ : 0x10 ≤ k) (hk : k < 0x10 + 4) : ¬s.Clears (k / 64) := fun hc => by
      have := hc.2.1
      omega
    obtain ⟨r, hexec, hshows, hreturned⟩ := State.read_whole ⟨hreset, hdevice, hwrite, hr⟩ 4 (a := 0x10) (by omega)
      (by omega) hblock
    have hr' : r.returnedSummary = true := hreturned.mpr (by omega)
    have hfresh : (s.summary &&& s.enables &&& ~~~r.summaryCopy == 0) = true := by
      rw [hshows.summaryCopy hr', beq_iff_eq, BitVec.and_assoc, BitVec.and_comm s.enables, ← BitVec.and_assoc, BitVec.and_not_self]
      exact BitVec.zero_and
    refine ⟨_, hexec, State.bytesFrom_summary, ?_, rfl, rfl, hwrite, hr, rfl, ⟨rfl, rfl, rfl⟩, ?_⟩
    · show (s.latchedLine && !(r.returnedSummary && s.summary &&& s.enables &&& ~~~r.summaryCopy == 0)) = false
      rw [hr', hfresh]
      exact Bool.and_false _
    · exact ⟨⟨⟨rfl, rfl, rfl⟩, ⟨rfl, rfl, rfl⟩, ⟨rfl, rfl, rfl, rfl, rfl, rfl⟩, fun _ => rfl, fun _ _ => rfl, fun _ _ => rfl⟩,
        ⟨fun _ => rfl, rfl, rfl, rfl, rfl⟩, fun _ _ => rfl, fun _ _ => rfl, fun _ => rfl, ⟨rfl, rfl⟩⟩

end Sys2Proof.Machine
end

section
/-! What a read transaction of the management line returns (O42). -/

namespace Sys2Proof.Machine

variable {s : State}

/-! ### The byte at each offset of the exchange memory -/

theorem State.readByte_head {k : Nat} (h : k < 0x40) : s.readByte k = s.headByte k := if_pos h

theorem State.readByte_fault {k : Nat} (h : k < 0x20) : s.readByte (0x40 + k) = s.faultByte k := by
  have hlow : ¬0x40 + k < 0x40 := by omega
  have hhigh : 0x40 + k < 0x60 := by omega
  rw [State.readByte, if_neg hlow, if_pos hhigh, Nat.add_sub_cancel_left]

theorem State.readByte_leg (l : LegId) {k : Nat} (h : k < 0x40) :
    s.readByte (0x100 + l.val * 0x40 + k) = s.legByte l k := by
  have hl := l.isLt
  have hdiv : (0x100 + l.val * 0x40 + k - 0x100) / 0x40 = l.val := by omega
  have hmod : (0x100 + l.val * 0x40 + k - 0x100) % 0x40 = k := by omega
  have hleg : Fin.ofNat 4 l.val = l := Fin.ext (Nat.mod_eq_of_lt hl)
  rw [State.readByte, if_neg (by omega), if_neg (by omega), if_neg (by omega), if_pos (by omega), hdiv, hmod, hleg]

theorem State.readByte_image (i : LaneId) {k : Nat} (h : k < 0x10) :
    s.readByte (0x200 + i.val * 0x10 + k) = (s.imageEntry i).getD k 0 := by
  have hi := i.isLt
  have hdiv : (0x200 + i.val * 0x10 + k - 0x200) / 0x10 = i.val := by omega
  have hmod : (0x200 + i.val * 0x10 + k - 0x200) % 0x10 = k := by omega
  have hlane : Fin.ofNat 8 i.val = i := Fin.ext (Nat.mod_eq_of_lt hi)
  rw [State.readByte, if_neg (by omega), if_neg (by omega), if_neg (by omega), if_neg (by omega), if_pos (by omega),
    hdiv, hmod, hlane]

theorem State.readByte_slot (n : SlotId) {k : Nat} (h : k < 0x100) : s.readByte (slotBase n + k) = s.slotImage n k := by
  have hn := n.isLt
  have hbase : slotBase n = 0x400 + n.val * 0x100 := rfl
  have hdiv : (slotBase n + k - 0x400) / 0x100 = n.val := by omega
  have hmod : (slotBase n + k - 0x400) % 0x100 = k := by omega
  have hslot : Fin.ofNat 12 n.val = n := Fin.ext (Nat.mod_eq_of_lt hn)
  rw [State.readByte, if_neg (by omega), if_neg (by omega), if_neg (by omega), if_neg (by omega), if_neg (by omega),
    if_neg (by omega), if_pos (by omega), hdiv, hmod, hslot]

theorem State.readByte_page (p : PageId) {k : Nat} (h : k < 0x400) : s.readByte (pageBase p + k) = s.pageImage p k := by
  have hp := p.isLt
  have hbase : pageBase p = 0x1000 + p.val * 0x400 := rfl
  have hdiv : (pageBase p + k - 0x1000) / 0x400 = p.val := by omega
  have hmod : (pageBase p + k - 0x1000) % 0x400 = k := by omega
  have hpage : Fin.ofNat 4 p.val = p := Fin.ext (Nat.mod_eq_of_lt hp)
  rw [State.readByte, if_neg (by omega), if_neg (by omega), if_neg (by omega), if_neg (by omega), if_neg (by omega),
    if_neg (by omega), if_neg (by omega), if_pos (by omega), hdiv, hmod, hpage]

/-- R132: an offset that nothing stands at reads 0. -/
theorem State.readByte_beyond {a : Nat} (h : 0x2000 ≤ a) : s.readByte a = 0 := by
  rw [State.readByte, if_neg (by omega), if_neg (by omega), if_neg (by omega), if_neg (by omega), if_neg (by omega),
    if_neg (by omega), if_neg (by omega), if_neg (by omega)]

/-! ### The bytes from an offset on -/

theorem State.bytesFrom_eq {a n : Nat} {bytes : List Byte} (f : Nat → Byte) (hf : ∀ k < n, s.readByte (a + k) = f k)
    (h : (List.range n).map f = bytes) : s.bytesFrom a n = bytes :=
  (List.map_congr_left fun k hk => hf k (List.mem_range.mp hk)).trans h

theorem map_range_getD (xs : List Byte) : (List.range xs.length).map (fun k => xs.getD k 0) = xs := by
  refine List.ext_getElem (by simp) fun k hk _ => ?_
  simp_all

theorem State.bytesFrom_replicate {a n : Nat} (h : ∀ k < n, s.readByte (a + k) = 0) :
    s.bytesFrom a n = List.replicate n 0 := by
  rw [State.bytesFrom, List.map_congr_left (g := fun _ => 0) fun k hk => h k (List.mem_range.mp hk)]
  simp

/-! ### A byte returned in a read transaction in progress -/

theorem State.exec_readByte {r r' : ReadTransaction} (hr : s.readOpen = some r)
    (hcopy : s.copyBlock r (s.offset.toNat / 64) = (s, r')) :
    exec (.attentionSummaryRead (.bytes 1)) s = .next { s with
      offset := s.offset + 1
      readData := s.readData ++ [r'.byteAt s.offset.toNat]
      readOpen := some { r' with returnedSummary := r'.returnedSummary || s.offset == 0x10 } } := by
  refine congrArg Host.Outcome.next ?_
  show s.returnByte = _
  rw [State.returnByte_eq hr hcopy, offset_beq_ten]

/-- R131: a read from an offset returns the byte that the offset shows. -/
theorem State.read_one (hreset : s.resetHeld = false) (hdevice : s.device = .ready) {a : Nat} (ha : a < 0x10000) :
    ∃ u, exec (.attentionSummaryRead (.whole 0x3A (BitVec.ofNat 16 a) 1)) { s with readOpen := none, writeOpen := none } =
      .next u ∧ u.readData = [s.readByte a] := by
  let v := s.onLine s.offset none none s.acknowledged s.readData
  have hfree : v.LineFree := ⟨hreset, by show s.device ≠ .initializing; rw [hdevice]; nofun, rfl, rfl⟩
  have hclears (k : Nat) (_ : a ≤ k) (_ : k < a + 1) : ¬v.Clears (k / 64) := fun hc => by
    have : s.device = .exchangeResetting := hc.1
    rw [hdevice] at this
    exact absurd this nofun
  obtain ⟨r, hexec, -⟩ := State.read_whole hfree 1 (a := a) ha ha hclears
  refine ⟨_, hexec, ?_⟩
  show v.bytesFrom a 1 = _
  exact congrArg (fun b => [b]) (s.readByte_onLine s.offset none none s.acknowledged s.readData a)

/-! ### O42 -/

/-- R131, R143: at READY a read transaction returns what its offsets show. -/
theorem State.reads_at_ready (h : s.LineFree) (hd : s.device = .ready) {a : Nat} {bytes : List Byte} (n : Nat)
    (hn : bytes.length = n) (hb : s.bytesFrom a n = bytes) (ha : a + n ≤ 0x10000) (hlt : a < 0x10000)
    (hten : ¬(a ≤ 0x10 ∧ 0x10 < a + n)) : s.Reads a bytes := by
  subst hn
  refine State.reads_of h hb ha hlt hten fun _ _ _ hc => ?_
  have := hc.1
  rw [hd] at this
  exact absurd this nofun

theorem State.slotImage_eq (n : SlotId) {k : Nat} (h : 0x10 ≤ k) :
    s.slotImage n k = if k < 0x20 ∨ 0x80 ≤ k then s.slotByte n k else 0 := by
  have hstored : (isStoredSlotOffset k || decide (0x80 ≤ k)) = decide (k < 0x20 ∨ 0x80 ≤ k) := by
    rw [Bool.eq_iff_iff]
    simp only [isStoredSlotOffset, Bool.or_eq_true, Bool.and_eq_true, decide_eq_true_eq]
    omega
  have himage : s.slotImage n k = if isStoredSlotOffset k || decide (0x80 ≤ k) then s.slotByte n k else 0 := by
    unfold State.slotImage
    split
    · exact absurd h (by omega)
    · exact absurd h (by omega)
    · exact absurd h (by omega)
    · exact rfl
  rw [himage, hstored]
  simp only [decide_eq_true_eq]

theorem State.pageImage_cell (p : PageId) (k : Nat) :
    s.pageImage p (0x200 + k) = s.mem.read (pageBase p + 0x200 + k) := by
  have himage : s.pageImage p (0x200 + k) =
      if 0x200 ≤ 0x200 + k then s.mem.read (pageBase p + (0x200 + k)) else 0 := by
    unfold State.pageImage
    split <;> first | omega | exact rfl
  rw [himage, if_pos (by omega), Nat.add_assoc]

theorem State.pageImage_header (s : State) (p : PageId) : (List.range 8).map (s.pageImage p) =
    [(s.page p).state.code, BitVec.ofNat 8 (s.page p).leg.val, sideCode (s.page p).side,
     BitVec.ofNat 8 (s.page p).lane.val, BitVec.ofNat 8 (s.page p).dwell, (s.page p).outcome.code,
     BitVec.ofNat 8 (s.page p).cellsDone, BitVec.ofNat 8 ((s.page p).cellsDone / 256)] := rfl

/-- Settles O42, by the byte that each offset shows and the copies of a read transaction. -/
theorem readsShowTheState : Obligations.ReadsShowTheState := by
  intro s hreset hdevice
  refine ⟨fun hfree => ⟨?head, ?noFault, ?fault, ?unused, ?used, ?image, ?slot, ?page, ?beyond⟩, fun r hr => ⟨?copied, ?fresh⟩⟩
  case head =>
    refine State.reads_at_ready hfree hdevice 12 rfl (State.bytesFrom_eq s.headByte (fun k hk => ?_) ?_) (by decide)
      (by decide) (by decide)
    · rw [Nat.zero_add]
      exact State.readByte_head (hk.trans (by decide))
    · have hcode : s.headByte 8 = 1 := congrArg DeviceState.code hdevice
      show [_, _, _, _, _, _, _, _, s.headByte 8, _, _, _] = _
      rw [hcode]
      exact rfl
  case noFault =>
    intro hnone
    refine State.reads_at_ready hfree hdevice 32 List.length_replicate (State.bytesFrom_replicate fun k hk => ?_)
      (by decide) (by decide) (by decide)
    rw [State.readByte_fault hk]
    simp only [State.faultByte, hnone]
  case fault =>
    intro r hsome
    refine State.reads_at_ready hfree hdevice 10 rfl (State.bytesFrom_eq s.faultByte (fun k hk => ?_) ?_) (by decide)
      (by decide) (by decide)
    · exact State.readByte_fault (hk.trans (by decide))
    · simp [List.range_succ, State.faultByte, hsome]
  case unused =>
    intro l hl
    have hlt := l.isLt
    refine State.reads_at_ready hfree hdevice 64 List.length_replicate (State.bytesFrom_replicate fun k hk => ?_)
      (by omega) (by omega) (by omega)
    rw [State.readByte_leg l hk, State.legByte, hl]
    exact rfl
  case used =>
    rintro l g hl rfl
    have hlt := l.isLt
    refine State.reads_at_ready hfree hdevice 38 rfl (State.bytesFrom_eq
      (fun k => ((s.leg l).record (s.width l)).getD k 0) (fun k hk => ?_) ?_) (by omega) (by omega) (by omega)
    · rw [State.readByte_leg l (hk.trans (by decide)), State.legByte, hl]
      exact rfl
    · exact map_range_getD ((s.leg l).record (s.width l))
  case image =>
    rintro i m rfl
    have hlt := i.isLt
    exact State.reads_at_ready hfree hdevice 16 rfl (State.bytesFrom_eq (fun k => (s.imageEntry i).getD k 0)
      (fun k hk => State.readByte_image i hk) rfl) (by omega) (by omega) (by omega)
  case slot =>
    intro n
    have hlt := n.isLt
    have hbase : slotBase n = 0x400 + n.val * 0x100 := rfl
    refine ⟨State.reads_at_ready hfree hdevice 16 rfl (State.bytesFrom_eq (s.slotImage n)
      (fun k hk => State.readByte_slot n (hk.trans (by decide))) rfl) (by omega) (by omega) (by omega),
      fun k hlow hhigh => State.reads_at_ready hfree hdevice 1 rfl ?_ (by omega) (by omega) (by omega)⟩
    show [s.readByte (slotBase n + k + 0)] = _
    rw [Nat.add_zero, State.readByte_slot n hhigh, State.slotImage_eq n hlow]
  case page =>
    rintro p c rfl
    have hlt := p.isLt
    have hbase : pageBase p = 0x1000 + p.val * 0x400 := rfl
    refine ⟨State.reads_at_ready hfree hdevice 8 rfl (State.bytesFrom_eq (s.pageImage p)
      (fun k hk => State.readByte_page p (hk.trans (by decide))) ?_) (by omega) (by omega) (by omega),
      fun k hk => State.reads_at_ready hfree hdevice 1 rfl ?_ (by omega) (by omega) (by omega)⟩
    · refine (s.pageImage_header p).trans ?_
      rcases s.page p with ⟨state, leg, side, lane, dwell, done, outcome⟩
      cases state <;> cases side <;> exact rfl
    · show [s.readByte (pageBase p + 0x200 + k + 0)] = _
      rw [Nat.add_zero, Nat.add_assoc, State.readByte_page p (by omega), State.pageImage_cell, Nat.add_assoc]
  case beyond =>
    intro a hlow hhigh
    refine State.reads_at_ready hfree hdevice 1 rfl ?_ (by omega) hhigh (by omega)
    show [s.readByte (a + 0)] = _
    rw [Nat.add_zero, State.readByte_beyond hlow]
  case copied =>
    intro c hc
    have hcopy : s.copyBlock r (s.offset.toNat / 64) = (s, r) := by simp only [State.copyBlock, hc]
    rw [State.exec_readByte hr hcopy, ReadTransaction.byteAt, hc]
  case fresh =>
    intro hnone
    have hoffset : s.offset.toNat < 0x10000 := s.offset.isLt
    have hclears : ¬s.Clears (s.offset.toNat / 64) := fun hc => by
      have := hc.1
      rw [hdevice] at this
      exact absurd this nofun
    have hcopy : r.copy s (s.offset.toNat / 64) = { r with
        copies := r.copies ++ [(s.offset.toNat / 64, s.blockBytes (s.offset.toNat / 64))] } := by
      rw [ReadTransaction.copy, hnone]
      exact rfl
    refine ⟨s.blockBytes (s.offset.toNat / 64), by simp [State.blockBytes], fun k hk => ?_, ?_⟩
    · rw [State.getD_blockBytes _ _ _ hk]
      exact State.read_one hreset hdevice (by omega)
    · rw [State.exec_readByte hr ((State.copyBlock_eq hclears r).trans (by rw [hcopy])), ReadTransaction.byteAt]
      simp only [List.find?_append, hnone, List.find?_cons, decide_true, Option.none_or]

end Sys2Proof.Machine
end

section
/-! Write transactions of the management line (O41). -/

namespace Sys2Proof.Machine

variable {s : State}

/-- R132: a byte for an argument of a slot that is not EMPTY is ignored. -/
theorem State.receiveByte_slot_taken (t : WriteTransaction) (n : SlotId) (k : Nat) (v : Byte)
    (hw : s.writeOpen = some t) (ht : t.offsetSet = true) (ho : s.offset = BitVec.ofNat 16 (slotBase n + k))
    (hk : 0x10 ≤ k ∧ k < 0x100) (hs : (s.slot n).state ≠ .empty) :
    s.receiveByte v = { s with offset := BitVec.ofNat 16 (slotBase n + (k + 1)) } := by
  obtain ⟨hdiv, hmod, hlow, hhigh, haction⟩ := slotOffset n k (by omega)
  have ha : s.offset.toNat = slotBase n + k := by rw [ho, BitVec.toNat_ofNat]; omega
  have hnext : s.offset + 1 = BitVec.ofNat 16 (slotBase n + (k + 1)) := by rw [ho]; exact (BitVec.ofNat_add _ 1).symm
  have hslot : Fin.ofNat 12 n.val = n := Fin.ext (Nat.mod_eq_of_lt n.isLt)
  have hstore (u : State) (hu : (u.slot n).state ≠ .empty) : u.storeByte (slotBase n + k) v = u := by
    rw [State.storeByte, if_neg (by omega), if_pos ⟨hlow, hhigh⟩, hdiv, hslot]
    exact if_neg fun h => hu h.2.2
  have hdata : s.receiveByte v = s.receiveData t v := by
    rw [State.receiveByte, hw]
    exact if_pos ht
  rw [hdata, State.receiveData_stored t v (by rw [ha, haction]; exact decide_eq_false (by omega)), ha, hnext]
  exact hstore _ hs

/-- Bytes for arguments of a slot that is not EMPTY, at successive offsets, are ignored. -/
theorem State.sendBytes_taken (t : WriteTransaction) (n : SlotId) (ht : t.offsetSet = true) (bs : List Byte) :
    ∀ (k : Nat) (s : State), s.writeOpen = some t → s.offset = BitVec.ofNat 16 (slotBase n + k) →
      0x10 ≤ k ∧ k + bs.length ≤ 0x100 → (s.slot n).state ≠ .empty →
      s.sendBytes bs = { s with offset := BitVec.ofNat 16 (slotBase n + (k + bs.length)) } := by
  induction bs with
  | nil => intro k s _ ho _ _; simp [State.sendBytes, ← ho]
  | cons v bs ih =>
    intro k s hw ho hk hs
    rw [List.length_cons] at hk
    have hrest := ih (k + 1) { s with offset := BitVec.ofNat 16 (slotBase n + (k + 1)) } hw rfl (by omega) hs
    rw [State.sendBytes] at hrest
    rw [State.sendBytes, List.foldl_cons, State.receiveByte_slot_taken t n k v hw ht ho (by omega) hs, hrest,
      List.length_cons, Nat.add_assoc, Nat.add_comm 1]

/-- R130: a write transaction of two offset bytes and data. -/
theorem State.exec_registerWrite (h : s.LineFree) {a : Nat} (data : List Byte) {u : State}
    (hu : State.sendBytes { s with
        acknowledged := true, offset := BitVec.ofNat 16 a
        writeOpen := some ⟨some (BitVec.ofNat 8 (a / 256)), true, []⟩ } data =
      { u with writeOpen := some ⟨some (BitVec.ofNat 8 (a / 256)), true, []⟩ })
    (hw : u.writeOpen = none) (hr : u.readOpen = none) :
    exec (.registerWrite (.whole 0x3A ([BitVec.ofNat 8 (a / 256), BitVec.ofNat 8 a] ++ data))) s = .next u := by
  have hend : State.endWrite { u with writeOpen := some ⟨some (BitVec.ofNat 8 (a / 256)), true, []⟩ } = u :=
    congrArg (fun w => { u with writeOpen := w }) hw.symm
  refine congrArg Host.Outcome.next ((State.hostWrite_eq h a data).trans ?_)
  rw [hu, State.endTransaction, hend, State.endRead, hr]

theorem State.exec_registerWrite_other (hw : s.writeOpen = none) (hr : s.readOpen = none) {target : BitVec 7}
    (ht : target ≠ 0x3A) (data : List Byte) :
    exec (.registerWrite (.whole target data)) s = .next { s with acknowledged := false } := by
  let u : State := { s with acknowledged := false }
  refine congrArg Host.Outcome.next ?_
  show ((s.startWrite target).sendBytes data).endTransaction = u
  rw [State.startWrite_other (State.endTransaction_of_none hw hr) ht]
  show (u.sendBytes data).endTransaction = u
  rw [State.sendBytes_of_none (s := u) hw]
  exact State.endTransaction_of_none (s := u) hw hr

/-- R135, R176: what bytes at successive offsets of a slot's arguments, or of the bytes that follow them, leave. -/
theorem State.sendBytes_slot (t : WriteTransaction) (n : SlotId) (ht : t.offsetSet = true) (hw : s.writeOpen = some t)
    {k : Nat} (ho : s.offset = BitVec.ofNat 16 (slotBase n + k)) {data : List Byte}
    (hk : (0x10 ≤ k ∧ k + data.length ≤ 0x20) ∨ (0x20 ≤ k ∧ k + data.length ≤ 0x80))
    (hd : s.device ≠ .exchangeResetting) (hwf : s.mem.wf = true) :
    ∃ m : Memory, s.sendBytes data = { s with
        offset := BitVec.ofNat 16 (slotBase n + k + data.length)
        mem := m } ∧
      ∀ a, m.read a = if k < 0x20 ∧ (s.slot n).state = .empty ∧ slotBase n + k ≤ a ∧ a < slotBase n + k + data.length
        then data.getD (a - (slotBase n + k)) 0 else s.mem.read a := by
  rw [Nat.add_assoc]
  by_cases hargs : k < 0x20
  · by_cases hempty : (s.slot n).state = .empty
    · refine ⟨_, State.sendBytes_stored t n ht data k s hw ho (by omega) hd hempty, fun a => ?_⟩
      rw [Memory.read_writeBytes data _ _ _ hwf]
      simp only [hargs, hempty, true_and, Nat.add_assoc]
    · refine ⟨s.mem, State.sendBytes_taken t n ht data k s hw ho (by omega) hempty, fun a => ?_⟩
      rw [if_neg fun h => hempty h.2.1]
  · refine ⟨s.mem, State.sendBytes_ignored t n ht data k s hw ho (by omega), fun a => ?_⟩
    rw [if_neg fun h => hargs h.1]

/-- Settles O41, by the bytes of a write transaction one after the other. -/
theorem registerWriteStoresInAnEmptySlot : Obligations.RegisterWriteStoresInAnEmptySlot := by
  intro s hfree hdevice
  obtain ⟨-, -, hwrite, hread⟩ := id hfree
  have hresetting : s.device ≠ .exchangeResetting := by rw [hdevice]; nofun
  refine ⟨fun high low => ?offset, fun target data ht => State.exec_registerWrite_other hwrite hread ht data,
    fun n k data hk hwf => ?bytes⟩
  case offset =>
    refine congrArg Host.Outcome.next ?_
    show ((s.startWrite Config.targetAddress).sendBytes [high, low]).endTransaction = _
    rw [State.startWrite_of_free hfree]
    simp [State.sendBytes, State.receiveByte, State.endTransaction, State.endWrite, State.endRead, hread, hwrite]
  case bytes =>
    let t : WriteTransaction := ⟨some (BitVec.ofNat 8 ((slotBase n + k) / 256)), true, []⟩
    obtain ⟨m, hsend, hm⟩ := State.sendBytes_slot (s := { s with
      acknowledged := true, offset := BitVec.ofNat 16 (slotBase n + k), writeOpen := some t }) t n rfl rfl rfl hk
      hresetting hwf
    refine ⟨_, State.exec_registerWrite hfree data (u := { s with
      acknowledged := true, offset := BitVec.ofNat 16 (slotBase n + k + data.length), mem := m }) ?_ hwrite hread,
      ⟨rfl, hwrite, hread, rfl, rfl⟩, hm, ?_⟩
    · rw [hsend]
    · generalize BitVec.ofNat 16 (slotBase n + k + data.length) = o
      exact ⟨⟨⟨rfl, rfl, rfl⟩, ⟨rfl, rfl, rfl⟩, ⟨rfl, rfl, rfl, rfl, rfl, rfl⟩, fun _ => rfl, fun _ _ => rfl, fun _ _ => rfl⟩,
        ⟨fun _ => rfl, rfl, rfl, rfl, rfl⟩, fun _ _ => rfl, fun _ _ => rfl, ⟨rfl, rfl, rfl, rfl, rfl⟩, ⟨rfl, rfl⟩⟩

end Sys2Proof.Machine
end

section
/-! The host's cancel of a task (O36). -/

namespace Sys2Proof.Machine

variable {s t : State} {n : SlotId} {l : LegId}

/-! ### A cancel that acts on a TAKEN slot (R156) -/

/-- R156: the cancel-asked flag is set. -/
def State.ask (s : State) (n : SlotId) : State := s.modSlot n (fun c => { c with cancelAsked := true })

/-- R156: the task of a slot has left its place, by these engines and this power wait list, and is CANCELLED. -/
def State.cancelled (s : State) (n : SlotId) (engines : Vector LegEngine 4) (wait : List SlotId) : State :=
  State.endAwaited { s.ask n with engines := engines, powerWait := wait } n [] .cancelled

theorem State.slot_ask (s : State) (n m : SlotId) :
    (s.ask n).slot m = if m = n then { s.slot n with cancelAsked := true } else s.slot m :=
  State.slot_modSlot s n m _

theorem State.slot_cancelled (s : State) (n : SlotId) (engines : Vector LegEngine 4) (wait : List SlotId) (m : SlotId) :
    (s.cancelled n engines wait).slot m = if m = n then ⟨.done, .cancelled, true⟩ else s.slot m := by
  have hask (k : SlotId) : State.slot { s.ask n with engines := engines, powerWait := wait } k =
      if k = n then { s.slot n with cancelAsked := true } else s.slot k := s.slot_ask n k
  rw [State.cancelled, State.slot_endAwaited, hask, hask, if_pos rfl]
  by_cases hm : m = n <;> simp [hm]

theorem State.cancelled_update (s : State) (n : SlotId) (engines : Vector LegEngine 4) (wait : List SlotId) :
    ∃ slots line, s.cancelled n engines wait = { s with
      slots := slots
      engines := engines
      powerWait := wait
      summary := s.summary ||| slotBit n
      latchedLine := line } := ⟨_, _, rfl⟩

theorem State.cancelled_fields (s : State) (n : SlotId) (engines : Vector LegEngine 4) (wait : List SlotId) :
    (s.cancelled n engines wait).summary = s.summary ||| slotBit n ∧ (s.cancelled n engines wait).engines = engines ∧
    (s.cancelled n engines wait).powerWait = wait ∧ s.SameFaults (s.cancelled n engines wait) := by
  obtain ⟨_, _, h⟩ := s.cancelled_update n engines wait
  rw [h]
  exact ⟨rfl, rfl, rfl, ⟨rfl, rfl⟩⟩

/-- The engines after one leg's task was cancelled. -/
theorem State.engine_cancelled (s : State) (n : SlotId) (l m : LegId) (g : LegEngine) (wait : List SlotId) :
    (s.cancelled n (s.engines.set l g) wait).engine m = if m = l then g else s.engine m := by
  obtain ⟨-, hengines, -, -⟩ := s.cancelled_fields n (s.engines.set l g) wait
  rw [State.engine, hengines]
  exact s.engine_modEngine l m (fun _ => g)

/-- A leg engine holds the awaited task of a slot: in its queue, or in flight. -/
def State.Holds (s : State) (n : SlotId) (l : LegId) : Prop :=
  (∃ e ∈ (s.engine l).queue, e.awaited = true ∧ e.slot = n) ∨ (s.engine l).inFlight = some n

theorem awaitedPlace_isSome (n : SlotId) (q : List Entry) :
    (awaitedPlace n q).isSome = true ↔ ∃ e ∈ q, e.awaited = true ∧ e.slot = n := by
  simp [awaitedPlace]

theorem holds_iff (s : State) (n : SlotId) (l : LegId) : s.Holds n l ↔
    ((awaitedPlace n (s.engine l).queue).isSome || (s.engine l).inFlight = some n) = true := by
  rw [State.Holds, ← awaitedPlace_isSome, Bool.or_eq_true, decide_eq_true_eq]

theorem holds_of_holdingLeg (h : s.holdingLeg n = some l) : s.Holds n l := by
  rw [State.holdingLeg] at h
  exact (holds_iff s n l).mpr (by simpa using List.find?_some h)

theorem holdingLeg_eq_none (h : ∀ l, ¬s.Holds n l) : s.holdingLeg n = none :=
  List.find?_eq_none.mpr fun l _ hl => h l ((holds_iff s n l).mpr hl)

theorem holdingLeg_eq_some (h : s.Holds n l) (hothers : ∀ m, m ≠ l → ¬s.Holds n m) : s.holdingLeg n = some l := by
  cases hfind : s.holdingLeg n with
  | none => exact absurd ((holds_iff s n l).mp h) (List.find?_eq_none.mp hfind l (mem_allLegs l))
  | some m =>
    exact congrArg some (by_contra fun hne => hothers m hne (holds_of_holdingLeg hfind))

/-- R156: the cancel of a running scan only asks. -/
theorem State.takeCancel_asks (h : s.holdingLeg n = none) (hw : n ∉ s.powerWait) : s.takeCancel n = s.ask n := by
  have hleg : (s.ask n).holdingLeg n = none := h
  simp only [State.takeCancel]
  rw [show (s.modSlot n fun c => { c with cancelAsked := true }) = s.ask n from rfl, hleg]
  exact if_neg hw

/-- R156: the cancel of a task of the power wait list. -/
theorem State.takeCancel_waiting (h : s.holdingLeg n = none) (hw : n ∈ s.powerWait) :
    s.takeCancel n = s.cancelled n s.engines (s.powerWait.filter (fun m => m ≠ n)) := by
  have hleg : (s.ask n).holdingLeg n = none := h
  simp only [State.takeCancel]
  rw [show (s.modSlot n fun c => { c with cancelAsked := true }) = s.ask n from rfl, hleg]
  exact if_pos hw

theorem State.takeCancel_of_leg (h : s.holdingLeg n = some l) : s.takeCancel n = (s.ask n).cancelInLeg n l := by
  have hleg : (s.ask n).holdingLeg n = some l := h
  simp only [State.takeCancel]
  rw [show (s.modSlot n fun c => { c with cancelAsked := true }) = s.ask n from rfl, hleg]

/-- R156: the engine of a leg whose task of a slot was cancelled, its queue of at most one entry. -/
def LegEngine.dropped (g : LegEngine) (n : SlotId) : LegEngine :=
  if (awaitedPlace n g.queue).isSome then { g with queue := [] } else { g with inFlight := none }

theorem State.cancelInLeg_of_short (hq : (s.engine l).queue.length ≤ 1) (h : s.Holds n l) :
    s.cancelInLeg n l = (s.modEngine l (fun g => g.dropped n)).endAwaited n [] .cancelled := by
  unfold State.cancelInLeg
  cases hplace : awaitedPlace n (s.engine l).queue with
  | some k =>
    have hk : k < (s.engine l).queue.length := (List.findIdx?_eq_some_iff_getElem.mp hplace).1
    have hdrop : dropAt (s.engine l).queue k = [] := by
      have hzero : k = 0 := by omega
      subst hzero
      simpa [dropAt] using List.drop_of_length_le hq
    have hengine : s.setQueue l [] = s.modEngine l (fun g => g.dropped n) := by
      have hg : (s.engine l).dropped n = { s.engine l with queue := [] } := if_pos (by rw [hplace]; rfl)
      exact congrArg (fun g => { s with engines := s.engines.set l g }) hg.symm
    simp only [hdrop]
    rw [State.examineLeg_nil, hengine]
    rw [State.engine_endAwaited, State.engine_setQueue, if_pos rfl]
  | none =>
    have hflight : (s.engine l).inFlight = some n := by
      refine h.resolve_left fun hqueue => ?_
      have := (awaitedPlace_isSome n _).mpr hqueue
      rw [hplace] at this
      exact absurd this nofun
    have hengine : s.modEngine l (fun g => { g with inFlight := none }) = s.modEngine l (fun g => g.dropped n) := by
      have hg : (s.engine l).dropped n = { s.engine l with inFlight := none } := if_neg (by rw [hplace]; nofun)
      exact congrArg (fun g => { s with engines := s.engines.set l g }) hg.symm
    simp only [hflight, if_true]
    rw [hengine]

/-- R156: the cancel of a task of a leg queue of at most one entry, or of a task in flight. -/
theorem State.takeCancel_leg (hq : ∀ l, (s.engine l).queue.length ≤ 1) (h : s.holdingLeg n = some l) :
    s.takeCancel n = s.cancelled n (s.engines.set l ((s.engine l).dropped n)) s.powerWait := by
  have hholds : (s.ask n).Holds n l := holds_of_holdingLeg h
  rw [State.takeCancel_of_leg h, State.cancelInLeg_of_short (s := s.ask n) (hq l) hholds]
  exact rfl

theorem State.takeCancel_leg_leaves {g : LegEngine} (hg : (s.engine l).dropped n = g) {t : State}
    (ht : t = s.cancelled n (s.engines.set l ((s.engine l).dropped n)) s.powerWait) :
    t.slot n = ⟨.done, .cancelled, true⟩ ∧ t.summary = s.summary ||| slotBit n ∧ t.engine l = g ∧
    (∀ m, m ≠ l → t.engine m = s.engine m) ∧ t.powerWait = s.powerWait ∧ s.SameFaults t := by
  subst ht hg
  obtain ⟨hsummary, -, hwait, hfaults⟩ := s.cancelled_fields n (s.engines.set l ((s.engine l).dropped n)) s.powerWait
  have hengine (m : LegId) := s.engine_cancelled n l m ((s.engine l).dropped n) s.powerWait
  exact ⟨(s.slot_cancelled n _ _ n).trans (if_pos rfl), hsummary, (hengine l).trans (if_pos rfl),
    fun m hm => (hengine m).trans (if_neg hm), hwait, hfaults⟩

/-- R156: a cancel of a TAKEN slot asks the scan, or ends the task. -/
theorem State.takeCancel_cases (hq : ∀ l, (s.engine l).queue.length ≤ 1) :
    s.takeCancel n = s.ask n ∨ ∃ engines wait, s.takeCancel n = s.cancelled n engines wait := by
  cases hleg : s.holdingLeg n with
  | some l => exact .inr ⟨_, _, State.takeCancel_leg hq hleg⟩
  | none =>
    by_cases hw : n ∈ s.powerWait
    · exact .inr ⟨_, _, State.takeCancel_waiting hleg hw⟩
    · exact .inl (State.takeCancel_asks hleg hw)

/-! ### What a host write of CANCEL leaves -/

/-- What every cancel leaves: all but the slot, the engines, the power wait list, the attention unit and the fault
log. -/
structure State.CancelKeeps (s t : State) (n : SlotId) : Prop where
  power : s.SamePower t
  map : s.SameMap t
  lanes : s.SameLanesBut [] t
  legs : s.SameLegsBut [] t
  pages : s.SamePagesBut [] t
  bytes : s.SameBytes t
  slots : s.SameSlotsBut [n] t
  queue : t.deviceQueue = s.deviceQueue
  handOver : t.handOver = s.handOver
  owed : t.owed = s.owed

theorem cancelKeeps_refl (s : State) (n : SlotId) : s.CancelKeeps s n :=
  ⟨⟨rfl, rfl, rfl⟩, fun _ => rfl, fun _ _ => rfl, fun _ _ => rfl, fun _ _ => rfl, fun _ => rfl, fun _ _ => rfl, rfl, rfl,
    rfl⟩

theorem cancelKeeps_ask (s : State) (n : SlotId) : s.CancelKeeps (s.ask n) n :=
  ⟨⟨rfl, rfl, rfl⟩, fun _ => rfl, fun _ _ => rfl, fun _ _ => rfl, fun _ _ => rfl, fun _ => rfl,
    fun m hm => (s.slot_ask n m).trans (if_neg (by simpa using hm)), rfl, rfl, rfl⟩

theorem cancelKeeps_cancelled (s : State) (n : SlotId) (engines : Vector LegEngine 4) (wait : List SlotId) :
    s.CancelKeeps (s.cancelled n engines wait) n := by
  have hslots : s.SameSlotsBut [n] (s.cancelled n engines wait) := fun m hm =>
    (s.slot_cancelled n engines wait m).trans (if_neg (by simpa using hm))
  obtain ⟨_, _, h⟩ := s.cancelled_update n engines wait
  rw [h] at hslots ⊢
  exact ⟨⟨rfl, rfl, rfl⟩, fun _ => rfl, fun _ _ => rfl, fun _ _ => rfl, fun _ _ => rfl, fun _ => rfl, hslots, rfl, rfl,
    rfl⟩

theorem cancelKeeps_reportFault (s : State) (r : FaultRecord) (n : SlotId) : s.CancelKeeps (s.reportFault r) n := by
  obtain ⟨hpower, hmap, hlanes, hlegs, hpages, hslots, ⟨-, hqueue, -, hlist, howed⟩, hbytes⟩ := s.reportFault_keeps r
  exact ⟨hpower, hmap, hlanes, hlegs, hpages, hbytes, fun m _ => hslots m List.not_mem_nil, hqueue, hlist, howed⟩

section
variable (hd : s.device ≠ .exchangeResetting)
include hd

theorem State.writeHandOver_cancels (hs : (s.slot n).state = .taken) (ha : (s.slot n).cancelAsked = false) :
    s.writeHandOver n 0x0C = (s.takeCancel n).intake := by
  have hcode : (0x0C : Byte).toNat = 0x0C := rfl
  rw [State.writeHandOver, if_neg hd, hcode, hs]
  simp only [ha]
  exact rfl

/-- R156: a second cancel, and a cancel of a DONE slot, are ignored. -/
theorem State.writeHandOver_cancel_ignored
    (hs : (s.slot n).state = .done ∨ ((s.slot n).state = .taken ∧ (s.slot n).cancelAsked = true)) :
    s.writeHandOver n 0x0C = s := by
  have hcode : (0x0C : Byte).toNat = 0x0C := rfl
  rw [State.writeHandOver, if_neg hd, hcode]
  rcases hs with hs | ⟨hs, ha⟩
  · rw [hs]
    exact rfl
  · rw [hs]
    exact if_pos ha

theorem State.writeHandOver_cancel_misuse (hs : (s.slot n).state = .empty ∨ (s.slot n).state = .filled) :
    s.writeHandOver n 0x0C = s.slotMisuse n 0x0C := by
  have hcode : (0x0C : Byte).toNat = 0x0C := rfl
  rw [State.writeHandOver, if_neg hd, hcode]
  rcases hs with hs | hs <;> rw [hs] <;> exact rfl

end

/-- R156: what a host write of CANCEL leaves, whatever it finds. -/
theorem cancelKeeps_writeHandOver (hd : s.device ≠ .exchangeResetting) (hl : s.handOver = [])
    (hq : ∀ l, (s.engine l).queue.length ≤ 1) (n : SlotId) : s.CancelKeeps (s.writeHandOver n 0x0C) n := by
  cases hs : (s.slot n).state with
  | empty => rw [State.writeHandOver_cancel_misuse hd (.inl hs)]; exact cancelKeeps_reportFault s _ n
  | filled => rw [State.writeHandOver_cancel_misuse hd (.inr hs)]; exact cancelKeeps_reportFault s _ n
  | done => rw [State.writeHandOver_cancel_ignored hd (.inl hs)]; exact cancelKeeps_refl s n
  | taken =>
    cases ha : (s.slot n).cancelAsked with
    | true => rw [State.writeHandOver_cancel_ignored hd (.inr ⟨hs, ha⟩)]; exact cancelKeeps_refl s n
    | false =>
      have hkeeps : s.CancelKeeps (s.takeCancel n) n := by
        rcases State.takeCancel_cases hq (n := n) with h | ⟨engines, wait, h⟩
        · rw [h]; exact cancelKeeps_ask s n
        · rw [h]; exact cancelKeeps_cancelled s n engines wait
      rw [State.writeHandOver_cancels hd hs ha, State.intake_nil (hkeeps.handOver.trans hl)]
      exact hkeeps

/-- Settles O36, by the place of the task. -/
theorem cancelEndsTheTask : Obligations.CancelEndsTheTask := by
  intro n s h hd hlist hq
  have hexec : exec (.slotCancel n) s =
      .next ((s.wroteTo (BitVec.ofNat 16 (slotBase n + 0x10))).writeHandOver n 0x0C) :=
    congrArg Host.Outcome.next (State.hostWrite_handOver h hd n 0x0C)
  have hfixed := State.writeHandOver_fixed (s.wroteTo (BitVec.ofNat 16 (slotBase n + 0x10))) n 0x0C
  refine ⟨_, hexec, State.lineAfter_of_fixed h hfixed, ?_⟩
  clear hexec
  generalize BitVec.ofNat 16 (slotBase n + 0x10) = o at hfixed ⊢
  have hready : (s.wroteTo o).device ≠ .exchangeResetting := by
    show s.device ≠ _
    rw [hd]; nofun
  have hkeeps := cancelKeeps_writeHandOver hready hlist hq n
  refine ⟨⟨State.samePins_of_fixed hfixed, hkeeps.power, State.sameDevice_of_fixed hfixed, hkeeps.map, hkeeps.lanes,
      hkeeps.legs⟩, hkeeps.pages, State.sameSettings_of_fixed hfixed, fun a _ => hkeeps.bytes a, hkeeps.slots,
      hkeeps.queue, hkeeps.handOver.trans hlist, fun hs => ?ignored, fun hs => ?misuse, fun hs ha => ?acts⟩
  case ignored =>
    rw [State.writeHandOver_cancel_ignored hready hs]
    exact ⟨rfl, ⟨fun _ => rfl, rfl, rfl, rfl, rfl⟩, fun _ => rfl, ⟨rfl, rfl, rfl, rfl, rfl⟩, ⟨rfl, rfl⟩⟩
  case misuse =>
    rw [State.writeHandOver_cancel_misuse hready hs]
    obtain ⟨-, -, -, -, -, hslots, htasks, hbytes⟩ := (s.wroteTo o).reportFault_keeps ⟨.misuse, .inProgress, n.val,
      s.slotByte n 0, s.slotByte n 2, s.slotByte n 4, s.slotByte n 5, 0x0C, (s.slot n).state.code⟩
    exact ⟨hslots n List.not_mem_nil, htasks, hbytes, (s.wroteTo o).faultReported_reportFault _⟩
  case acts =>
    have hwrite : (s.wroteTo o).writeHandOver n 0x0C = (s.wroteTo o).takeCancel n := by
      have hlist' : ((s.wroteTo o).takeCancel n).handOver = [] := (State.takeCancel_handOver _ n).trans hlist
      rw [State.writeHandOver_cancels hready hs ha, State.intake_nil hlist']
    rw [hwrite]
    have hnot {m : LegId} (hm : (s.engine m).inFlight ≠ some n ∧
        ∀ e ∈ (s.engine m).queue, ¬(e.awaited = true ∧ e.slot = n)) : ¬(s.wroteTo o).Holds n m := by
      rintro (⟨e, he, hslot⟩ | hflight)
      · exact hm.2 e he hslot
      · exact hm.1 hflight
    have hend (l : LegId) (hothers : ∀ m, m ≠ l → (s.engine m).inFlight ≠ some n ∧
        ∀ e ∈ (s.engine m).queue, ¬(e.awaited = true ∧ e.slot = n)) (hholds : (s.wroteTo o).Holds n l) :=
      State.takeCancel_leg (s := s.wroteTo o) hq (holdingLeg_eq_some hholds fun m hm => hnot (hothers m hm))
    have hdone := (s.wroteTo o).slot_cancelled n
    refine ⟨fun hnone => ⟨fun hw => ?asks, fun hw => ?waiting⟩, fun l hothers =>
      ⟨fun hflight hqueue => ?inFlight, fun e hqueue hawaited hslot => ?queued⟩⟩
    case asks =>
      rw [State.takeCancel_asks (holdingLeg_eq_none fun l => hnot (hnone l)) hw]
      exact ⟨((s.wroteTo o).slot_ask n n).trans (if_pos rfl), ⟨fun _ => rfl, rfl, rfl, rfl, rfl⟩, fun _ => rfl,
        ⟨rfl, rfl, rfl, rfl, rfl⟩, ⟨rfl, rfl⟩⟩
    case waiting =>
      rw [State.takeCancel_waiting (holdingLeg_eq_none fun l => hnot (hnone l)) hw]
      obtain ⟨hsummary, hengines, hwait, hfaults⟩ := (s.wroteTo o).cancelled_fields n s.engines
        (s.powerWait.filter (fun m => m ≠ n))
      exact ⟨(hdone _ _ n).trans (if_pos rfl), hsummary, hwait, fun l => congrArg (fun v => v[l]) hengines, hfaults⟩
    case inFlight =>
      have hdropped : (s.engine l).dropped n = { s.engine l with inFlight := none } :=
        if_neg fun hplace => by
          obtain ⟨e, he, hslot⟩ := (awaitedPlace_isSome n _).mp hplace
          exact hqueue e he hslot
      exact State.takeCancel_leg_leaves (s := s.wroteTo o) hdropped (hend l hothers (.inr hflight))
    case queued =>
      have hheld : ∃ e ∈ (s.engine l).queue, e.awaited = true ∧ e.slot = n :=
        ⟨e, hqueue ▸ List.mem_singleton_self e, hawaited, hslot⟩
      have hdropped : (s.engine l).dropped n = { s.engine l with queue := [] } :=
        if_pos ((awaitedPlace_isSome n _).mpr hheld)
      exact State.takeCancel_leg_leaves (s := s.wroteTo o) hdropped (hend l hothers (.inl hheld))

end Sys2Proof.Machine
end

section
/-! A leg task that waits at the head of its queue, and SET_TAPS (O48). -/

namespace Sys2Proof.Machine

variable {s t u v : State} {n : SlotId} {k : TaskKind} {h : TaskHeader} {l : LegId} {args : List Byte} {e : Entry}

/-! ### A task that waits (R146, R148) -/

theorem State.attemptAt_head (hq : (s.engine l).queue = [e]) : s.attemptAt l 0 e = (s.setQueue l []).runLegTask l e := by
  rw [State.attemptAt, hq]
  exact rfl

theorem State.deferAt_head (hq : (s.engine l).queue = [e]) : s.deferAt l 0 = s.setQueue l [e.deferEntry] := by
  rw [State.deferAt, hq]
  exact rfl

/-- R146: a single entry that waits stays, deferred; nothing passes it. -/
theorem State.examineLeg_waits (hq : (s.engine l).queue = [e]) (hk : e.kind ≠ .legPark)
    (hrun : (s.setQueue l []).runLegTask l e = none) : s.examineLeg l = s.setQueue l [e.deferEntry] := by
  have hdeferred : ((s.setQueue l [e.deferEntry]).engine l).queue = [e.deferEntry] := by
    rw [State.engine_setQueue, if_pos rfl]
  have hpass : (s.setQueue l [e.deferEntry]).passEntries l 1 = s.setQueue l [e.deferEntry] := by
    simp only [State.passEntries, hdeferred]
  have hkind : e.deferEntry.kind = e.kind := by
    unfold Entry.deferEntry
    split <;> rfl
  have hpark : (s.setQueue l [e.deferEntry]).passPark l = none := by
    simp [State.passPark, hdeferred, parkPlace, hkind, hk]
  rw [State.examineLeg, hq]
  show s.examineRounds l 2 = _
  rw [State.examineRounds, hq]
  simp only [State.attemptAt_head hq, hrun, State.deferAt_head hq, hdeferred, List.length_singleton, hpass, hpark]

/-- R145, R146: an awaited leg task handed over with nothing waiting, that its leg's state makes wait. -/
theorem State.handOverTask_waits (ha : s.AcceptsTask n) (hh : s.AwaitedFor h l) (hd : k.device = false)
    (hl : args.length ≤ 0x10) (hk : k ≠ .legPark)
    (hrun : (s.takenTask n k h args).runLegTask l (awaitedEntry n k h) = none) :
    s.handOverTask n k h args = (s.takenTask n k h args).setQueue l [(awaitedEntry n k h).deferEntry] := by
  have hq : ((s.takenTask n k h args).engine l).queue = [] := ha.queue_nil l
  have hqueue : (((s.takenTask n k h args).setQueue l [awaitedEntry n k h]).engine l).queue = [awaitedEntry n k h] := by
    rw [State.engine_setQueue, if_pos rfl]
  have hrestore : ((s.takenTask n k h args).setQueue l [awaitedEntry n k h]).setQueue l [] = s.takenTask n k h args := by
    rw [← hq]
    exact State.setQueue_restore _
  have htwice (q q' : List Entry) : ((s.takenTask n k h args).setQueue l q).setQueue l q' =
      (s.takenTask n k h args).setQueue l q' := by
    simp [State.setQueue, State.modEngine]
  rw [State.handOverTask_examines ha hh hd hl, State.examineLeg_waits hqueue hk (by rw [hrestore]; exact hrun), htwice]

/-- R148: the patience clock that a code starts. -/
theorem patienceTime_eq (code : Byte) : patienceTime code = patienceClock code := by
  revert code
  decide

theorem State.slot_takenTask (s : State) (n : SlotId) (k : TaskKind) (h : TaskHeader) (args : List Byte) (m : SlotId) :
    (s.takenTask n k h args).slot m = if m = n then ⟨.taken, .inProgress, false⟩ else s.slot m :=
  State.slot_modSlot _ n m _

/-- R139: the slot of a task that has been taken, whatever else the task does. -/
theorem State.taskTaken_of (ha : s.AcceptsTask n) (hl : args.length ≤ 0x10)
    (hslot : ∀ m, t.slot m = (s.takenTask n k h args).slot m) (hmem : t.mem = (s.takenTask n k h args).mem) :
    s.TaskTaken t n := by
  have hbyte (i : Nat) : t.slotByte n i = (s.takenTask n k h args).slotByte n i := by
    rw [State.slotByte, hmem]
    rfl
  refine ⟨?_, fun m hm => ?_, fun j hj => (hbyte _).trans (State.takenTask_resultByte j hj), fun a ha' => ?_⟩
  · rw [hslot, State.slot_takenTask, if_pos rfl]
  · rw [hslot, State.slot_takenTask, if_neg (by simpa using hm)]
  · rw [hmem]
    exact State.takenTask_sameBytesOutside ha.wf hl a ha'

/-- What the hand-over of a task leaves behind, whatever the task does to the legs and lanes. -/
theorem State.carried_of_fixed (ha : s.AcceptsTask n) (hfixed : t.fixed = (s.takenTask n k h args).fixed)
    (hmem : ∀ i, i < 0x80 → t.slotByte n i = (s.takenTask n k h args).slotByte n i) (hfaults : s.SameFaults t)
    (hqueue : t.deviceQueue = []) (hlist : t.handOver = []) : s.Carried t n k h args := by
  obtain ⟨⟨-, -, -, hread⟩, -, -, -, -, hw⟩ := ha
  let u := s.takenTask n k h args
  refine ⟨State.taskWritten_of_slotByte hw hmem, ⟨?_, State.writeOpen_of_fixed (s := u) hfixed,
    (State.readOpen_of_fixed (s := u) hfixed).trans hread, State.acknowledged_of_fixed (s := u) hfixed,
    State.readData_of_fixed (s := u) hfixed⟩, ⟨State.resetHeld_of_fixed (s := u) hfixed,
    State.lowpwr_of_fixed (s := u) hfixed, State.straps_of_fixed (s := u) hfixed⟩,
    ⟨State.device_of_fixed (s := u) hfixed, State.initTimer_of_fixed (s := u) hfixed,
      State.initByPowerOn_of_fixed (s := u) hfixed, State.resetTimer_of_fixed (s := u) hfixed,
      State.lastCause_of_fixed (s := u) hfixed, State.releaseCause_of_fixed (s := u) hfixed⟩, hfaults,
    State.enables_of_fixed (s := u) hfixed, State.latchedMode_of_fixed (s := u) hfixed,
    State.holdIntake_of_fixed (s := u) hfixed, hqueue, hlist⟩
  exact (State.offset_of_fixed (s := u) hfixed).trans (congrArg (BitVec.ofNat 16) (Nat.add_assoc ..).symm)

/-- The task taken waits, deferred, with its patience clock running. -/
theorem State.taskWaits_setQueue (ha : s.AcceptsTask n) (hl : args.length ≤ 0x10) :
    s.TaskWaits ((s.takenTask n k h args).setQueue l [(awaitedEntry n k h).deferEntry]) n k h l := by
  have hengine (m : LegId) := State.engine_setQueue (s := s.takenTask n k h args) l m [(awaitedEntry n k h).deferEntry]
  refine ⟨State.taskTaken_of ha hl (fun _ => rfl) rfl, ?_, ?_, ⟨⟨rfl, rfl, rfl⟩, fun _ _ => rfl, rfl, rfl, fun _ _ => rfl,
    fun m hm => (hengine m).trans (if_neg (by simpa using hm))⟩, rfl, fun _ => rfl, fun _ _ => rfl, rfl⟩
  · rw [hengine, if_pos rfl, ← patienceTime_eq]
    exact rfl
  · rw [hengine, if_pos rfl]
    exact rfl

theorem State.carried_setQueue (ha : s.AcceptsTask n) (q : List Entry) :
    s.Carried ((s.takenTask n k h args).setQueue l q) n k h args := by
  obtain ⟨⟨-, -, -, hread⟩, -, -, -, ⟨-, -, hdev⟩, hw⟩ := ha
  exact ⟨State.taskWritten_of_slotByte hw fun _ _ => rfl,
    ⟨congrArg (BitVec.ofNat 16) (Nat.add_assoc ..).symm, rfl, hread, rfl, rfl⟩, ⟨rfl, rfl, rfl⟩,
    ⟨rfl, rfl, rfl, rfl, rfl, rfl⟩, ⟨rfl, rfl⟩, rfl, rfl, rfl, hdev, rfl⟩

/-! ### SET_TAPS (R89, R93) -/

variable {side lane pre main post : Byte} {i : LaneId} {d : Side} {x : LaneSide}

theorem State.memberArg_eq_none {b : Byte} : s.memberArg l b = none ↔ ∀ i ∈ s.members l, i.val ≠ b.toNat := by
  rw [Option.eq_none_iff_forall_ne_some]
  exact ⟨fun hno i hi hval => hno i (State.memberArg_eq_some.mpr ⟨hi, hval⟩), fun hno i hsome => by
    obtain ⟨hi, hval⟩ := State.memberArg_eq_some.mp hsome
    exact hno i hi hval⟩

/-- The operands of SET_TAPS and of EYE_SCAN name a lane side of the leg. -/
theorem State.sideOf_of_code (hx : (side = 0 ∧ x = ⟨.line, i⟩) ∨ (side = 1 ∧ x = ⟨.switch, (s.entry i).source⟩)) :
    ∃ d, decodeSide side = some d ∧ s.sideOf i d = x := by
  rcases hx with ⟨rfl, rfl⟩ | ⟨rfl, rfl⟩
  · exact ⟨.line, decodeSide_eq_some.mpr (.inl ⟨rfl, rfl⟩), rfl⟩
  · exact ⟨.switch, decodeSide_eq_some.mpr (.inr ⟨rfl, rfl⟩), rfl⟩

theorem State.runLegTask_setTaps (hp : e.patience.toNat ≤ 3) (hk : e.kind = .setTaps) :
    u.runLegTask l e = u.runSetTaps l e := by
  have hg : e.patienceGood = true := decide_eq_true hp
  rw [State.runLegTask, hg, hk]
  exact rfl

theorem State.runSetTaps_badArgument (h : decodeSide (u.arg e 0) = none ∨ u.memberArg l (u.arg e 1) = none) :
    u.runSetTaps l e = some (u.endTask e [] .badArgument) := by
  unfold State.runSetTaps
  split
  · next hd hi => simp [hd, hi] at h
  · exact rfl

section
variable (hd : decodeSide (u.arg e 0) = some d) (hi : u.memberArg l (u.arg e 1) = some i)
include hd hi

theorem State.runSetTaps_waits (hs : (u.leg l).state ≠ .parked) (hc : (u.leg l).state ≠ .carrying) :
    u.runSetTaps l e = none := by
  simp only [State.runSetTaps, hd, hi]
  exact if_neg fun h => h.elim hs hc

/-- R89, R93: the saturated triple is loaded. -/
theorem State.runSetTaps_loads (hs : (u.leg l).state = .parked ∨ (u.leg l).state = .carrying) {wanted : Taps}
    (hw : ⟨(u.arg e 2).toInt, (u.arg e 3).toInt, (u.arg e 4).toInt⟩ = wanted) :
    u.runSetTaps l e = some ((u.modLane (u.sideOf i d) (fun v => { v with
        taps := saturate (u.leg l).setup.rate wanted })).endTask e
      ((u.lane (u.sideOf i d)).taps.bytes ++ (saturate (u.leg l).setup.rate wanted).bytes ++
        [flagByte (decide (saturate (u.leg l).setup.rate wanted ≠ wanted))]) .ok) := by
  subst hw
  simp only [State.runSetTaps, hd, hi]
  exact if_pos hs

end

theorem State.modLane_sameButLanes (u : State) (x : LaneSide) (f : LaneState → LaneState) :
    u.SameButLanes (u.modLane x f) :=
  State.modLanes_sameButLanes u [x] f

/-- Settles O48: a refusal, a wait, or the load of the saturated triple. -/
theorem setTapsLoadsTheSaturatedTriple : Obligations.SetTapsLoadsTheSaturatedTriple := by
  intro n h side lane pre main post l s ha hh
  have hl : [side, lane, pre, main, post].length ≤ 0x10 := by simp
  let u := s.takenTask n .setTaps h [side, lane, pre, main, post]
  have hrun : u.runLegTask l (awaitedEntry n .setTaps h) = u.runSetTaps l (awaitedEntry n .setTaps h) :=
    State.runLegTask_setTaps hh.patience_le rfl
  have harg (j : Nat) (hj : j < 5) : u.arg (awaitedEntry n .setTaps h) j = [side, lane, pre, main, post].getD j 0 :=
    State.arg_takenTask ha.wf hl j hj
  by_cases hbad : 1 < side.toNat ∨ ∀ i ∈ s.members l, i.val ≠ lane.toNat
  case pos =>
    have hrefuse : u.runSetTaps l (awaitedEntry n .setTaps h) = some (u.endTask (awaitedEntry n .setTaps h) [] .badArgument) := by
      refine State.runSetTaps_badArgument (hbad.imp (fun hs => ?_) fun hm => ?_)
      · rw [harg 0 (by decide)]
        exact decodeSide_eq_none.mpr hs
      · rw [harg 1 (by decide)]
        exact State.memberArg_eq_none.mpr hm
    refine ⟨_, congrArg Host.Outcome.next (State.handOverTask_ends ha hh rfl hl (.refl _) (hrun.trans hrefuse)),
      State.carried_endAwaited ha (.refl _) _ _, fun _ => State.taskRefused_endAwaited ha hl _, fun i x hi hval hx => ?_⟩
    obtain ⟨d, hd, -⟩ := State.sideOf_of_code hx
    rcases hbad with hs | hm
    · exact absurd (hd.symm.trans (decodeSide_eq_none.mpr hs)) nofun
    · exact absurd hval (hm i hi)
  case neg =>
    obtain ⟨hside, hlane⟩ := not_or.mp hbad
    obtain ⟨d, hd⟩ := Option.ne_none_iff_exists'.mp (mt decodeSide_eq_none.mp hside)
    obtain ⟨i, hi⟩ := Option.ne_none_iff_exists'.mp (mt (State.memberArg_eq_none (s := s) (l := l)).mp hlane)
    have hd' : decodeSide (u.arg (awaitedEntry n .setTaps h) 0) = some d := (congrArg decodeSide (harg 0 (by decide))).trans hd
    have hi' : u.memberArg l (u.arg (awaitedEntry n .setTaps h) 1) = some i :=
      (congrArg (u.memberArg l) (harg 1 (by decide))).trans hi
    have hnamed {i' : LaneId} {x : LaneSide} (hm : i' ∈ s.members l) (hval : i'.val = lane.toNat)
        (hx : (side = 0 ∧ x = ⟨.line, i'⟩) ∨ (side = 1 ∧ x = ⟨.switch, (s.entry i').source⟩)) : s.sideOf i d = x := by
      obtain rfl : i = i' := Option.some.inj (hi.symm.trans (State.memberArg_eq_some.mpr ⟨hm, hval⟩))
      obtain ⟨d', hd'', hx'⟩ := State.sideOf_of_code hx
      obtain rfl : d = d' := Option.some.inj (hd.symm.trans hd'')
      exact hx'
    by_cases hs : (s.leg l).state = .parked ∨ (s.leg l).state = .carrying
    case neg =>
      obtain ⟨hp, hc⟩ := not_or.mp hs
      refine ⟨_, congrArg Host.Outcome.next (State.handOverTask_waits ha hh rfl hl nofun
        (hrun.trans (State.runSetTaps_waits hd' hi' hp hc))), State.carried_setQueue ha _,
        fun hb => absurd hb hbad, fun _ _ _ _ _ => ⟨fun _ => State.taskWaits_setQueue ha hl, fun h => absurd h hs⟩⟩
    case pos =>
      have hwanted : (⟨(u.arg (awaitedEntry n .setTaps h) 2).toInt, (u.arg (awaitedEntry n .setTaps h) 3).toInt,
          (u.arg (awaitedEntry n .setTaps h) 4).toInt⟩ : Taps) = ⟨pre.toInt, main.toInt, post.toInt⟩ := by
        rw [harg 2 (by decide), harg 3 (by decide), harg 4 (by decide)]
        exact rfl
      have hv := State.modLane_sameButLanes u (s.sideOf i d) (fun v => { v with
        taps := saturate (s.leg l).setup.rate ⟨pre.toInt, main.toInt, post.toInt⟩ })
      refine ⟨_, congrArg Host.Outcome.next (State.handOverTask_ends ha hh rfl hl hv
        (hrun.trans (State.runSetTaps_loads hd' hi' hs hwanted))), State.carried_endAwaited ha hv _ _,
        fun hb => absurd hb hbad, fun i' x hm hval hx => ⟨fun hw => ?_, fun _ => ?_⟩⟩
      · rcases hs with hs | hs <;> simp [hs] at hw
      · have hsides := hnamed hm hval hx
        subst hsides
        have hloaded (result : List Byte) (y : LaneSide) : ((u.modLane (s.sideOf i d) (fun v => { v with
            taps := saturate (s.leg l).setup.rate ⟨pre.toInt, main.toInt, post.toInt⟩ })).endAwaited n result .ok).lane y =
            if y = s.sideOf i d then { s.lane (s.sideOf i d) with
              taps := saturate (s.leg l).setup.rate ⟨pre.toInt, main.toInt, post.toInt⟩ } else s.lane y :=
          (State.lane_endAwaited ..).trans (State.lane_modLane u _ y _)
        have hself (result : List Byte) := (hloaded result (s.sideOf i d)).trans (if_pos rfl)
        have hflag (a b : Taps) : flagByte (decide (a ≠ b)) = if a = b then 0 else 1 := by
          by_cases hab : a = b <;> simp [hab, flagByte]
        refine ⟨hself _, ?_, State.sameOutsideLegs_endAwaited hv _ _, fun _ => rfl,
          fun y hy => (hloaded _ y).trans (if_neg (by simpa using hy))⟩
        rw [hself, ← hflag]
        exact State.taskDone_endAwaited ha hl hv (by simp [Taps.bytes]) _

end Sys2Proof.Machine
end

section
/-! LEG_START handed over with nothing waiting (O44). -/

namespace Sys2Proof.Machine

variable {s t u v : State} {n : SlotId} {k : TaskKind} {h : TaskHeader} {l : LegId} {args : List Byte} {e : Entry}

/-! ### A task that its engine launches -/

/-- R155: the awaited bring-up task of a slot is in flight. -/
def State.launched (s : State) (l : LegId) (n : SlotId) : State :=
  s.modEngine l (fun g => { g with inFlight := some n })

theorem State.engine_launched (s : State) (l m : LegId) (n : SlotId) :
    (s.launched l n).engine m = if m = l then { s.engine l with inFlight := some n } else s.engine m :=
  State.engine_modEngine s l m _

theorem State.leg_launched (s : State) (l m : LegId) (n : SlotId) : (s.launched l n).leg m = s.leg m := rfl

/-- R139: what the taking of a task leaves. -/
theorem State.takenTask_keeps (ha : s.AcceptsTask n) (htask : u = s.takenTask n k h args) :
    s.SameOutsideLegs u [] ∧ s.SameMap u ∧ s.SameLanesBut [] u ∧ u.summary = s.summary ∧ s.SameFaults u ∧
      u.deviceQueue = [] ∧ u.handOver = [] := by
  obtain ⟨-, -, -, -, ⟨-, -, hdev⟩, -⟩ := ha
  subst htask
  exact ⟨⟨⟨rfl, rfl, rfl⟩, fun _ _ => rfl, rfl, rfl, fun _ _ => rfl, fun _ _ => rfl⟩, fun _ => rfl, fun _ _ => rfl, rfl,
    ⟨rfl, rfl⟩, hdev, rfl⟩

/-- What a leg task that was taken and launched leaves, whatever it does to lane sides and its leg. -/
theorem State.KeepsSignals.taken {f : Leg → Leg} (ha : s.AcceptsTask n) (hl : args.length ≤ 0x10)
    (ht : (((s.takenTask n k h args).modLeg l f).launched l n).KeepsSignals t)
    (hlegs : ∀ m, m ≠ l → t.leg m = s.leg m) :
    s.Carried t n k h args ∧ s.TaskTaken t n ∧ s.SameOutsideLegs t [l] ∧ s.SameMap t ∧ t.summary = s.summary ∧
      t.engine l = { s.engine l with inFlight := some n } := by
  obtain ⟨⟨hpower, hpages, hwait, howed, -, hengines⟩, hmap, -, hsummary, hfaults, hqueue, hlist⟩ :=
    State.takenTask_keeps (k := k) (h := h) (args := args) ha rfl
  have hcarried := State.carried_of_fixed (t := t) (k := k) (h := h) (args := args) ha
  have htaken := State.taskTaken_of (t := t) (k := k) (h := h) ha hl
  generalize s.takenTask n k h args = u at *
  have hengine (m : LegId) : t.engine m = if m = l then { s.engine l with inFlight := some n } else s.engine m := by
    rw [ht.engine, State.engine_launched]
    exact (congrArg₂ (fun a b => if m = l then { a with inFlight := some n } else b) (hengines l List.not_mem_nil)
      (hengines m List.not_mem_nil))
  obtain ⟨lineSide, switchSide, legs, rfl⟩ := ht.update
  exact ⟨hcarried rfl (fun _ _ => rfl) hfaults hqueue hlist, htaken (fun _ => rfl) rfl,
    ⟨hpower, hpages, hwait, howed, fun m hm => hlegs m (by simpa using hm),
      fun m hm => (hengine m).trans (if_neg (by simpa using hm))⟩, hmap, hsummary, (hengine l).trans (if_pos rfl)⟩

/-- R144: a task that changes its leg and ends. -/
theorem State.handOverTask_endsLeg {f : Leg → Leg} {result : List Byte} {st : Status} (ha : s.AcceptsTask n)
    (hh : s.AwaitedFor h l) (hk : k.device = false) (hl : args.length ≤ 0x10)
    (hrun : (s.takenTask n k h args).runLegTask l (awaitedEntry n k h) =
      some (((s.takenTask n k h args).modLeg l f).endTask (awaitedEntry n k h) result st)) :
    s.handOverTask n k h args = ((s.takenTask n k h args).endAwaited n result st).modLeg l f := by
  rw [State.endTask_awaitedEntry, State.endAwaited_modLeg] at hrun
  refine State.handOverTask_runs ha hh hk hl hrun ?_
  rw [State.engine_modLeg, State.engine_endAwaited]
  exact ha.queue_nil l

/-- What such a task leaves of its leg, its engine, the map and the lane sides. -/
theorem State.leg_endedLeg (f : Leg → Leg) (result : List Byte) (st : Status) :
    (((s.takenTask n k h args).endAwaited n result st).modLeg l f).leg l = f (s.leg l) ∧
    (((s.takenTask n k h args).endAwaited n result st).modLeg l f).engine l = s.engine l ∧
    s.SameMap (((s.takenTask n k h args).endAwaited n result st).modLeg l f) ∧
    s.SameLanesBut [] (((s.takenTask n k h args).endAwaited n result st).modLeg l f) := by
  refine ⟨?_, ?_, fun i => ?_, fun y _ => ?_⟩
  · rw [State.leg_modLeg_self, State.leg_endAwaited]; exact rfl
  · rw [State.engine_modLeg, State.engine_endAwaited]; exact rfl
  · rw [State.entry_modLeg, State.entry_endAwaited]; exact rfl
  · rw [State.lane_modLeg, State.lane_endAwaited]; exact rfl

/-! ### LEG_START executed (Table 2-4) -/

theorem State.runLegTask_legStart (hp : e.patience.toNat ≤ 3) (hk : e.kind = .legStart) :
    u.runLegTask l e = some (u.runLegStart l e) := by
  have hg : e.patienceGood = true := decide_eq_true hp
  rw [State.runLegTask, hg, hk]
  exact rfl

theorem State.runLegStart_already (h : (u.leg l).state ≠ .parked) :
    u.runLegStart l e = u.endTask e (u.leg l).bringUpResult .already := if_pos h

theorem State.runLegStart_wrongState (h : (u.leg l).state = .parked) (hc : u.allCarry l = false) :
    u.runLegStart l e = u.endTask e [] .wrongState := by
  rw [State.runLegStart, if_neg (not_not_intro h), hc]
  exact rfl

section
variable (hp : (u.leg l).state = .parked) (hc : u.allCarry l = true)
include hp hc

/-- R26: without ACTIVE power the leg takes the intent only. -/
theorem State.runLegStart_heldLow (he : u.effective ≠ .active) :
    u.runLegStart l e = (u.modLeg l Leg.tookIntent).endTask e (u.leg l).tookIntent.bringUpResult .heldLow := by
  have hleg : ((u.takeIntent l).leg l) = (u.leg l).tookIntent := State.leg_modLeg_self u l _
  rw [State.runLegStart, if_neg (not_not_intro hp), hc]
  show (if u.effective = .active then _ else
    (u.takeIntent l).endTask e ((u.takeIntent l).leg l).bringUpResult .heldLow) = _
  rw [if_neg he, hleg]
  exact rfl

/-- R26, R31: with ACTIVE power the leg enters DARK and the task is in flight. -/
theorem State.runLegStart_launches (he : u.effective = .active) (ha : e.awaited = true) :
    u.runLegStart l e = ((u.modLeg l Leg.tookIntent).launched l e.slot).enterDark l := by
  have hlaunch : (u.takeIntent l).launch l e = (u.modLeg l Leg.tookIntent).launched l e.slot := if_pos ha
  rw [State.runLegStart, if_neg (not_not_intro hp), hc]
  show (if u.effective = .active then ((u.takeIntent l).launch l e).enterDark l else _) = _
  rw [if_pos he, hlaunch]

end

theorem State.allCarry_iff : s.allCarry l = true ↔ ∀ i ∈ s.members l, (s.entry i).function = .carry := by
  simp [State.allCarry]

/-- R26, R31, R32: the leg that LEG_START sends out. -/
def Leg.sentOut (g : Leg) (present locked : Bool) : Leg := g.tookIntent.enteredDark present locked

theorem Leg.sentOut_keeps (g : Leg) (present locked : Bool) : (g.sentOut present locked).intent = true ∧
    (g.sentOut present locked).attempts = 0 ∧ (g.sentOut present locked).givenUp = false ∧
    (g.sentOut present locked).setup = g.setup ∧
    (g.sentOut present locked).state = if present = false then .dark else if locked = false then .acquire else .tune := by
  obtain ⟨hintent, hattempts, hgivenUp, hsetup⟩ := g.tookIntent.enteredDark_keeps present locked
  exact ⟨hintent, hattempts, hgivenUp, hsetup, Leg.state_enteredDark _ _ _⟩

/-- R32: ACQUIRE starts the lock timer, TUNE both sessions. -/
theorem Leg.sentOut_starts (g : Leg) (present locked : Bool) :
    ((g.sentOut present locked).state = .acquire →
      (g.sentOut present locked).lockTimer = some (g.setup.lockTimeout * 1000)) ∧
    ((g.sentOut present locked).state = .tune → ∀ d, ((g.sentOut present locked).side d).session = .running) := by
  cases present <;> cases locked
  · exact ⟨nofun, nofun⟩
  · exact ⟨nofun, nofun⟩
  · exact ⟨fun _ => rfl, nofun⟩
  · exact ⟨nofun, fun _ d => by cases d <;> rfl⟩

/-- The state that a LEG_START with ACTIVE power leaves, from the one in which it was taken. -/
def State.sentOut (u : State) (l : LegId) (n : SlotId) : State :=
  ((u.modLeg l Leg.tookIntent).launched l n).enterDark l

theorem State.leg_sentOut (u : State) (l m : LegId) (n : SlotId) : (u.sentOut l n).leg m =
    if m = l then (u.leg l).sentOut (u.allPresent l) (u.allLocked l) else u.leg m := by
  refine (State.leg_enterDark ((u.modLeg l Leg.tookIntent).launched l n) l m).trans ?_
  rw [State.leg_launched, State.leg_launched, State.leg_modLeg_self, State.leg_modLeg]
  by_cases hm : m = l
  · rw [if_pos hm, if_pos hm]; exact rfl
  · rw [if_neg hm, if_neg hm, if_neg hm]

/-- A leg that does not reach TUNE touches no lane side. -/
theorem State.lane_sentOut (hs : ((u.sentOut l n).leg l).state ≠ .tune) (y : LaneSide) :
    (u.sentOut l n).lane y = u.lane y := by
  have hstop : u.allPresent l = false ∨ u.allLocked l = false := by
    rw [State.leg_sentOut, if_pos rfl, (Leg.sentOut_keeps _ _ _).2.2.2.2] at hs
    cases hp : u.allPresent l with
    | false => exact .inl rfl
    | true => cases hl : u.allLocked l with
      | false => exact .inr rfl
      | true => exact absurd (by simp [hp, hl]) hs
  exact State.lane_enterDark (s := (u.modLeg l Leg.tookIntent).launched l n) hstop y

theorem Leg.bringUpResult_tookIntent (g : Leg) (hp : g.state = .parked) :
    g.tookIntent.bringUpResult = [0, g.grade.code, 0, g.cause.code, 0] := by
  obtain ⟨state, _, _, _, _, _, _, _, _⟩ := g
  subst hp
  exact rfl

/-- Settles O44, in the order of Table 2-4. -/
theorem startSendsTheLegOut : Obligations.StartSendsTheLegOut := by
  intro n h l s ha hh
  have hl : ([] : List Byte).length ≤ 0x10 := Nat.zero_le _
  let u := s.takenTask n .legStart h []
  let e := awaitedEntry n .legStart h
  have hrun : u.runLegTask l e = some (u.runLegStart l e) := State.runLegTask_legStart hh.patience_le rfl
  have hcarry : (∃ i ∈ s.members l, (s.entry i).function ≠ .carry) ↔ ¬∀ i ∈ s.members l, (s.entry i).function = .carry := by
    push Not
    rfl
  by_cases hp : (s.leg l).state = .parked
  case neg =>
    exact ⟨_, congrArg Host.Outcome.next (State.handOverTask_ends ha hh rfl hl (.refl _)
      (hrun.trans (congrArg some (State.runLegStart_already (e := e) hp)))), State.carried_endAwaited ha (.refl _) _ _,
      fun _ => ⟨State.taskDone_endAwaited ha hl (.refl _) (by simp [Leg.bringUpResult]) _,
        State.sameOutsideLegs_endAwaited (.refl _) _ _, fun _ => rfl, fun _ _ => rfl⟩,
      fun h => absurd h hp, fun h => absurd h hp, fun h => absurd h hp⟩
  by_cases hc : ∀ i ∈ s.members l, (s.entry i).function = .carry
  case neg =>
    have hc' : u.allCarry l = false := Bool.eq_false_iff.mpr fun hall => hc (State.allCarry_iff.mp hall)
    exact ⟨_, congrArg Host.Outcome.next (State.handOverTask_ends ha hh rfl hl (.refl _)
      (hrun.trans (congrArg some (State.runLegStart_wrongState (e := e) hp hc')))), State.carried_endAwaited ha (.refl _) _ _,
      fun h => absurd hp h, fun _ _ => State.taskRefused_endAwaited ha hl _,
      fun _ h => absurd h hc, fun _ h => absurd h hc⟩
  have hc' : u.allCarry l = true := State.allCarry_iff.mpr hc
  by_cases he : s.effective = .active
  case neg =>
    have hend : u.runLegStart l e = (u.modLeg l Leg.tookIntent).endTask e (u.leg l).tookIntent.bringUpResult .heldLow :=
      State.runLegStart_heldLow hp hc' he
    have hresult := (s.leg l).bringUpResult_tookIntent hp
    have hexec := State.handOverTask_endsLeg (k := .legStart) (args := []) (f := Leg.tookIntent)
      (result := (u.leg l).tookIntent.bringUpResult) (st := .heldLow) ha hh rfl hl (hrun.trans (congrArg some hend))
    obtain ⟨hleg, hengine, hmap, hlanes⟩ := State.leg_endedLeg (s := s) (n := n) (k := .legStart) (h := h) (args := [])
      (l := l) Leg.tookIntent (u.leg l).tookIntent.bringUpResult .heldLow
    exact ⟨_, congrArg Host.Outcome.next hexec,
      (State.carried_endAwaited ha (.refl _) _ _).modLeg, fun h => absurd hp h, fun _ h => absurd hc (hcarry.mp h),
      fun _ _ _ => ⟨hresult ▸ (State.taskDone_endAwaited ha hl (.refl _) (by simp [Leg.bringUpResult]) _).modLeg, hleg,
        (State.sameOutsideLegs_endAwaited (.refl _) _ _).modLeg, hengine, hmap, hlanes⟩,
      fun _ _ h => absurd h he⟩
  case pos =>
    have hkeeps : ((u.modLeg l Leg.tookIntent).launched l n).KeepsSignals (u.sentOut l n) := State.keepsSignals_enterDark _ l
    have hleg (m : LegId) : (u.sentOut l n).leg m =
        if m = l then (s.leg l).sentOut (s.allPresent l) (s.allLocked l) else s.leg m := u.leg_sentOut l m n
    have hlane (hs : ((u.sentOut l n).leg l).state ≠ .tune) (y : LaneSide) : (u.sentOut l n).lane y = s.lane y :=
      State.lane_sentOut hs y
    obtain ⟨hcarried, htaken, houtside, hmap, hsummary, hengine⟩ := State.KeepsSignals.taken ha hl hkeeps
      fun m hm => (hleg m).trans (if_neg hm)
    have hself := (hleg l).trans (if_pos rfl)
    have hqueue : ((u.sentOut l n).engine l).queue = [] := by
      rw [hengine]
      exact ha.queue_nil l
    obtain ⟨hintent, hattempts, hgivenUp, hsetup, hstate⟩ := (s.leg l).sentOut_keeps (s.allPresent l) (s.allLocked l)
    obtain ⟨hacquire, htune⟩ := (s.leg l).sentOut_starts (s.allPresent l) (s.allLocked l)
    rw [← hself] at hintent hattempts hgivenUp hsetup hstate hacquire htune
    have hexec := State.handOverTask_runs ha hh rfl hl
      (hrun.trans (congrArg some (State.runLegStart_launches (e := e) hp hc' he rfl))) hqueue
    exact ⟨_, congrArg Host.Outcome.next hexec, hcarried,
      fun h => absurd hp h, fun _ h => absurd hc (hcarry.mp h), fun _ _ h => absurd he h, fun _ _ _ =>
      ⟨htaken, hengine, hintent, hattempts, hgivenUp, hsetup, hstate, hacquire, htune, fun hs y _ => hlane hs y, houtside,
        hmap, hsummary⟩⟩

end Sys2Proof.Machine
end

section
/-! What a leg does that leaves its state (R27 to R29, R41, R121): its taps stand, results of tasks are all that is
written, and no cancel is asked. With it LEG_PARK (O45). -/

namespace Sys2Proof.Machine

variable {s t u : State} {n : SlotId} {k : TaskKind} {h : TaskHeader} {l : LegId} {args : List Byte} {e : Entry}

/-! ### The layer -/

/-- The result area of some slot (Table 11-6). -/
def InResults (a : Nat) : Prop := ∃ m : SlotId, slotBase m + 0x80 ≤ a ∧ a < slotBase m + 0x100

/-- An event of leg l that changes no triple, writes only results of tasks and asks no cancel. -/
structure State.LegExit (l : LegId) (s t : State) : Prop where
  toUpdate : s.LegUpdate l t
  taps : s.KeepsTaps t
  asked (m : SlotId) : (t.slot m).cancelAsked = (s.slot m).cancelAsked
  wf : s.mem.wf = true → t.mem.wf = true
  read : s.mem.wf = true → ∀ a, ¬InResults a → t.mem.read a = s.mem.read a

theorem not_inResults {m : SlotId} {i : Nat} (hi : i < 0x80) : ¬InResults (slotBase m + i) := by
  rintro ⟨m', hlow, hhigh⟩
  simp only [slotBase] at hlow hhigh
  omega

namespace State.LegExit

theorem refl (l : LegId) (s : State) : s.LegExit l s :=
  ⟨.refl l s, .refl s, fun _ => rfl, id, fun _ _ _ => rfl⟩

theorem trans (h : s.LegExit l t) (h' : t.LegExit l u) : s.LegExit l u :=
  ⟨h.toUpdate.trans h'.toUpdate, h.taps.trans h'.taps, fun m => (h'.asked m).trans (h.asked m), fun hw => h'.wf (h.wf hw),
    fun hw a ha => (h'.read (h.wf hw) a ha).trans (h.read hw a ha)⟩

/-- An event that writes no byte and no slot. -/
theorem of_mem (h : s.LegUpdate l t) (ht : s.KeepsTaps t) (hm : t.mem = s.mem) (hs : t.slots = s.slots) :
    s.LegExit l t :=
  ⟨h, ht, fun m => by rw [State.slot, hs]; rfl, fun hw => hm ▸ hw, fun _ _ _ => by rw [hm]⟩

theorem modLanes (xs : List LaneSide) (s : State) (l : LegId) {f : LaneState → LaneState}
    (hf : ∀ v : LaneState, (f v).presence = v.presence ∧ (f v).locked = v.locked ∧ (f v).counters = v.counters ∧
      (f v).mask = v.mask) (ht : ∀ v : LaneState, (f v).taps = v.taps) : s.LegExit l (s.modLanes xs f) :=
  of_mem (.modLanes xs s l hf) (.modLanes xs s ht) (State.modLanes_mem ..) (State.modLanes_slots ..)

theorem modLeg (s : State) (l : LegId) {f : Leg → Leg} (hf : (f (s.leg l)).setup = (s.leg l).setup) :
    s.LegExit l (s.modLeg l f) :=
  of_mem (.modLeg s l hf) (.refl s) rfl rfl

theorem modLegSide (s : State) (l : LegId) (d : Side) (f : LegSide → LegSide) : s.LegExit l (s.modLegSide l d f) :=
  of_mem (.modLegSide s l d f) (.refl s) rfl rfl

theorem legNotice (s : State) (l : LegId) : s.LegExit l (s.legNotice l) :=
  of_mem (.legNotice s l) (.refl s) rfl rfl

theorem endAwaited (s : State) (l : LegId) (n : SlotId) {result : List Byte} (hr : result.length ≤ 0x80) (st : Status) :
    s.LegExit l (s.endAwaited n result st) where
  toUpdate := .endAwaited s l n result st
  taps y := by rw [State.lane_endAwaited]
  asked m := by
    rw [State.slot_endAwaited]
    split
    · next hm => rw [hm]
    · rfl
  wf hw := by
    rw [State.endAwaited_mem]
    exact Memory.wf_writeBytes _ _ _ hw
  read hw a ha := by
    rw [State.endAwaited_mem, Memory.read_writeBytes _ _ _ _ hw, if_neg]
    exact fun hin => ha ⟨n, hin.1, by omega⟩

theorem foldl {α : Type} {f : State → α → State} (h : ∀ (s : State) (a : α), s.LegExit l (f s a)) (as : List α) (s : State) :
    s.LegExit l (as.foldl f s) := by
  induction as generalizing s with
  | nil => exact refl l s
  | cons a as ih => exact (h s a).trans (ih _)

/-- The bytes of a slot below its result area. -/
theorem slotByte (h : s.LegExit l t) (hw : s.mem.wf = true) (m : SlotId) {i : Nat} (hi : i < 0x80) :
    t.slotByte m i = s.slotByte m i := h.read hw _ (not_inResults hi)

end State.LegExit

/-! ### The operations -/

theorem legExit_endScan (s : State) (l : LegId) (p : PageId) (n : SlotId) (o : ScanOutcome) (st : Status) :
    s.LegExit l (s.endScan p n o st) := by
  have hpage : s.LegUpdate l (s.modPage p fun c => { c with state := .held, outcome := o }) :=
    { State.LegUpdate.refl l s with update := ⟨_, _, _, _, _, _, _, _, _, rfl⟩ }
  have hidle : s.LegExit l ((s.modPage p fun c => { c with state := .held, outcome := o }).modLane (s.scanSide p)
      fun v => { v with monitor := .idle }) :=
    (State.LegExit.of_mem hpage (.refl s) rfl rfl).trans (.modLanes [s.scanSide p] _ l
      (f := fun v => { v with monitor := .idle }) (fun _ => ⟨rfl, rfl, rfl, rfl⟩) fun _ => rfl)
  exact hidle.trans (.endAwaited _ l n (by simp [bytes16]) st)

theorem legExit_interruptScan (s : State) (l k : LegId) (p : PageId) : s.LegExit l (s.interruptScan k p) := by
  unfold State.interruptScan
  split
  · split
    · exact legExit_endScan s l p _ _ _
    · exact .refl l s
  · exact .refl l s

theorem legExit_leaveCarrying (s : State) (l : LegId) : s.LegExit l (s.leaveCarrying l) := by
  unfold State.leaveCarrying
  split
  · exact (State.LegExit.legNotice s l).trans (.foldl (fun s p => legExit_interruptScan s l l p) allPages _)
  · exact .refl l s

theorem legExit_abandonSide (s : State) (l : LegId) (d : Side) : s.LegExit l (s.abandonSide l d) := by
  unfold State.abandonSide
  split
  · exact (State.LegExit.modLanes _ s l LaneState.abandon_keeps fun _ => rfl).trans (.modLegSide _ l d _)
  · exact .modLanes _ s l LaneState.rest_keeps fun _ => rfl

theorem legExit_abandonSessions (s : State) (l : LegId) : s.LegExit l (s.abandonSessions l) := by
  unfold State.abandonSessions
  split
  · exact (legExit_abandonSide s l .line).trans (legExit_abandonSide _ l .switch)
  · exact .refl l s

theorem legExit_leave (s : State) (l : LegId) : s.LegExit l ((s.abandonSessions l).leaveCarrying l) :=
  (legExit_abandonSessions s l).trans (legExit_leaveCarrying _ l)

theorem legExit_parkLeg (s : State) (l : LegId) : s.LegExit l (s.parkLeg l) :=
  (legExit_leave s l).trans (.modLeg _ l rfl)

theorem legExit_reportOutcome (s : State) (l : LegId) (st : Status) : s.LegExit l (s.reportOutcome l st) := by
  cases hf : (s.engine l).inFlight with
  | none => rw [State.reportOutcome_of_none hf]; exact .refl l s
  | some n =>
    rw [State.reportOutcome_of_some hf]
    refine .trans (t := s.modEngine l fun e => { e with inFlight := none }) (.of_mem ?_ (.refl s) rfl rfl)
      (.endAwaited _ l n (by rw [Leg.length_bringUpResult]; decide) st)
    exact { State.LegUpdate.refl l s with
      update := ⟨_, _, _, _, _, _, _, _, _, rfl⟩
      engines := fun k hk => by rw [State.engine_modEngine, if_neg hk]
      queue := by rw [State.engine_modEngine, if_pos rfl] }

theorem legExit_parkReported (s : State) (l : LegId) (st : Status) : s.LegExit l ((s.parkLeg l).reportOutcome l st) :=
  (legExit_parkLeg s l).trans (legExit_reportOutcome _ l st)

theorem legExit_parkByTask (s : State) (l : LegId) : s.LegExit l (s.parkByTask l) := by
  have hintent : s.LegExit l (s.modLeg l fun g => { g with intent := false }) := .modLeg s l rfl
  unfold State.parkByTask
  dsimp only
  split
  · exact hintent
  · exact hintent.trans (legExit_parkReported _ l _)

theorem legExit_parkByPower (s : State) (l : LegId) : s.LegExit l (s.parkByPower l) := by
  unfold State.parkByPower
  split
  · exact .refl l s
  · exact legExit_parkReported s l _

/-! ### A leg parked (R28, R29, R45) -/

/-- R28, R29: the items of a leg that parks: its sessions abandoned, its lock timer stopped, its relay ended. -/
def Leg.parked (g : Leg) : Leg :=
  { g.abandoned.modSides (fun d => { d with relay := d.relay.ended }) with lockTimer := none, state := .parked }

theorem State.leg_parkLeg (s : State) (l : LegId) : (s.parkLeg l).leg l = (s.leg l).parked := by
  rw [State.parkLeg, State.leg_modLeg_self, State.leg_leave]
  rfl

theorem Leg.parked_keeps (g : Leg) : g.parked.intent = g.intent ∧ g.parked.attempts = g.attempts ∧
    g.parked.givenUp = g.givenUp ∧ g.parked.setup = g.setup ∧ g.parked.grade = g.grade ∧ g.parked.cause = g.cause := by
  obtain ⟨-, hintent, hattempts, hgivenUp, hsetup, -⟩ := g.abandoned_keeps
  refine ⟨hintent, hattempts, hgivenUp, hsetup, ?_, ?_⟩
  all_goals
    unfold Leg.parked Leg.abandoned
    split <;> rfl

theorem Leg.side_parked (g : Leg) (d : Side) :
    g.parked.side d = { g.abandoned.side d with relay := (g.side d).relay.ended } := by
  obtain ⟨-, -, -, -, -, -, hrelay⟩ := g.abandoned_keeps
  rw [← hrelay d]
  cases d <;> rfl

/-- R27: a running session of a leg in TUNE is idle once the leg is PARKED. -/
theorem Leg.session_parked {g : Leg} {d : Side} (hs : g.state = .tune) (hd : (g.side d).session = .running) :
    (g.parked.side d).session = .idle := by
  rw [Leg.side_parked, Leg.side_abandoned, if_pos hs]
  exact (LegSide.abandoned_of_running hd).1

theorem State.notice_parkLeg (h : (s.leg l).state = .carrying) : (s.parkLeg l).summary.getLsbD (16 + l.val) = true :=
  State.notice_leaveCarrying (s := s.abandonSessions l) (by rw [State.state_abandonSessions, h])

/-- R41: the task in flight of a leg that parks. -/
theorem State.inFlight_parkLeg (s : State) (l : LegId) : (s.parkLeg l).engine l = s.engine l := by
  rw [State.parkLeg, State.engine_modLeg, State.engine_leave]

/-! ### LEG_PARK executed -/

theorem State.runLegTask_legPark (hp : e.patience.toNat ≤ 3) (hk : e.kind = .legPark) :
    u.runLegTask l e = some (u.runLegPark l e) := by
  have hg : e.patienceGood = true := decide_eq_true hp
  rw [State.runLegTask, hg, hk]
  exact rfl

theorem State.parkByTask_of_parked (hp : (s.leg l).state = .parked) :
    s.parkByTask l = s.modLeg l (fun g => { g with intent := false }) := by
  have hstate : ((s.modLeg l (fun g => { g with intent := false })).leg l).state = .parked := by
    rw [State.leg_modLeg_self]
    exact hp
  exact if_pos hstate

theorem State.parkByTask_of_out (hp : (s.leg l).state ≠ .parked) :
    s.parkByTask l = ((s.modLeg l (fun g => { g with intent := false })).parkLeg l).reportOutcome l .superseded := by
  have hstate : ((s.modLeg l (fun g => { g with intent := false })).leg l).state ≠ .parked := by
    rw [State.leg_modLeg_self]
    exact hp
  exact if_neg hstate

/-- R28: the leg after LEG_PARK. -/
theorem State.leg_parkByTask (s : State) (l : LegId) : (s.parkByTask l).leg l =
    if (s.leg l).state = .parked then { s.leg l with intent := false } else { s.leg l with intent := false }.parked := by
  split
  · next hp => rw [State.parkByTask_of_parked hp, State.leg_modLeg_self]
  · next hp => rw [State.parkByTask_of_out hp, State.leg_reportOutcome, State.leg_parkLeg, State.leg_modLeg_self]

/-- R28: what parking by a task leaves of the leg. -/
theorem Leg.parkedByTask_keeps (g : Leg) : ({ g with intent := false } : Leg).parked.intent = false ∧
    ({ g with intent := false } : Leg).parked.setup = g.setup ∧
    ({ g with intent := false } : Leg).parked.attempts = g.attempts := by
  obtain ⟨hintent, hattempts, -, hsetup, -⟩ := Leg.parked_keeps { g with intent := false }
  exact ⟨hintent, hsetup, hattempts⟩

/-- R28, R41, R45, R46: what a leg that LEG_PARK takes out of its state leaves. -/
theorem State.parkByTask_out (hp : (s.leg l).state ≠ .parked) :
    ((s.parkByTask l).leg l).lockTimer = none ∧
    (∀ d, (((s.parkByTask l).leg l).side d).relay = ⟨((s.leg l).side d).relay.armed, none, none, false⟩ ∧
      (((s.leg l).side d).session = .running → (s.leg l).state = .tune →
        (((s.parkByTask l).leg l).side d).session = .idle)) ∧
    ((s.leg l).state = .carrying → (s.parkByTask l).summary.getLsbD (16 + l.val) = true) ∧
    (s.parkByTask l).engine l = { s.engine l with inFlight := none } ∧
    ∀ m, (s.engine l).inFlight = some m →
      ((s.parkByTask l).slot m).state = .done ∧ ((s.parkByTask l).slot m).status = .superseded := by
  have hleg := s.leg_parkByTask l
  rw [if_neg hp] at hleg
  rw [hleg, State.parkByTask_of_out hp]
  have hengine : ((s.modLeg l (fun g => { g with intent := false })).parkLeg l).engine l = s.engine l := by
    rw [State.inFlight_parkLeg, State.engine_modLeg]
  refine ⟨rfl, fun d => ⟨?relay, fun hrun ht => ?session⟩, fun hc => ?notice, ?engine, fun m hm => ?slot⟩
  case relay =>
    rw [Leg.side_parked]
    cases d <;> rfl
  case session =>
    have hd : (({ s.leg l with intent := false } : Leg).side d).session = .running := by cases d <;> exact hrun
    exact Leg.session_parked ht hd
  case notice =>
    refine (legUpdate_reportOutcome _ l _).summary _ (State.notice_parkLeg ?_)
    rw [State.leg_modLeg_self]
    exact hc
  case engine => rw [State.engine_reportOutcome, if_pos rfl, hengine]
  case slot =>
    rw [State.slot_reportOutcome, hengine, if_pos hm]
    exact ⟨rfl, rfl⟩

/-! ### An awaited leg task that leaves and ends -/

/-- R140: the slot of a task taken, once it has ended on a state that a leg's exit left. -/
theorem State.LegExit.done (hu : u = s.takenTask n k h args) (hx : u.LegExit l t) (result : List Byte) (st : Status) : (t.endAwaited n result st).slot n = ⟨.done, st, false⟩ := by
  have hasked : (t.slot n).cancelAsked = false := by
    rw [hx.asked, hu, State.slot_takenTask, if_pos rfl]
  rw [State.slot_endAwaited, if_pos rfl]
  exact congrArg (fun b => (⟨.done, st, b⟩ : Slot)) hasked

theorem State.LegExit.carried (ha : s.AcceptsTask n) (hu : u = s.takenTask n k h args) (hx : u.LegExit l t)
    (hfixed : t.fixed = u.fixed) : s.Carried t n k h args := by
  subst hu
  obtain ⟨-, -, -, -, hfaults, hqueue, hlist⟩ := State.takenTask_keeps (k := k) (h := h) (args := args) ha rfl
  obtain ⟨-, -, -, -, ⟨hrecord, hlater⟩, -, -, hqueue', -, hlist', -⟩ := hx.toUpdate.registers
  exact State.carried_of_fixed ha hfixed (fun i hi => hx.slotByte (State.takenTask_wf ha.wf) n hi)
    ⟨hrecord.trans hfaults.1, hlater.trans hfaults.2⟩ (hqueue'.trans hqueue) (hlist'.trans hlist)

/-- R144: the result bytes of a task that ends. -/
theorem State.slotByte_endAwaited (hw : s.mem.wf = true) (m : SlotId) (result : List Byte) (st : Status) {j : Nat}
    (hj : j < result.length) (hr : result.length ≤ 0x80) :
    (s.endAwaited n result st).slotByte m (0x80 + j) =
      if m = n then result.getD j 0 else s.slotByte m (0x80 + j) := by
  rw [State.slotByte, State.endAwaited_mem, Memory.read_writeBytes _ _ _ _ hw]
  by_cases hm : m = n
  · subst hm
    rw [if_pos rfl, if_pos (by omega), show slotBase m + (0x80 + j) - (slotBase m + 0x80) = j by omega]
  · rw [if_neg hm, if_neg]
    · exact rfl
    · intro hin
      refine hm (Fin.ext ?_)
      simp only [slotBase] at hin
      omega

theorem getLsbD_slotBit_self (n : SlotId) : (slotBit n).getLsbD n.val = true := by
  revert n
  decide

/-- Settles O45: the leg's parking, and then the end of the task. -/
theorem parkTaskParksTheLeg : Obligations.ParkTaskParksTheLeg := by
  intro n h l s ha hh
  have hl : ([] : List Byte).length ≤ 0x10 := Nat.zero_le _
  obtain ⟨u, hu⟩ : ∃ u, u = s.takenTask n .legPark h [] := ⟨_, rfl⟩
  obtain ⟨⟨hpower, -, -, -, hlegs, hengines⟩, hmap, hlanes, -, -⟩ := State.takenTask_keeps ha hu
  have hleg : u.leg l = s.leg l := hlegs l List.not_mem_nil
  have hengine : u.engine l = s.engine l := hengines l List.not_mem_nil
  have hexit := legExit_parkByTask u l
  have hup := hexit.toUpdate
  have hwf : u.mem.wf = true := hu ▸ State.takenTask_wf ha.wf
  obtain ⟨t, ht⟩ : ∃ t, t = (u.parkByTask l).endAwaited n [(s.leg l).state.code] .ok := ⟨_, rfl⟩
  have hrun : u.runLegTask l (awaitedEntry n .legPark h) = some t := by
    rw [State.runLegTask_legPark hh.patience_le rfl, ht, ← hleg]
    exact rfl
  have hend : u.LegExit l t := ht ▸ hexit.trans (.endAwaited _ l n (by simp) _)
  have htleg (m : LegId) : t.leg m = (u.parkByTask l).leg m := by rw [ht, State.leg_endAwaited]
  have htengine : t.engine l = (u.parkByTask l).engine l := by rw [ht, State.engine_endAwaited]
  have hparked := u.leg_parkByTask l
  rw [hleg, ← htleg] at hparked
  have hfixed : t.fixed = u.fixed := by
    rw [ht]
    simp
  have hexec : exec (.legPark n h) s = .next t := congrArg Host.Outcome.next (State.handOverTask_runs ha hh rfl hl
    (hu ▸ hrun) (by rw [hend.toUpdate.queue, hengine]; exact ha.queue_nil l))
  obtain ⟨-, hpower', -, hmap', -⟩ := hend.toUpdate.registers
  have hkeeps : (t.leg l).state = .parked ∧ (t.leg l).intent = false ∧ (t.leg l).setup = (s.leg l).setup ∧
      (t.leg l).attempts = (s.leg l).attempts := by
    obtain ⟨hintent, hsetup, hattempts⟩ := (s.leg l).parkedByTask_keeps
    rw [hparked]
    split
    · next hp => exact ⟨hp, rfl, rfl, rfl⟩
    · exact ⟨rfl, hintent, hsetup, hattempts⟩
  obtain ⟨hstate, hintent, hsetup, hattempts⟩ := hkeeps
  refine ⟨t, hexec, State.LegExit.carried ha hu hend hfixed, hstate, hintent, ?slot, ?byte, ?bit, hsetup,
    hattempts, fun x => ?lanes, hpower.trans hpower', hmap.trans hmap', fun m hm => ?legs, fun hp => ?parked, fun hp => ?out⟩
  case slot => rw [ht]; exact State.LegExit.done hu hexit _ _
  case byte =>
    rw [ht]
    exact (State.slotByte_endAwaited (hexit.wf hwf) n _ _ (j := 0) (by simp) (by simp)).trans (if_pos rfl)
  case bit => rw [ht, State.endAwaited_summary, BitVec.getLsbD_or, getLsbD_slotBit_self, Bool.or_true]
  case lanes =>
    obtain ⟨hpresence, hlocked, hcounters, -⟩ := hend.toUpdate.lanes x
    rw [hlanes x List.not_mem_nil] at hpresence hlocked hcounters
    exact ⟨(hend.taps x).trans (by rw [hlanes x List.not_mem_nil]), hcounters, hpresence, hlocked⟩
  case legs => exact (hend.toUpdate.sameLegsBut m hm).trans (hlegs m List.not_mem_nil)
  case parked =>
    have hended : t = (u.endAwaited n [(s.leg l).state.code] .ok).modLeg l (fun g => { g with intent := false }) := by
      rw [ht, State.parkByTask_of_parked (hleg ▸ hp), State.endAwaited_modLeg]
    rw [hu, hp] at hended
    obtain ⟨hleg', hengine', -, hlanes'⟩ := State.leg_endedLeg (s := s) (n := n) (k := .legPark) (h := h) (args := [])
      (l := l) (fun g => { g with intent := false }) [0] .ok
    rw [hended]
    exact ⟨hleg', (State.taskDone_endAwaited ha hl (.refl _) (by simp) _).modLeg,
      (State.sameOutsideLegs_endAwaited (.refl _) _ _).modLeg, hengine', hlanes'⟩
  case out =>
    obtain ⟨htimer, hsides, hnotice, hflight, hslots⟩ := State.parkByTask_out (s := u) (l := l) (hleg ▸ hp)
    rw [← htleg, hleg] at *
    refine ⟨htimer, hsides, fun hc => ?_, ?_, fun m hm hne => ?_⟩
    · rw [ht, State.endAwaited_summary, BitVec.getLsbD_or, hnotice hc, Bool.true_or]
    · rw [htengine, hflight]
    · rw [ht, State.slot_endAwaited, if_neg hne]
      exact hslots m (hengine ▸ hm)

end Sys2Proof.Machine
end

section
/-! A task handed over, whatever its class and whatever waits in its leg's queue (R138, R139), and the intake's checks
(O53). -/

namespace Sys2Proof.Machine

variable {s t u : State} {n : SlotId} {k : TaskKind} {h : TaskHeader} {l : LegId} {args : List Byte} {st : Status}

/-! ### A slot that the intake takes at once -/

/-- R136 to R138: a task handed over in slot n is considered at once: the line answers, the device state is READY, the
intake is not held, the slot is EMPTY and no slot waits. -/
structure State.TakesTask (s : State) (n : SlotId) : Prop where
  free : s.LineFree
  ready : s.device = .ready
  unheld : s.holdIntake = false ∨ s.faultRecord = none
  empty : (s.slot n).state = .empty
  list : s.handOver = []
  wf : s.mem.wf = true

theorem State.AcceptsTask.takes (ha : s.AcceptsTask n) : s.TakesTask n := by
  obtain ⟨hfree, hready, hheld, hempty, ⟨hlist, -⟩, hw⟩ := ha
  exact ⟨hfree, hready, hheld, hempty, hlist, hw⟩

/-- R133: the bytes of a task written, with the line interface after the transaction. -/
def State.wroteTask (s : State) (n : SlotId) (k : TaskKind) (h : TaskHeader) (args : List Byte) : State :=
  { s with
    acknowledged := true, offset := BitVec.ofNat 16 (slotBase n + (0x10 + args.length)), writeOpen := none
    mem := (s.mem.writeBytes (slotBase n) [k.code, h.cls, h.leg, h.patience, h.label0, h.label1]).writeBytes
      (slotBase n + 0x10) args }

/-- R145: the entry that a posted task makes. -/
def State.postedEntry (s : State) (n : SlotId) (k : TaskKind) (h : TaskHeader) (args : List Byte) : Entry :=
  ⟨k, false, n, k.code, h.leg, h.patience, h.label0, h.label1,
    (List.range 0x10).map (fun i => (s.wroteTask n k h args).slotByte n (0x10 + i)), false, none⟩

theorem State.vacate_self (he : (s.slot n).state = .empty) :
    s.slots.set n { s.slots[n] with state := .empty } = s.slots := by
  have hslot : ({ s.slots[n] with state := .empty } : Slot) = s.slots[n] :=
    congrArg (fun st : SlotState => ({ s.slots[n] with state := st } : Slot)) he.symm
  rw [hslot]
  exact Vector.set_getElem_self _

theorem State.wroteTask_slotByte (s : State) (n : SlotId) (k : TaskKind) (h : TaskHeader) (args : List Byte) (i : Nat) :
    (s.wroteTask n k h args).slotByte n i = (s.filledTask n k h args).slotByte n i := rfl

section
variable (hs : s.TakesTask n)
include hs

/-- R139: the slot of a posted task that is taken or refused becomes EMPTY. -/
theorem State.takeSlot_posted : (s.filledTask n k h args).takeSlot n false = s.wroteTask n k h args := by
  have hslots := State.vacate_self hs.empty
  simp only [State.takeSlot, State.leaveList, State.filledTask, State.wroteTask, State.modSlot, hs.list]
  simp only [Vector.set_set, List.nil_append, List.filter_cons, ne_eq, not_true_eq_false, decide_false,
    Bool.false_eq_true, if_false, List.filter_nil]
  simpa using hslots

theorem State.handOverTask_takes {g : Target} (hl : args.length ≤ 0x10)
    (hcheck : (s.filledTask n k h args).checkSlot n = .ok (k, g)) (hroom : s.hasRoom g = true) :
    s.handOverTask n k h args = (s.filledTask n k h args).takeTask n k g := by
  have hroom' : (s.filledTask n k h args).hasRoom g = true := by cases g <;> exact hroom
  rw [State.handOverTask_intake n k h args hs.free (by rw [hs.ready]; nofun) hs.empty hl,
    State.intake_takes (n := n) (by simp [State.filledTask, hs.list]) ?held hcheck hroom']
  case held => rcases hs.unheld with hc | hc <;> simp [State.intakeHeld, State.filledTask, hc]

theorem State.handOverTask_refuses (hl : args.length ≤ 0x10)
    (hcheck : (s.filledTask n k h args).checkSlot n = .error st) :
    s.handOverTask n k h args = (s.filledTask n k h args).refuseSlot n st := by
  rw [State.handOverTask_intake n k h args hs.free (by rw [hs.ready]; nofun) hs.empty hl,
    State.intake_refuses (n := n) (by simp [State.filledTask, hs.list]) ?held hcheck]
  case held => rcases hs.unheld with hc | hc <;> simp [State.intakeHeld, State.filledTask, hc]

/-- R138: an awaited task refused at intake. -/
theorem State.handOverTask_refused (hl : args.length ≤ 0x10) (hc : h.cls ≠ 1)
    (hcheck : (s.filledTask n k h args).checkSlot n = .error st) :
    s.handOverTask n k h args = (s.takenTask n k h args).endAwaited n [] st := by
  have hcls : (s.filledTask n k h args).slotByte n 1 ≠ 1 := by simpa [State.filledTask_slotByte hs.wf] using hc
  rw [State.handOverTask_refuses hs hl hcheck, State.refuseSlot_awaited _ hcls, State.takeSlot_filledTask hs.list]

/-- R138: a posted task refused at intake. -/
theorem State.handOverTask_reported (hl : args.length ≤ 0x10) (hc : h.cls = 1)
    (hcheck : (s.filledTask n k h args).checkSlot n = .error st) :
    s.handOverTask n k h args = (s.wroteTask n k h args).endPosted n k.code h.leg h.label0 h.label1 st := by
  have hbyte (i : Nat) := State.filledTask_slotByte (n := n) (k := k) (h := h) (args := args) hs.wf i
  have hcls : (s.filledTask n k h args).slotByte n 1 = 1 := by simp [hbyte, hc]
  have h0 : (s.filledTask n k h args).slotByte n 0 = k.code := by simp [hbyte]
  have h2 : (s.filledTask n k h args).slotByte n 2 = h.leg := by simp [hbyte]
  have h4 : (s.filledTask n k h args).slotByte n 4 = h.label0 := by simp [hbyte]
  have h5 : (s.filledTask n k h args).slotByte n 5 = h.label1 := by simp [hbyte]
  have hrefuse : (s.filledTask n k h args).refuseSlot n st =
      ((s.filledTask n k h args).takeSlot n false).endPosted n ((s.filledTask n k h args).slotByte n 0)
        ((s.filledTask n k h args).slotByte n 2) ((s.filledTask n k h args).slotByte n 4)
        ((s.filledTask n k h args).slotByte n 5) st := by
    unfold State.refuseSlot State.takeSlot
    dsimp only
    rw [hcls]
    exact rfl
  rw [State.handOverTask_refuses hs hl hcheck, hrefuse, State.takeSlot_posted hs, h0, h2, h4, h5]

/-- R138: the header of a leg task for a used leg passes the intake's checks. -/
theorem State.checkSlot_leg (hk : k.device = false) (hp : h.cls = 1 → k.postable = true) (hleg : h.leg.toNat = l.val)
    (hu : s.used l = true) : (s.filledTask n k h args).checkSlot n = .ok (k, .leg l) := by
  have hbyte (i : Nat) := State.filledTask_slotByte (n := n) (k := k) (h := h) (args := args) hs.wf i
  have hu' : (s.filledTask n k h args).used l = true := hu
  have h0 : (s.filledTask n k h args).slotByte n 0 = k.code := by simp [hbyte]
  have h1 : (s.filledTask n k h args).slotByte n 1 = h.cls := by simp [hbyte]
  have h2 : (s.filledTask n k h args).slotByte n 2 = h.leg := by simp [hbyte]
  have hpost : ¬(h.cls = 1#8 ∧ k.postable = false) := fun hb => absurd (hp hb.1) (by simp [hb.2])
  simp [State.checkSlot, h0, h1, h2, hpost, hk, hu', decodeFin_of_toNat hleg]

/-- R139, R146: an awaited leg task joins its queue, which its engine examines. -/
theorem State.handOverTask_joins (hl : args.length ≤ 0x10) (hk : k.device = false) (hc : h.cls ≠ 1)
    (hleg : h.leg.toNat = l.val) (hu : s.used l = true) (hroom : (s.engine l).queue.length < 8) :
    s.handOverTask n k h args = ((s.takenTask n k h args).setQueue l
      ((s.engine l).queue ++ [awaitedEntry n k h])).examineLeg l := by
  rw [State.handOverTask_takes hs hl (State.checkSlot_leg hs hk (fun h1 => absurd h1 hc) hleg hu)
    (decide_eq_true hroom)]
  simp only [State.takeTask, State.makeEntry_filledTask hs.wf hc]
  rw [show (awaitedEntry n k h).awaited = true from rfl, State.takeSlot_filledTask hs.list]
  exact rfl

theorem State.makeEntry_posted (hc : h.cls = 1) : (s.filledTask n k h args).makeEntry n k = s.postedEntry n k h args := by
  have hbyte (i : Nat) := State.filledTask_slotByte (n := n) (k := k) (h := h) (args := args) hs.wf i
  simp only [State.makeEntry, State.postedEntry, State.wroteTask_slotByte]
  simp [hbyte 0, hbyte 1, hbyte 2, hbyte 3, hbyte 4, hbyte 5, hc]

/-- R139, R146: a posted leg task joins its queue, its slot EMPTY again. -/
theorem State.handOverTask_posts (hl : args.length ≤ 0x10) (hk : k.device = false) (hp : k.postable = true)
    (hc : h.cls = 1) (hleg : h.leg.toNat = l.val) (hu : s.used l = true) (hroom : (s.engine l).queue.length < 8) :
    s.handOverTask n k h args = ((s.wroteTask n k h args).setQueue l
      ((s.engine l).queue ++ [s.postedEntry n k h args])).examineLeg l := by
  rw [State.handOverTask_takes hs hl (State.checkSlot_leg hs hk (fun _ => hp) hleg hu) (decide_eq_true hroom)]
  simp only [State.takeTask, State.makeEntry_posted hs hc]
  rw [show (s.postedEntry n k h args).awaited = false from rfl, State.takeSlot_posted hs]
  exact rfl

/-! ### The bytes written -/

theorem State.taskWritten_wroteTask : s.TaskWritten (s.wroteTask n k h args) n k h args :=
  State.taskWritten_of_slotByte hs.wf fun i hi => (State.takenTask_slotByte i hi).symm

theorem State.wroteTask_sameBytesOutside (hl : args.length ≤ 0x10) : s.SameBytesOutside (s.wroteTask n k h args) n := by
  intro a ha
  show Memory.read (Memory.writeBytes (Memory.writeBytes _ _ _) _ _) _ = _
  rw [Memory.read_writeBytes _ _ _ _ (Memory.wf_writeBytes _ _ _ hs.wf), if_neg (by omega),
    Memory.read_writeBytes _ _ _ _ hs.wf, if_neg]
  simp only [List.length_cons, List.length_nil]
  omega

end

/-- What the writing of a task leaves of everything but its bytes. -/
theorem State.wroteTask_keeps (hr : s.LineFree) (hu : u = s.wroteTask n k h args) :
    s.SameSlotsBut [] u ∧ s.SamePart u ∧ s.SameTasks u ∧ s.SamePagesBut [] u ∧ s.SameAttention u ∧ s.SameFaults u ∧
      s.LineAfter u (slotBase n + (0x10 + args.length)) := by
  obtain ⟨-, -, -, hread⟩ := hr
  subst hu
  refine ⟨fun _ _ => rfl, ⟨⟨rfl, rfl, rfl⟩, ⟨rfl, rfl, rfl⟩, ⟨rfl, rfl, rfl, rfl, rfl, rfl⟩, fun _ => rfl, fun _ _ => rfl,
    fun _ _ => rfl⟩, ⟨fun _ => rfl, rfl, rfl, rfl, rfl⟩, fun _ _ => rfl, ⟨rfl, rfl, rfl, rfl, rfl⟩, ⟨rfl, rfl⟩, ⟨rfl, rfl, hread, rfl, rfl⟩⟩

/-! ### O53 -/

/-- R138: a leg task for a leg code that names no used leg. -/
theorem State.checkSlot_noLeg (hs : s.TakesTask n) (hk : k.device = false) (hp : h.cls = 1 → k.postable = true)
    (hleg : ∀ l : LegId, l.val = h.leg.toNat → s.used l = false) :
    (s.filledTask n k h args).checkSlot n = .error .badArgument := by
  have hbyte (i : Nat) := State.filledTask_slotByte (n := n) (k := k) (h := h) (args := args) hs.wf i
  have h0 : (s.filledTask n k h args).slotByte n 0 = k.code := by simp [hbyte]
  have h1 : (s.filledTask n k h args).slotByte n 1 = h.cls := by simp [hbyte]
  have h2 : (s.filledTask n k h args).slotByte n 2 = h.leg := by simp [hbyte]
  have hpost : ¬(h.cls = 1#8 ∧ k.postable = false) := fun hb => absurd (hp hb.1) (by simp [hb.2])
  cases hd : decodeFin 4 h.leg with
  | none => simp [State.checkSlot, h0, h1, h2, hpost, hk, hd]
  | some l =>
    have hu : (s.filledTask n k h args).used l = false := hleg l (val_of_decodeFin hd)
    simp [State.checkSlot, h0, h1, h2, hpost, hk, hd, hu]

theorem State.checkSlot_notPostable (hs : s.TakesTask n) (hc : h.cls = 1) (hp : k.postable = false) :
    (s.filledTask n k h args).checkSlot n = .error .notPostable := by
  have hbyte (i : Nat) := State.filledTask_slotByte (n := n) (k := k) (h := h) (args := args) hs.wf i
  have h0 : (s.filledTask n k h args).slotByte n 0 = k.code := by simp [hbyte]
  have h1 : (s.filledTask n k h args).slotByte n 1 = h.cls := by simp [hbyte]
  simp [State.checkSlot, h0, h1, hc, hp]

/-- R144: a posted task that ends OK reports nothing. -/
theorem State.endPosted_ok (s : State) (n : SlotId) (kind leg label0 label1 : Byte) :
    s.endPosted n kind leg label0 label1 .ok = s := rfl

/-- R28: a posted LEG_PARK of a PARKED leg. -/
theorem State.handOverTask_parkPosted (ha : s.AcceptsTask n) (hc : h.cls = 1) (hleg : h.leg.toNat = l.val)
    (hu : s.used l = true) (hp : h.patience.toNat ≤ 3) (hparked : (s.leg l).state = .parked) :
    s.handOverTask n .legPark h [] = (s.wroteTask n .legPark h []).modLeg l (fun g => { g with intent := false }) := by
  let u := s.wroteTask n .legPark h []
  have hq : (s.engine l).queue = [] := ha.queue_nil l
  have hrun : u.runLegTask l (s.postedEntry n .legPark h []) = some (u.modLeg l (fun g => { g with intent := false })) := by
    have hpark := State.runLegTask_legPark (u := u) (l := l) (e := s.postedEntry n .legPark h []) hp rfl
    refine hpark.trans (congrArg some ?_)
    rw [State.runLegPark, State.parkByTask_of_parked (s := u) hparked]
    exact rfl
  rw [State.handOverTask_posts ha.takes (Nat.zero_le _) rfl rfl hc hleg hu (by rw [hq]; decide), hq, List.nil_append]
  exact State.examineLeg_single hq hrun hq

theorem State.endPosted_notPostable (s : State) (n : SlotId) (leg label0 label1 : Byte) :
    s.endPosted n (TaskKind.code .snapshot) leg label0 label1 .notPostable =
      s.reportFault ⟨.posted, .notPostable, n.val, 8, leg, label0, label1, 0, 0⟩ := rfl

theorem State.FaultReported.of {r : FaultRecord} (h : u.FaultReported t r) (hf : s.SameFaults u)
    (hs : u.summary = s.summary) : s.FaultReported t r := by
  obtain ⟨hrecord, hlater⟩ := hf
  rw [State.FaultReported, hrecord, hlater, hs] at h
  exact h

/-- R168: a fault reported leaves the pins, the device state, the settings of the attention unit and the line. -/
theorem State.reportFault_registers (s : State) (r : FaultRecord) : s.SamePins (s.reportFault r) ∧
    s.SameDevice (s.reportFault r) ∧ s.SameSettings (s.reportFault r) ∧ s.SameLine (s.reportFault r) := by
  obtain ⟨_, _, _, _, h⟩ := s.reportFault_eq_update r
  rw [h]
  exact ⟨⟨rfl, rfl, rfl⟩, ⟨rfl, rfl, rfl, rfl, rfl, rfl⟩, ⟨rfl, rfl, rfl⟩, ⟨rfl, rfl, rfl, rfl, rfl⟩⟩

/-- Settles O53: two refusals at intake, and a posted task that runs. -/
theorem intakeChecksTheHeader : Obligations.IntakeChecksTheHeader := by
  intro n h s ha
  have hs := ha.takes
  refine ⟨fun hc hleg => ?refused, fun hc side clearAfter => ?reported, fun hc l hleg hu hp hparked => ?runs⟩
  case refused =>
    exact ⟨_, congrArg Host.Outcome.next (State.handOverTask_refused hs (Nat.zero_le _) hc
      (State.checkSlot_noLeg hs rfl (fun _ => rfl) hleg)), State.carried_endAwaited ha (.refl _) _ _,
      State.taskRefused_endAwaited ha (Nat.zero_le _) _⟩
  case reported =>
    have hl : [side, clearAfter].length ≤ 0x10 := by simp
    have hexec := State.handOverTask_reported (k := .snapshot) hs hl hc (State.checkSlot_notPostable hs hc rfl)
    have hwritten := State.taskWritten_wroteTask (k := .snapshot) (h := h) (args := [side, clearAfter]) hs
    have houtside := State.wroteTask_sameBytesOutside (k := .snapshot) (h := h) hs hl
    refine ⟨_, congrArg Host.Outcome.next hexec, ?_⟩
    obtain ⟨u, hu⟩ : ∃ u, u = s.wroteTask n .snapshot h [side, clearAfter] := ⟨_, rfl⟩
    obtain ⟨hslots, ⟨hpins, hpower, hdevice, hmap, hlanes, hlegs⟩, htasks, hpages, hattention, hfaults, hline⟩ := State.wroteTask_keeps hs.free hu
    rw [← hu] at hwritten houtside ⊢
    rw [State.endPosted_notPostable]
    have hreport := u.faultReported_reportFault ⟨.posted, .notPostable, n.val, 8, h.leg, h.label0, h.label1, 0, 0⟩
    obtain ⟨hpower', hmap', hlanes', hlegs', hpages', hslots', ⟨hengines', hqueue', hwait', hlist', howed'⟩, hbytes'⟩ :=
      u.reportFault_keeps ⟨.posted, .notPostable, n.val, 8, h.leg, h.label0, h.label1, 0, 0⟩
    obtain ⟨hengines, hqueue, hwait, hlist, howed⟩ := htasks
    obtain ⟨hpins', hdevice', hsettings', hline'⟩ :=
      u.reportFault_registers ⟨.posted, .notPostable, n.val, 8, h.leg, h.label0, h.label1, 0, 0⟩
    have hbyte (m : SlotId) (i : Nat) := hbytes' (slotBase m + i)
    refine ⟨State.taskWritten_of_slotByte ha.wf fun i hi => ?_, fun a hout => (hbytes' a).trans (houtside a hout),
      fun m hm => (hslots' m hm).trans (hslots m hm), hreport.of hfaults hattention.1,
      ⟨hpins.trans hpins', hpower.trans hpower', hdevice.trans hdevice', hmap.trans hmap', hlanes.trans hlanes',
        hlegs.trans hlegs'⟩,
      ⟨fun m => (hengines' m).trans (hengines m), hqueue'.trans hqueue, hwait'.trans hwait, hlist'.trans hlist,
        howed'.trans howed⟩, hpages.trans hpages', ?_, ?_⟩
    · rw [State.slotByte, hbyte]
      rw [State.takenTask_slotByte i hi, hu]
      exact rfl
    · obtain ⟨henables, hmode, hhold⟩ := hsettings'
      obtain ⟨-, henables₀, hmode₀, hhold₀, -⟩ := hattention
      exact ⟨henables.trans henables₀, hmode.trans hmode₀, hhold.trans hhold₀⟩
    · obtain ⟨hoffset, hwrite, hread, hack, hdata⟩ := hline'
      obtain ⟨hoffset₀, hwrite₀, hread₀, hack₀, hdata₀⟩ := hline
      exact ⟨hoffset.trans hoffset₀, hwrite.trans hwrite₀, hread.trans hread₀, hack.trans hack₀, hdata.trans hdata₀⟩
  case runs =>
    have hexec := State.handOverTask_parkPosted ha hc hleg.symm hu hp hparked
    have hwritten := State.taskWritten_wroteTask (k := .legPark) (h := h) (args := []) hs
    have houtside := State.wroteTask_sameBytesOutside (k := .legPark) (h := h) (args := []) hs (Nat.zero_le _)
    refine ⟨_, congrArg Host.Outcome.next hexec, ?_⟩
    obtain ⟨u, hu⟩ : ∃ u, u = s.wroteTask n .legPark h [] := ⟨_, rfl⟩
    obtain ⟨hslots, ⟨hpins, hpower, hdevice, hmap, hlanes, hlegs⟩, htasks, hpages, hattention, hfaults, hline⟩ := State.wroteTask_keeps hs.free hu
    rw [← hu] at hwritten houtside ⊢
    refine ⟨hwritten, ?_, houtside, hslots, hattention, hfaults, htasks, hpins, hpower, hdevice, hmap, hlanes, fun m hm => ?_, hpages, hline⟩
    · rw [State.leg_modLeg_self, hlegs l List.not_mem_nil]
    · exact (State.sameLegsBut_modLeg u l _ m hm).trans (hlegs m List.not_mem_nil)

end Sys2Proof.Machine
end

section
/-! The scans of a leg that leaves CARRYING (R121), and what a leg's event leaves of one task and of a lane side's
monitor. -/

namespace Sys2Proof.Machine

variable {s t u : State} {n m slot : SlotId} {l k : LegId} {p q : PageId} {left : Nat}

/-! ### One item among many -/

/-- A walk whose step changes its own item, by that item alone, changes each item of the list as from the start. -/
theorem foldl_local {σ ι β : Type} [DecidableEq ι] {f : σ → ι → σ} (view : σ → ι → β) (F : β → β)
    (h : ∀ s i j, view (f s i) j = if j = i then F (view s i) else view s j) {is : List ι} (hn : is.Nodup) (s : σ) (j : ι) :
    view (is.foldl f s) j = if j ∈ is then F (view s j) else view s j := by
  induction is generalizing s with
  | nil => simp
  | cons i is ih =>
    obtain ⟨hi, his⟩ := List.nodup_cons.mp hn
    refine (ih his (f s i)).trans ?_
    rw [h]
    by_cases hj : j = i
    · subst hj
      simp [hi]
    · simp [hj]

theorem mem_allPages (p : PageId) : p ∈ allPages := by
  revert p
  decide

/-! ### One task that an event leaves -/

/-- The slot of a task and its bytes stand, and its summary bit is not cleared. -/
structure State.KeepsTask (m : SlotId) (s t : State) : Prop where
  slot : t.slot m = s.slot m
  wf : s.mem.wf = true → t.mem.wf = true
  bytes : s.mem.wf = true → ∀ i, i < 0x100 → t.slotByte m i = s.slotByte m i
  summary : s.summary.getLsbD m.val = true → t.summary.getLsbD m.val = true

namespace State.KeepsTask

theorem refl (m : SlotId) (s : State) : s.KeepsTask m s := ⟨rfl, id, fun _ _ _ => rfl, id⟩

theorem trans (h : s.KeepsTask m t) (h' : t.KeepsTask m u) : s.KeepsTask m u :=
  ⟨h'.slot.trans h.slot, fun hw => h'.wf (h.wf hw), fun hw i hi => (h'.bytes (h.wf hw) i hi).trans (h.bytes hw i hi),
    fun hs => h'.summary (h.summary hs)⟩

theorem of_same (hslots : t.slots = s.slots) (hmem : t.mem = s.mem)
    (hsummary : s.summary.getLsbD m.val = true → t.summary.getLsbD m.val = true) : s.KeepsTask m t :=
  ⟨by rw [State.slot, hslots]; rfl, fun hw => hmem ▸ hw, fun _ _ _ => by rw [State.slotByte, hmem]; rfl, hsummary⟩

theorem endAwaited (s : State) (hn : n ≠ m) {result : List Byte} (hr : result.length ≤ 0x80) (st : Status) :
    s.KeepsTask m (s.endAwaited n result st) where
  slot := by rw [State.slot_endAwaited, if_neg (Ne.symm hn)]
  wf hw := by
    rw [State.endAwaited_mem]
    exact Memory.wf_writeBytes _ _ _ hw
  bytes hw i hi := by
    rw [State.slotByte, State.endAwaited_mem, Memory.read_writeBytes _ _ _ _ hw, if_neg]
    · exact rfl
    · intro hin
      refine hn (Fin.ext ?_)
      simp only [slotBase] at hin
      omega
  summary hs := by rw [State.endAwaited_summary, BitVec.getLsbD_or, hs, Bool.true_or]

theorem foldl {α : Type} {f : State → α → State} (h : ∀ (s : State) (a : α), s.KeepsTask m (f s a)) (as : List α) (s : State) :
    s.KeepsTask m (as.foldl f s) := by
  induction as generalizing s with
  | nil => exact refl m s
  | cons a as ih => exact (h s a).trans (ih _)

end State.KeepsTask

/-! ### The monitors that an event leaves -/

/-- No monitor comes to be SCANNING. -/
def State.StartsNoScan (s t : State) : Prop := ∀ y, (s.lane y).monitor ≠ .scanning → (t.lane y).monitor ≠ .scanning

namespace State.StartsNoScan

theorem refl (s : State) : s.StartsNoScan s := fun _ => id

theorem trans (h : s.StartsNoScan t) (h' : t.StartsNoScan u) : s.StartsNoScan u := fun y hy => h' y (h y hy)

theorem of_lanes (h : ∀ y, t.lane y = s.lane y) : s.StartsNoScan t := fun y hy => by rwa [h]

theorem modLane (s : State) (x : LaneSide) {f : LaneState → LaneState}
    (hf : ∀ v : LaneState, v.monitor ≠ .scanning → (f v).monitor ≠ .scanning) : s.StartsNoScan (s.modLane x f) :=
  fun y hy => by
    rw [State.lane_modLane]
    split
    · next hx => exact hf _ (hx ▸ hy)
    · exact hy

theorem modLanes (xs : List LaneSide) (s : State) {f : LaneState → LaneState}
    (hf : ∀ v : LaneState, v.monitor ≠ .scanning → (f v).monitor ≠ .scanning) : s.StartsNoScan (s.modLanes xs f) := by
  induction xs generalizing s with
  | nil => exact refl s
  | cons x xs ih => exact (modLane s x hf).trans (ih _)

theorem foldl {α : Type} {f : State → α → State} (h : ∀ (s : State) (a : α), s.StartsNoScan (f s a)) (as : List α) (s : State) :
    s.StartsNoScan (as.foldl f s) := by
  induction as generalizing s with
  | nil => exact refl s
  | cons a as ih => exact (h s a).trans (ih _)

end State.StartsNoScan

theorem Monitor.discardReading_ne {v : Monitor} (h : v ≠ .scanning) : v.discardReading ≠ .scanning := by
  cases v with
  | scanning => exact absurd rfl h
  | _ => nofun

/-! ### A scan interrupted -/

/-- R121: the scan of a page, of this leg and of the task of this slot. -/
def Page.Scans (c : Page) (l : LegId) (m : SlotId) : Prop := c.leg = l ∧ ∃ left, c.state = .busy m left

/-- R121: a page whose scan is interrupted if it is of this leg. -/
def Page.interrupted (l : LegId) (c : Page) : Page :=
  match c.state with
  | .busy _ _ => if c.leg = l then { c with state := .held, outcome := .interrupted } else c
  | _ => c

theorem Page.interrupted_of_scans {c : Page} (h : c.Scans l m) :
    c.interrupted l = { c with state := .held, outcome := .interrupted } := by
  obtain ⟨hl, left, hs⟩ := h
  unfold Page.interrupted
  rw [hs]
  exact if_pos hl

theorem Page.interrupted_of_not {c : Page} (h : ∀ m, ¬c.Scans l m) : c.interrupted l = c := by
  unfold Page.interrupted
  split
  · next m left hs => exact if_neg fun hl => h m ⟨hl, left, hs⟩
  · rfl

theorem Page.not_scans_interrupted (c : Page) (m : SlotId) : ¬(c.interrupted l).Scans l m := by
  rintro ⟨hl, left, hs⟩
  by_cases h : ∃ m, c.Scans l m
  · obtain ⟨m', h⟩ := h
    rw [Page.interrupted_of_scans h] at hs
    exact absurd hs nofun
  · push Not at h
    rw [Page.interrupted_of_not h] at hl hs
    exact h m ⟨hl, left, hs⟩

theorem State.interruptScan_of_scans (h : (s.page p).Scans l slot) :
    s.interruptScan l p = s.endScan p slot .interrupted .interrupted := by
  obtain ⟨hl, left, hs⟩ := h
  rw [State.interruptScan, hs]
  exact if_pos hl

theorem State.interruptScan_of_not (h : ∀ m, ¬(s.page p).Scans l m) : s.interruptScan l p = s := by
  unfold State.interruptScan
  split
  · next m left hs => exact if_neg fun hl => h m ⟨hl, left, hs⟩
  · rfl

/-- R120, R121: the page HELD with its outcome and its monitor IDLE, before the task ends. -/
def State.heldPage (s : State) (p : PageId) (o : ScanOutcome) : State :=
  (s.modPage p fun c => { c with state := .held, outcome := o }).modLane (s.scanSide p) fun v => { v with monitor := .idle }

theorem State.page_heldPage (s : State) (p q : PageId) (o : ScanOutcome) :
    (s.heldPage p o).page q = if q = p then { s.page p with state := .held, outcome := o } else s.page q :=
  State.page_modPage s p q (fun c => { c with state := .held, outcome := o })

/-- R120: the result of a scan task. -/
def scanResult (p : PageId) (o : ScanOutcome) (cells : Nat) : List Byte := [BitVec.ofNat 8 p.val, o.code] ++ bytes16 cells

theorem scanResult_length (p : PageId) (o : ScanOutcome) (cells : Nat) : (scanResult p o cells).length = 4 := rfl

theorem State.endScan_eq (s : State) (p : PageId) (slot : SlotId) (o : ScanOutcome) (st : Status) :
    s.endScan p slot o st = (s.heldPage p o).endAwaited slot (scanResult p o (s.page p).cellsDone) st := by
  have hcells : ((s.heldPage p o).page p).cellsDone = (s.page p).cellsDone := by rw [State.page_heldPage, if_pos rfl]
  rw [← hcells]
  exact rfl

theorem State.page_endScan (s : State) (p q : PageId) (slot : SlotId) (o : ScanOutcome) (st : Status) :
    (s.endScan p slot o st).page q = if q = p then { s.page p with state := .held, outcome := o } else s.page q := by
  rw [State.endScan_eq, State.page_endAwaited, State.page_heldPage]

theorem State.slot_endScan (s : State) (p : PageId) (m slot : SlotId) (o : ScanOutcome) (st : Status) :
    (s.endScan p slot o st).slot m = if m = slot then { s.slot slot with state := .done, status := st } else s.slot m := by
  rw [State.endScan_eq, State.slot_endAwaited]
  exact rfl

theorem State.lane_endScan (s : State) (p : PageId) (slot : SlotId) (o : ScanOutcome) (st : Status) (y : LaneSide) :
    (s.endScan p slot o st).lane y = if y = s.scanSide p then { s.lane y with monitor := .idle } else s.lane y := by
  rw [State.endScan_eq, State.lane_endAwaited, State.heldPage, State.lane_modLane]
  split
  · next h => rw [h]; exact rfl
  · exact rfl

theorem State.page_interruptScan (s : State) (l : LegId) (p q : PageId) :
    (s.interruptScan l p).page q = if q = p then (s.page p).interrupted l else s.page q := by
  by_cases h : ∃ m, (s.page p).Scans l m
  · obtain ⟨m, h⟩ := h
    rw [State.interruptScan_of_scans h, State.page_endScan, Page.interrupted_of_scans h]
  · push Not at h
    rw [State.interruptScan_of_not h, Page.interrupted_of_not h]
    split
    · next hq => rw [hq]
    · rfl

theorem State.page_interruptScans (s : State) (l : LegId) (q : PageId) :
    (s.interruptScans l).page q = (s.page q).interrupted l :=
  (foldl_local (is := allPages) (fun s p => State.page s p) (Page.interrupted l) (fun s p q => State.page_interruptScan s l p q) (by decide) s q).trans
    (if_pos (mem_allPages q))

theorem State.KeepsTask.endScan (s : State) (p : PageId) (hn : slot ≠ m) (o : ScanOutcome) (st : Status) :
    s.KeepsTask m (s.endScan p slot o st) := by
  rw [State.endScan_eq]
  have hheld : s.KeepsTask m (s.heldPage p o) := .of_same rfl rfl id
  exact hheld.trans (.endAwaited _ hn (by rw [scanResult_length]; decide) st)

/-- An interruption leaves a task that does not scan into the page. -/
theorem State.KeepsTask.interruptScan (h : ¬(s.page p).Scans l m) : s.KeepsTask m (s.interruptScan l p) := by
  by_cases hs : ∃ slot, (s.page p).Scans l slot
  · obtain ⟨slot, hs⟩ := hs
    rw [State.interruptScan_of_scans hs]
    exact .endScan s p (by rintro rfl; exact h hs) _ _
  · push Not at hs
    rw [State.interruptScan_of_not hs]
    exact .refl m s

/-- R121: the interruptions of a list of pages leave a task that scans into none of them. -/
theorem State.keepsTask_interrupts {ps : List PageId} (hn : ps.Nodup) (s : State)
    (h : ∀ p ∈ ps, ¬(s.page p).Scans l m) : s.KeepsTask m (ps.foldl (fun s p => s.interruptScan l p) s) := by
  induction ps generalizing s with
  | nil => exact .refl m s
  | cons p ps ih =>
    obtain ⟨hp, hps⟩ := List.nodup_cons.mp hn
    refine (State.KeepsTask.interruptScan (h p List.mem_cons_self)).trans (ih hps _ fun q hq => ?_)
    rw [State.page_interruptScan, if_neg (ne_of_mem_of_not_mem hq hp)]
    exact h q (List.mem_cons_of_mem p hq)

theorem State.keepsTask_leaveCarrying (h : ∀ p, ¬(s.page p).Scans l m) : s.KeepsTask m (s.leaveCarrying l) := by
  unfold State.leaveCarrying
  split
  · refine (State.KeepsTask.of_same (s := s) (t := s.legNotice l) rfl rfl fun hs => ?_).trans
      (State.keepsTask_interrupts (ps := allPages) (by decide) _ fun p _ => h p)
    rw [State.legNotice_summary, BitVec.getLsbD_or, hs, Bool.true_or]
  · exact .refl m s

theorem State.startsNoScan_endScan (s : State) (p : PageId) (slot : SlotId) (o : ScanOutcome) (st : Status) :
    s.StartsNoScan (s.endScan p slot o st) := fun y hy => by
  rw [State.lane_endScan]
  split
  · nofun
  · exact hy

theorem State.startsNoScan_interruptScan (s : State) (l : LegId) (p : PageId) : s.StartsNoScan (s.interruptScan l p) := by
  unfold State.interruptScan
  split
  · split
    · exact s.startsNoScan_endScan p _ _ _
    · exact .refl s
  · exact .refl s

theorem State.startsNoScan_interruptScans (s : State) (l : LegId) : s.StartsNoScan (s.interruptScans l) :=
  .foldl (fun s p => s.startsNoScan_interruptScan l p) allPages s

theorem State.startsNoScan_leaveCarrying (s : State) (l : LegId) : s.StartsNoScan (s.leaveCarrying l) := by
  unfold State.leaveCarrying
  split
  · exact (s.legNotice l).startsNoScan_interruptScans l
  · exact .refl s

/-! ### The scan that ends -/

/-- R121: the task of the scan that a page held, once it was interrupted. -/
structure State.ScanEnded (s t : State) (p : PageId) (slot : SlotId) : Prop where
  done : t.slot slot = { s.slot slot with state := .done, status := .interrupted }
  wf : t.mem.wf = true
  bytes : t.slotByte slot 0x80 = BitVec.ofNat 8 p.val ∧ t.slotByte slot 0x81 = 2 ∧
    t.slotByte slot 0x82 = BitVec.ofNat 8 (s.page p).cellsDone ∧
    t.slotByte slot 0x83 = BitVec.ofNat 8 ((s.page p).cellsDone / 256)
  summary : t.summary.getLsbD slot.val = true

theorem State.ScanEnded.keep (h : s.ScanEnded t p slot) (hk : t.KeepsTask slot u) : s.ScanEnded u p slot := by
  obtain ⟨hbyte0, hbyte1, hbyte2, hbyte3⟩ := h.bytes
  exact ⟨hk.slot.trans h.done, hk.wf h.wf, ⟨(hk.bytes h.wf 0x80 (by decide)).trans hbyte0,
    (hk.bytes h.wf 0x81 (by decide)).trans hbyte1, (hk.bytes h.wf 0x82 (by decide)).trans hbyte2,
    (hk.bytes h.wf 0x83 (by decide)).trans hbyte3⟩, hk.summary h.summary⟩

theorem State.scanEnded_endScan (hw : s.mem.wf = true) (p : PageId) (slot : SlotId) :
    s.ScanEnded (s.endScan p slot .interrupted .interrupted) p slot := by
  have hbyte (j : Nat) (hj : j < 4) := (State.slotByte_endAwaited (s := s.heldPage p .interrupted) (n := slot) hw slot
    (scanResult p .interrupted (s.page p).cellsDone) .interrupted (j := j) hj
    (by rw [scanResult_length]; decide)).trans (if_pos rfl)
  rw [State.endScan_eq]
  refine ⟨(State.slot_endAwaited ..).trans (if_pos rfl), Memory.wf_writeBytes _ _ _ hw,
    ⟨hbyte 0 (by decide), hbyte 1 (by decide), hbyte 2 (by decide), hbyte 3 (by decide)⟩, ?_⟩
  rw [State.endAwaited_summary, BitVec.getLsbD_or, getLsbD_slotBit_self, Bool.or_true]

theorem State.KeepsTask.scanEnded (hk : s.KeepsTask slot t) (hpage : t.page p = s.page p) (h : t.ScanEnded u p slot) :
    s.ScanEnded u p slot := by
  obtain ⟨hslot, hwf, hbytes, hsummary⟩ := h
  rw [hpage] at hbytes
  exact ⟨by rw [hslot, hk.slot], hwf, hbytes, hsummary⟩

/-- R121: the scan of a page among those interrupted, no other of which holds a scan of its task. -/
theorem State.scanEnded_interrupts {ps : List PageId} (hn : ps.Nodup) (hp : p ∈ ps) (s : State) (hw : s.mem.wf = true)
    (hscan : (s.page p).Scans l slot) (hothers : ∀ q ∈ ps, q ≠ p → ¬(s.page q).Scans l slot) :
    s.ScanEnded (ps.foldl (fun s p => s.interruptScan l p) s) p slot := by
  induction ps generalizing s with
  | nil => cases hp
  | cons q ps ih =>
    obtain ⟨hq, hps⟩ := List.nodup_cons.mp hn
    have hpage (r : PageId) (hr : r ≠ q) : (s.interruptScan l q).page r = s.page r := by
      rw [State.page_interruptScan, if_neg hr]
    rcases List.mem_cons.mp hp with rfl | hp
    · rw [List.foldl_cons, State.interruptScan_of_scans hscan]
      refine (State.scanEnded_endScan hw p slot).keep (State.keepsTask_interrupts hps _ fun r hr => ?_)
      have hne : r ≠ p := ne_of_mem_of_not_mem hr hq
      rw [State.page_endScan, if_neg hne]
      exact hothers r (List.mem_cons_of_mem p hr) hne
    · have hne : p ≠ q := ne_of_mem_of_not_mem hp hq
      have hk : s.KeepsTask slot (s.interruptScan l q) := .interruptScan (hothers q List.mem_cons_self (Ne.symm hne))
      refine hk.scanEnded (hpage p hne) (ih hps hp _ (hk.wf hw) (by rwa [hpage p hne]) fun r hr hrp => ?_)
      rw [hpage r (ne_of_mem_of_not_mem hr hq)]
      exact hothers r (List.mem_cons_of_mem q hr) hrp

/-- R121: the monitor of a scan that was interrupted. -/
theorem State.monitor_interrupts {ps : List PageId} (hp : p ∈ ps) (s : State) (hscan : (s.page p).Scans l slot) :
    ((ps.foldl (fun s p => s.interruptScan l p) s).lane (s.scanSide p)).monitor ≠ .scanning := by
  induction ps generalizing s with
  | nil => cases hp
  | cons q ps ih =>
    by_cases hq : p = q
    · subst hq
      rw [List.foldl_cons, State.interruptScan_of_scans hscan]
      refine State.StartsNoScan.foldl (fun s p => s.startsNoScan_interruptScan l p) ps _ _ ?_
      rw [State.lane_endScan, if_pos rfl]
      nofun
    · have hpage : (s.interruptScan l q).page p = s.page p := by rw [State.page_interruptScan, if_neg hq]
      have hside : (s.interruptScan l q).scanSide p = s.scanSide p := by
        have hmap := (legUpdate_interruptScan s l l q).registers.2.2.2.1
        unfold State.scanSide State.sideOf
        rw [hpage]
        cases (s.page p).side
        · rfl
        · rw [hmap]
      have htail := ih ((List.mem_cons.mp hp).resolve_left hq) (s.interruptScan l q) (by rwa [hpage])
      rwa [hside] at htail

end Sys2Proof.Machine
end

section
/-! Effective power LOW with no task waiting (R174): every leg parks by power, one after another, and the power wait list
finishes. -/

namespace Sys2Proof.Machine

variable {s t u : State} {l k : LegId} {n : SlotId}

/-! ### A walk that reaches what one of its steps does -/

/-- A step of the walk takes Q to P, the other steps keep Q, and every step keeps P. -/
theorem foldl_reaches {σ ι : Type} {f : σ → ι → σ} {Q P : σ → Prop} {i : ι} (hstep : ∀ s, Q s → P (f s i))
    (hQ : ∀ s j, j ≠ i → Q s → Q (f s j)) (hP : ∀ s j, P s → P (f s j)) {is : List ι} (hi : i ∈ is) (s : σ) (h : Q s) :
    P (is.foldl f s) := by
  have hkeep : ∀ (is : List ι) (s : σ), P s → P (is.foldl f s) := fun is => by
    induction is with
    | nil => exact fun _ => id
    | cons j is ih => exact fun s hs => ih _ (hP s j hs)
  induction is generalizing s with
  | nil => cases hi
  | cons j is ih =>
    by_cases hj : j = i
    · exact hkeep is _ (hj ▸ hstep s h)
    · exact ih ((List.mem_cons.mp hi).resolve_left (Ne.symm hj)) _ (hQ s j hj h)

/-! ### What exits of several legs leave -/

/-- What the exits of any number of legs leave. -/
structure State.LegsExit (s t : State) : Prop where
  update : ∃ lineSide switchSide legs engines slots pages mem summary latchedLine, t = { s with
    lineSide := lineSide, switchSide := switchSide, legs := legs, engines := engines, slots := slots, pages := pages
    mem := mem, summary := summary, latchedLine := latchedLine }
  setups (k : LegId) : (t.leg k).setup = (s.leg k).setup
  queues (k : LegId) : (t.engine k).queue = (s.engine k).queue
  lanes (y : LaneSide) : (t.lane y).presence = (s.lane y).presence ∧ (t.lane y).locked = (s.lane y).locked ∧
    (t.lane y).counters = (s.lane y).counters ∧ (t.lane y).mask = (s.lane y).mask
  taps : s.KeepsTaps t
  slots (n : SlotId) : t.slot n = s.slot n ∨ (t.slot n).state = .done
  asked (n : SlotId) : (t.slot n).cancelAsked = (s.slot n).cancelAsked
  summary (i : Nat) : s.summary.getLsbD i = true → t.summary.getLsbD i = true
  wf : s.mem.wf = true → t.mem.wf = true
  read : s.mem.wf = true → ∀ a, ¬InResults a → t.mem.read a = s.mem.read a

namespace State.LegsExit

theorem refl (s : State) : s.LegsExit s :=
  ⟨⟨_, _, _, _, _, _, _, _, _, rfl⟩, fun _ => rfl, fun _ => rfl, fun _ => ⟨rfl, rfl, rfl, rfl⟩, .refl s, fun _ => .inl rfl,
    fun _ => rfl, fun _ => id, id, fun _ _ _ => rfl⟩

theorem of_leg (h : s.LegExit l t) : s.LegsExit t :=
  ⟨h.toUpdate.update, h.toUpdate.setups, h.toUpdate.queues, h.toUpdate.lanes, h.taps, h.toUpdate.slots, h.asked,
    h.toUpdate.summary, h.wf, h.read⟩

theorem trans (h : s.LegsExit t) (h' : t.LegsExit u) : s.LegsExit u where
  update := by
    obtain ⟨_, _, _, _, _, _, _, _, _, rfl⟩ := h.update
    obtain ⟨_, _, _, _, _, _, _, _, _, rfl⟩ := h'.update
    exact ⟨_, _, _, _, _, _, _, _, _, rfl⟩
  setups k := (h'.setups k).trans (h.setups k)
  queues k := (h'.queues k).trans (h.queues k)
  lanes y := by
    obtain ⟨hp, hl, hc, hm⟩ := h.lanes y
    obtain ⟨hp', hl', hc', hm'⟩ := h'.lanes y
    exact ⟨hp'.trans hp, hl'.trans hl, hc'.trans hc, hm'.trans hm⟩
  taps := h.taps.trans h'.taps
  slots n := (h'.slots n).elim (fun hn => (h.slots n).imp hn.trans (hn ▸ ·)) .inr
  asked n := (h'.asked n).trans (h.asked n)
  summary i hi := h'.summary i (h.summary i hi)
  wf hw := h'.wf (h.wf hw)
  read hw a ha := (h'.read (h.wf hw) a ha).trans (h.read hw a ha)

theorem foldl {α : Type} {f : State → α → State} (h : ∀ (s : State) (a : α), s.LegsExit (f s a)) (as : List α)
    (s : State) : s.LegsExit (as.foldl f s) := by
  induction as generalizing s with
  | nil => exact refl s
  | cons a as ih => exact (h s a).trans (ih _)

theorem registers (h : s.LegsExit t) : s.SamePins t ∧ s.SamePower t ∧ s.SameDevice t ∧ s.SameMap t ∧
    s.SameFaults t ∧ s.SameSettings t ∧ s.SameLine t ∧ t.deviceQueue = s.deviceQueue ∧ t.powerWait = s.powerWait ∧
    t.handOver = s.handOver ∧ t.owed = s.owed := by
  obtain ⟨_, _, _, _, _, _, _, _, _, rfl⟩ := h.update
  exact ⟨⟨rfl, rfl, rfl⟩, ⟨rfl, rfl, rfl⟩, ⟨rfl, rfl, rfl, rfl, rfl, rfl⟩, fun _ => rfl, ⟨rfl, rfl⟩,
    ⟨rfl, rfl, rfl⟩, ⟨rfl, rfl, rfl, rfl, rfl⟩, rfl, rfl, rfl, rfl⟩

/-- The bytes of a slot below its result area. -/
theorem slotByte (h : s.LegsExit t) (hw : s.mem.wf = true) (m : SlotId) {i : Nat} (hi : i < 0x80) :
    t.slotByte m i = s.slotByte m i := h.read hw _ (not_inResults hi)

end State.LegsExit

/-! ### Every leg parks by power (R29) -/

/-- R29: a leg after power parks it. -/
def Leg.parkedByPower (g : Leg) : Leg := if g.state = .parked then g else g.parked

/-- R41: a leg and its engine after power parks it. -/
def parkedPair (v : Leg × LegEngine) : Leg × LegEngine :=
  if v.1.state = .parked then v else (v.1.parked, { v.2 with inFlight := none })

theorem Leg.parkedByPower_keeps (g : Leg) : g.parkedByPower.state = .parked ∧ g.parkedByPower.intent = g.intent ∧
    g.parkedByPower.setup = g.setup ∧ g.parkedByPower.attempts = g.attempts := by
  unfold Leg.parkedByPower
  split
  · next h => exact ⟨h, rfl, rfl, rfl⟩
  · obtain ⟨hintent, hattempts, -, hsetup, -⟩ := g.parked_keeps
    exact ⟨rfl, hintent, hsetup, hattempts⟩

theorem State.parkByPower_of_parked (h : (s.leg l).state = .parked) : s.parkByPower l = s := if_pos h

theorem State.parkByPower_of_out (h : (s.leg l).state ≠ .parked) :
    s.parkByPower l = (s.parkLeg l).reportOutcome l .superseded := if_neg h

theorem State.pair_parkByPower (s : State) (l k : LegId) :
    ((s.parkByPower l).leg k, (s.parkByPower l).engine k) =
      if k = l then parkedPair (s.leg l, s.engine l) else (s.leg k, s.engine k) := by
  have hup := (legExit_parkByPower s l).toUpdate
  by_cases hk : k = l
  · subst hk
    rw [if_pos rfl]
    by_cases hp : (s.leg k).state = .parked
    · rw [State.parkByPower_of_parked hp]
      exact (if_pos hp).symm
    · rw [State.parkByPower_of_out hp, State.leg_reportOutcome, State.engine_reportOutcome, if_pos rfl, State.leg_parkLeg,
        State.inFlight_parkLeg]
      exact (if_neg hp).symm
  · rw [hup.legs k hk, hup.engines k hk, if_neg hk]

/-- R174: every leg after power parked them all. -/
def State.allParked (s : State) : State := allLegs.foldl (fun s l => s.parkByPower l) s

theorem State.pair_allParked (s : State) (k : LegId) :
    (s.allParked.leg k, s.allParked.engine k) = parkedPair (s.leg k, s.engine k) :=
  (foldl_local (is := allLegs) (fun s k => (State.leg s k, State.engine s k)) parkedPair
    State.pair_parkByPower (by decide) s k).trans (if_pos (mem_allLegs k))

theorem State.leg_allParked (s : State) (k : LegId) : s.allParked.leg k = (s.leg k).parkedByPower := by
  have h := congrArg Prod.fst (s.pair_allParked k)
  unfold parkedPair at h
  unfold Leg.parkedByPower
  split at h <;> simp_all

theorem State.inFlight_allParked (h : (s.leg k).state ≠ .parked) : (s.allParked.engine k).inFlight = none := by
  have hk := congrArg Prod.snd (s.pair_allParked k)
  unfold parkedPair at hk
  rw [if_neg h] at hk
  exact congrArg LegEngine.inFlight hk

theorem State.legsExit_allParked (s : State) : s.LegsExit s.allParked :=
  .foldl (fun s l => .of_leg (legExit_parkByPower s l)) allLegs s

/-! ### The tasks in flight -/

/-- R41: a task in flight of a leg that power parks is DONE, and its bit set. -/
theorem State.done_parkByPower (hp : (s.leg l).state ≠ .parked) (hn : (s.engine l).inFlight = some n) :
    ((s.parkByPower l).slot n).state = .done ∧ (s.parkByPower l).summary.getLsbD n.val = true := by
  have hflight : ((s.parkLeg l).engine l).inFlight = some n := by rw [State.inFlight_parkLeg, hn]
  rw [State.parkByPower_of_out hp, State.reportOutcome_of_some hflight]
  refine ⟨?_, ?_⟩
  · rw [State.slot_endAwaited, if_pos rfl]
  · rw [State.endAwaited_summary, BitVec.getLsbD_or, getLsbD_slotBit_self, Bool.or_true]

theorem State.done_allParked (hp : (s.leg l).state ≠ .parked) (hn : (s.engine l).inFlight = some n) :
    (s.allParked.slot n).state = .done ∧ s.allParked.summary.getLsbD n.val = true := by
  refine foldl_reaches (i := l) (f := fun s l => State.parkByPower s l)
    (Q := fun t => (t.leg l).state ≠ .parked ∧ (t.engine l).inFlight = some n)
    (P := fun t => (t.slot n).state = .done ∧ t.summary.getLsbD n.val = true)
    (fun t ht => State.done_parkByPower ht.1 ht.2) (fun t k hk ht => ?_) (fun t k ht => ?_) (mem_allLegs l) s ⟨hp, hn⟩
  · have hup := (legExit_parkByPower t k).toUpdate
    rw [hup.legs l (Ne.symm hk), hup.engines l (Ne.symm hk)]
    exact ht
  · have hup := (legExit_parkByPower t k).toUpdate
    exact ⟨(hup.slots n).elim (fun h => h ▸ ht.1) id, hup.summary _ ht.2⟩

/-! ### The power falls with no task waiting -/

/-- R174: the power unit and the receivers at the fall. -/
def State.unpowered (s : State) : State :=
  { s with effective := .low, riseTimer := none }.modAllLanes fun v => { v with locked := false }

theorem State.setQueue_same {q : List Entry} (h : (s.engine l).queue = q) : s.setQueue l q = s := by
  subst h
  exact congrArg (fun es => { s with engines := es }) (Vector.set_getElem_self (xs := s.engines) l.isLt)

theorem State.supersedeDeferred_nil (hq : ∀ l, (s.engine l).queue = []) : s.supersedeDeferred = s := by
  have hstep (ls : List LegId) : ls.foldl (fun t l => (t.setQueue l []).supersedeAwaited l []) s = s := by
    induction ls with
    | nil => rfl
    | cons l ls ih =>
      have hl : (s.setQueue l []).supersedeAwaited l [] = s := State.setQueue_same (hq l)
      rw [List.foldl_cons, hl, ih]
  have hnone : allLegs.flatMap (fun _ => ([] : List Entry)) = [] := rfl
  simp only [State.supersedeDeferred, hq, List.filter_nil, hstep, hnone]
  rfl

/-- R174: every leg parked, and the power wait list finished with the notice of the power. -/
def State.fell (s : State) (st : Status) : State := (s.unpowered.allParked.finishPowerWait st).raise powerBit

theorem State.unpowered_tasks (s : State) : s.unpowered.handOver = s.handOver ∧
    s.unpowered.deviceQueue = s.deviceQueue ∧ s.unpowered.owed = s.owed ∧ s.unpowered.powerWait = s.powerWait ∧
    ∀ l, s.unpowered.engine l = s.engine l :=
  ⟨rfl, rfl, rfl, rfl, fun _ => rfl⟩

theorem State.fell_tasks (s : State) (st : Status) : (s.fell st).handOver = s.handOver ∧
    (s.fell st).deviceQueue = s.deviceQueue ∧ (s.fell st).owed = s.owed ∧ (s.fell st).powerWait = [] ∧
    ∀ l, ((s.fell st).engine l).queue = (s.engine l).queue := by
  have hparked := State.legsExit_allParked s.unpowered
  obtain ⟨hlist, hdevice, howed, -, hengines⟩ := s.unpowered_tasks
  unfold State.fell
  generalize s.unpowered = v at *
  generalize v.allParked = u at *
  obtain ⟨-, -, -, -, -, -, -, hdevice', -, hlist', howed'⟩ := hparked.registers
  obtain ⟨-, -, -, -, -, -, -, -, -, -, hengines', hdevice'', hlist'', howed'', hwait⟩ := u.finishPowerWait_keeps st
  refine ⟨hlist''.trans (hlist'.trans hlist), hdevice''.trans (hdevice'.trans hdevice),
    howed''.trans (howed'.trans howed), hwait, fun l => ?_⟩
  rw [State.engine_raise, hengines', hparked.queues, hengines]

theorem State.leg_fell (s : State) (st : Status) (k : LegId) : (s.fell st).leg k = (s.leg k).parkedByPower := by
  have hleg := s.unpowered.leg_allParked k
  unfold State.fell
  obtain ⟨-, -, -, -, -, hlegs, -⟩ := s.unpowered.allParked.finishPowerWait_keeps st
  rw [State.leg_raise, hlegs k List.not_mem_nil, hleg]
  exact rfl

theorem State.powerLow_of_noWork (hw : s.NoWork) (st : Status) : s.powerLow st = s.fell st := by
  obtain ⟨-, hqueues, -⟩ := hw
  have hparked (l : LegId) : (s.unpowered.allParked.engine l).queue = [] := by
    obtain ⟨-, -, -, -, hengines⟩ := s.unpowered_tasks
    rw [(State.legsExit_allParked _).queues, hengines]
    exact hqueues l
  have hsuper : s.unpowered.allParked.supersedeDeferred = s.unpowered.allParked := State.supersedeDeferred_nil hparked
  obtain ⟨-, -, -, -, hfell⟩ := s.fell_tasks st
  have hlow : s.powerLow st = (s.fell st).examineLegs := by
    show ((s.unpowered.allParked.supersedeDeferred.finishPowerWait st).raise powerBit).examineLegs = _
    rw [hsuper]
    exact rfl
  rw [hlow]
  exact State.examineLegs_nil fun l => (hfell l).trans (hqueues l)

/-- R174: the pin LOWPWR is asserted. -/
def State.heldLow (s : State) : State := { s with lowpwr := true }

theorem exec_lowpwrAssert_of_noWork (hr : s.resetHeld = false) (hl : s.lowpwr = false) (he : s.effective ≠ .low)
    (hw : s.NoWork) : exec .lowpwrAssert s = .next (s.heldLow.fell .heldLow) := by
  have hcan : ¬((s.lowpwr || s.resetHeld || decide (s.effective = .low)) = true) := by simp [hr, hl, he]
  show execLowpwrAssert s = _
  rw [execLowpwrAssert, if_neg hcan]
  obtain ⟨hlist, -⟩ := s.heldLow.fell_tasks .heldLow
  have hfall : s.heldLow.powerLow .heldLow = s.heldLow.fell .heldLow := State.powerLow_of_noWork (s := s.heldLow) hw .heldLow
  exact congrArg Host.Outcome.next ((congrArg State.intake hfall).trans (State.intake_nil (hlist.trans hw.1)))

end Sys2Proof.Machine
end

section
/-! A running scan under the events of the legs (R121): what spares it, and what interrupts it. -/

namespace Sys2Proof.Machine

variable {s t u : State} {n m : SlotId} {l k : LegId} {p : PageId}

/-! ### What spares a scan -/

/-- The page of a scan and its task stand, as far as bytes, slots and monitors go, and no other scan of the task begins. -/
structure State.Spares (p : PageId) (m : SlotId) (s t : State) : Prop where
  task : s.KeepsTask m t
  page : t.page p = s.page p
  pages (q : PageId) (k : LegId) : (t.page q).Scans k m → (s.page q).Scans k m
  flights (k : LegId) : (t.engine k).inFlight = some m → (s.engine k).inFlight = some m
  cells (i : Nat) : s.mem.wf = true → i < 0x200 →
    t.mem.read (pageBase p + 0x200 + i) = s.mem.read (pageBase p + 0x200 + i)
  monitors : s.StartsNoScan t
  map : s.SameMap t
  faults : s.SameFaults t
  summary (i : Nat) : s.summary.getLsbD i = true → t.summary.getLsbD i = true

/-- A task that no page but one scans for, and that is in flight nowhere. -/
structure State.Lone (p : PageId) (m : SlotId) (s : State) : Prop where
  wf : s.mem.wf = true
  pages (q : PageId) (k : LegId) : q ≠ p → ¬(s.page q).Scans k m
  flights (k : LegId) : (s.engine k).inFlight ≠ some m

/-- The cells of a page lie outside the result areas. -/
theorem not_inResults_cell {i : Nat} (hi : i < 0x200) : ¬InResults (pageBase p + 0x200 + i) := by
  rintro ⟨n, hlow, hhigh⟩
  have hn := n.isLt
  simp only [slotBase, pageBase] at hlow hhigh
  omega

namespace State.Spares

theorem refl (p : PageId) (m : SlotId) (s : State) : s.Spares p m s :=
  ⟨.refl m s, rfl, fun _ _ => id, fun _ => id, fun _ _ _ => rfl, .refl s, fun _ => rfl, ⟨rfl, rfl⟩, fun _ => id⟩

theorem trans (h : s.Spares p m t) (h' : t.Spares p m u) : s.Spares p m u :=
  ⟨h.task.trans h'.task, h'.page.trans h.page, fun q k hq => h.pages q k (h'.pages q k hq),
    fun k hk => h.flights k (h'.flights k hk), fun i hw hi => (h'.cells i (h.task.wf hw) hi).trans (h.cells i hw hi),
    h.monitors.trans h'.monitors, h.map.trans h'.map, h.faults.trans h'.faults, fun i hi => h'.summary i (h.summary i hi)⟩

theorem lone (h : s.Spares p m t) (hs : s.Lone p m) : t.Lone p m :=
  ⟨h.task.wf hs.wf, fun q k hq hscan => hs.pages q k hq (h.pages q k hscan), fun k hk => hs.flights k (h.flights k hk)⟩

theorem of_signals (h : s.KeepsSignals t) (hmonitors : s.StartsNoScan t) : s.Spares p m t := by
  obtain ⟨_, _, _, rfl⟩ := h.update
  exact ⟨.of_same rfl rfl id, rfl, fun _ _ => id, fun _ => id, fun _ _ _ => rfl, hmonitors, fun _ => rfl, ⟨rfl, rfl⟩,
    fun _ => id⟩

/-- A change of lane sides that begins no scan. -/
theorem modLane (s : State) (x : LaneSide) {f : LaneState → LaneState}
    (hf : ∀ v : LaneState, v.monitor ≠ .scanning → (f v).monitor ≠ .scanning) : s.Spares p m (s.modLane x f) :=
  ⟨.of_same rfl rfl id, rfl, fun _ _ => id, fun _ => id, fun _ _ _ => rfl, .modLane s x hf, fun _ => rfl, ⟨rfl, rfl⟩,
    fun _ => id⟩

theorem modLeg (s : State) (l : LegId) (f : Leg → Leg) : s.Spares p m (s.modLeg l f) :=
  .of_signals ((State.KeepsSignals.refl s).modLeg l f) (.of_lanes fun _ => rfl)

theorem legNotice (s : State) (l : LegId) : s.Spares p m (s.legNotice l) :=
  have hsummary (i : Nat) (hi : s.summary.getLsbD i = true) : (s.legNotice l).summary.getLsbD i = true := by
    rw [State.legNotice_summary, BitVec.getLsbD_or, hi, Bool.true_or]
  ⟨.of_same rfl rfl (hsummary m.val), rfl, fun _ _ => id, fun _ => id, fun _ _ _ => rfl, .of_lanes fun _ => rfl, fun _ => rfl,
    ⟨rfl, rfl⟩, hsummary⟩

theorem endAwaited (s : State) (hn : n ≠ m) {result : List Byte} (hr : result.length ≤ 0x80) (st : Status) :
    s.Spares p m (s.endAwaited n result st) where
  task := .endAwaited s hn hr st
  page := rfl
  pages _ _ := id
  flights _ := id
  cells i hw hi := (State.LegExit.endAwaited s 0 n hr st).read hw _ (not_inResults_cell hi)
  monitors := .of_lanes fun _ => rfl
  map _ := rfl
  faults := ⟨rfl, rfl⟩
  summary i hi := by rw [State.endAwaited_summary, BitVec.getLsbD_or, hi, Bool.true_or]

end State.Spares

/-! ### The operations of a leg -/

theorem State.startsNoScan_abandonSide (s : State) (l : LegId) (d : Side) : s.StartsNoScan (s.abandonSide l d) := by
  unfold State.abandonSide
  split
  · exact (State.StartsNoScan.modLanes _ s fun v hv => Monitor.discardReading_ne (v := v.monitor) hv).trans
      (.of_lanes fun _ => rfl)
  · exact State.StartsNoScan.modLanes _ s fun v hv => Monitor.discardReading_ne (v := v.monitor) hv

theorem State.startsNoScan_abandonSessions (s : State) (l : LegId) : s.StartsNoScan (s.abandonSessions l) := by
  unfold State.abandonSessions
  split
  · exact (s.startsNoScan_abandonSide l .line).trans (State.startsNoScan_abandonSide _ l .switch)
  · exact .refl s

theorem State.startsNoScan_enterTuneSide (s : State) (l : LegId) (kind : SessionKind) (named : List Side) (d : Side) :
    s.StartsNoScan (s.enterTuneSide l kind named d) := by
  unfold State.enterTuneSide
  split
  · refine (State.StartsNoScan.modLanes (s.memberSides l d) s (f := fun v => v.startSession (s.leg l).setup kind)
      fun v hv => ?_).trans (.of_lanes fun _ => rfl)
    cases kind with
    | bringUp => exact hv
    | retune => nofun
  · exact (State.StartsNoScan.modLanes (s.memberSides l d) s (f := LaneState.standBy) fun _ hv => hv).trans
      (.of_lanes fun _ => rfl)

theorem State.startsNoScan_enterTune (s : State) (l : LegId) (kind : SessionKind) (named : List Side) :
    s.StartsNoScan (s.enterTune l kind named) := by
  have hleg : s.StartsNoScan (s.modLeg l fun g => { g with state := .tune, kind := kind }) := .of_lanes fun _ => rfl
  exact (hleg.trans (State.startsNoScan_enterTuneSide _ l kind named .line)).trans
    (State.startsNoScan_enterTuneSide _ l kind named .switch)

theorem State.startsNoScan_tryTune (s : State) (l : LegId) : s.StartsNoScan (s.tryTune l) := by
  have hleg : s.StartsNoScan (s.modLeg l fun g => { g with lockTimer := none }) := .of_lanes fun _ => rfl
  unfold State.tryTune
  split
  · exact hleg.trans (State.startsNoScan_enterTune _ l _ _)
  · exact .refl s

theorem State.spares_enterAcquire (s : State) (l : LegId) : s.Spares p m (s.enterAcquire l) :=
  (State.Spares.modLeg s l _).trans (.of_signals (State.keepsSignals_tryTune _ l) (State.startsNoScan_tryTune _ l))

theorem State.spares_enterDark (s : State) (l : LegId) : s.Spares p m (s.enterDark l) := by
  unfold State.enterDark
  dsimp only
  split
  · exact (State.Spares.modLeg s l _).trans (State.spares_enterAcquire _ l)
  · exact .modLeg s l _

theorem State.spares_reportOutcome (h : s.Lone p m) (l : LegId) (st : Status) : s.Spares p m (s.reportOutcome l st) := by
  cases hf : (s.engine l).inFlight with
  | none => rw [State.reportOutcome_of_none hf]; exact .refl p m s
  | some n =>
    have hn : n ≠ m := fun hn => h.flights l (hn ▸ hf)
    have hclear : s.Spares p m (s.modEngine l fun e => { e with inFlight := none }) :=
      { State.Spares.refl p m s with
        task := .of_same rfl rfl id
        flights := fun k hk => by
          rw [State.engine_modEngine] at hk
          split at hk
          · cases hk
          · exact hk }
    rw [State.reportOutcome_of_some hf]
    exact hclear.trans (.endAwaited _ hn (by rw [Leg.length_bringUpResult]; decide) st)

/-! ### What interrupts a scan -/

theorem Page.scans_of_interrupted {c : Page} (h : (c.interrupted l).Scans k m) : c.Scans k m := by
  obtain ⟨hleg, left, hbusy⟩ := h
  by_cases hany : ∃ n, c.Scans l n
  · obtain ⟨n, hany⟩ := hany
    rw [Page.interrupted_of_scans hany] at hbusy
    exact absurd hbusy nofun
  · push Not at hany
    rw [Page.interrupted_of_not hany] at hleg hbusy
    exact ⟨hleg, left, hbusy⟩

/-- R121: the scan of a page and its task, once the leg left CARRYING. -/
structure State.Interrupted (l : LegId) (p : PageId) (m : SlotId) (s t : State) : Prop where
  ended : s.ScanEnded t p m
  page : t.page p = { s.page p with state := .held, outcome := .interrupted }
  cells (i : Nat) : i < 0x200 → t.mem.read (pageBase p + 0x200 + i) = s.mem.read (pageBase p + 0x200 + i)
  monitor : (t.lane (s.scanSide p)).monitor ≠ .scanning
  map : s.SameMap t
  faults : s.SameFaults t
  notice : t.summary.getLsbD (16 + l.val) = true
  lone : t.Lone p m

namespace State.Interrupted

theorem before (hs : s.mem.wf = true) (h : s.Spares p m t) (h' : t.Interrupted l p m u) : s.Interrupted l p m u where
  ended := h.task.scanEnded h.page h'.ended
  page := h'.page.trans (by rw [h.page])
  cells i hi := (h'.cells i hi).trans (h.cells i hs hi)
  monitor := by
    have hside : t.scanSide p = s.scanSide p := by
      unfold State.scanSide State.sideOf
      rw [h.page]
      cases (s.page p).side
      · rfl
      · rw [h.map]
    exact hside ▸ h'.monitor
  map := h.map.trans h'.map
  faults := h.faults.trans h'.faults
  notice := h'.notice
  lone := h'.lone

theorem after (h : s.Interrupted l p m t) (h' : t.Spares p m u) : s.Interrupted l p m u where
  ended := h.ended.keep h'.task
  page := h'.page.trans h.page
  cells i hi := (h'.cells i h.lone.wf hi).trans (h.cells i hi)
  monitor := h'.monitors _ h.monitor
  map := h.map.trans h'.map
  faults := h.faults.trans h'.faults
  notice := h'.summary _ h.notice
  lone := h'.lone h.lone

/-- The page of the scan is HELD. -/
theorem not_scans (h : s.Interrupted l p m t) (k : LegId) (n : SlotId) : ¬(t.page p).Scans k n := by
  rintro ⟨-, left, hbusy⟩
  rw [h.page] at hbusy
  exact absurd hbusy nofun

end State.Interrupted

theorem State.engine_leaveCarrying (s : State) (l k : LegId) : (s.leaveCarrying l).engine k = s.engine k := by
  unfold State.leaveCarrying
  split
  · exact foldl_keeps (fun t : State => t.engine k) _ (fun t p => State.engine_interruptScan t l p k) _ _
  · rfl

/-- R46, R121: a leg that leaves CARRYING interrupts the scan. -/
theorem State.interrupted_leaveCarrying (h : s.Lone p m) (hc : (s.leg l).state = .carrying) (hscan : (s.page p).Scans l m) :
    s.Interrupted l p m (s.leaveCarrying l) := by
  have hexit := legExit_leaveCarrying s l
  have heq : s.leaveCarrying l = allPages.foldl (fun s p => s.interruptScan l p) (s.legNotice l) := if_pos hc
  have hpage (q : PageId) : (s.leaveCarrying l).page q = (s.page q).interrupted l := by
    rw [heq]
    exact State.page_interruptScans (s.legNotice l) l q
  have hnotice := State.Spares.legNotice (p := p) (m := m) s l
  obtain ⟨-, -, -, hmap, hfaults, -⟩ := hexit.toUpdate.registers
  refine ⟨?ended, (hpage p).trans (Page.interrupted_of_scans hscan), fun i hi => hexit.read h.wf _ (not_inResults_cell hi),
    ?monitor, hmap, hfaults, State.notice_leaveCarrying hc, hexit.wf h.wf, fun q k _ hq => ?pages, fun k hk => ?flights⟩
  case ended =>
    rw [heq]
    exact hnotice.task.scanEnded hnotice.page
      (State.scanEnded_interrupts (by decide) (mem_allPages p) (s.legNotice l) h.wf hscan fun q _ hq => h.pages q l hq)
  case monitor =>
    rw [heq]
    exact State.monitor_interrupts (mem_allPages p) (s.legNotice l) hscan
  case pages => exact h.pages q k ‹q ≠ p› (Page.scans_of_interrupted (hpage q ▸ hq))
  case flights => exact h.flights k (by rwa [State.engine_leaveCarrying] at hk)

end Sys2Proof.Machine
end

section
/-! A running scan whose leg leaves CARRYING (O30). -/

namespace Sys2Proof.Machine

variable {s t u : State} {n m : SlotId} {l k : LegId} {p q : PageId} {x : LaneSide} {h : TaskHeader}

theorem State.KeepsSignals.page (h : s.KeepsSignals t) (q : PageId) : t.page q = s.page q := by
  obtain ⟨_, _, _, rfl⟩ := h.update
  rfl

theorem State.abandonSessions_of_carrying (hc : (s.leg l).state = .carrying) : s.abandonSessions l = s :=
  if_neg (by rw [hc]; nofun)

/-- R121: a page of another leg is none of this one's scans. -/
theorem State.page_leaveCarrying (hq : (s.page q).leg ≠ l) : (s.leaveCarrying l).page q = s.page q := by
  unfold State.leaveCarrying
  split
  · exact (State.page_interruptScans (s.legNotice l) l q).trans (Page.interrupted_of_not fun m hscan => hq hscan.1)
  · rfl

/-! ### Legs that park -/

theorem State.interrupted_parkLeg (h : s.Lone p m) (hc : (s.leg l).state = .carrying) (hscan : (s.page p).Scans l m) :
    s.Interrupted l p m (s.parkLeg l) := by
  rw [State.parkLeg, State.abandonSessions_of_carrying hc]
  exact (State.interrupted_leaveCarrying h hc hscan).after (.modLeg _ l _)

theorem State.interrupted_parkReported (h : s.Lone p m) (hc : (s.leg l).state = .carrying) (hscan : (s.page p).Scans l m)
    (st : Status) : s.Interrupted l p m ((s.parkLeg l).reportOutcome l st) :=
  (State.interrupted_parkLeg h hc hscan).after (State.spares_reportOutcome (State.interrupted_parkLeg h hc hscan).lone l st)

theorem State.page_parkLeg (hq : (s.page q).leg ≠ l) : (s.parkLeg l).page q = s.page q := by
  have habandon : (s.abandonSessions l).page q = s.page q := by
    unfold State.abandonSessions State.abandonSide
    split
    · split <;> split <;> simp
    · rfl
  rw [State.parkLeg, State.page_modLeg, State.page_leaveCarrying (by rwa [habandon]), habandon]

theorem State.page_reportOutcome (s : State) (l : LegId) (st : Status) (q : PageId) :
    (s.reportOutcome l st).page q = s.page q := by
  unfold State.reportOutcome
  split <;> rfl

/-- R121: a leg that leaves CARRYING spares the scan of a page that is none of its own. -/
theorem State.spares_leaveCarrying (h : s.Lone p m) (hp : ∀ n, ¬(s.page p).Scans k n) :
    s.Spares p m (s.leaveCarrying k) := by
  have hexit := legExit_leaveCarrying s k
  have hnone (q : PageId) : ¬(s.page q).Scans k m := by
    by_cases hq : q = p
    · exact hq ▸ hp m
    · exact h.pages q k hq
  have hpage (q : PageId) : (s.leaveCarrying k).page q = (s.page q).interrupted k ∨ (s.leaveCarrying k).page q = s.page q := by
    unfold State.leaveCarrying
    split
    · exact .inl (State.page_interruptScans (s.legNotice k) k q)
    · exact .inr rfl
  obtain ⟨-, -, -, hmap, hfaults, -⟩ := hexit.toUpdate.registers
  refine ⟨State.keepsTask_leaveCarrying hnone, ?page, fun q j hq => ?pages, fun j hj => by rwa [State.engine_leaveCarrying] at hj,
    fun i hw hi => hexit.read hw _ (not_inResults_cell hi), s.startsNoScan_leaveCarrying k, hmap, hfaults,
    hexit.toUpdate.summary⟩
  case page => exact (hpage p).elim (fun hi => hi.trans (Page.interrupted_of_not hp)) id
  case pages => exact (hpage q).elim (fun hi => Page.scans_of_interrupted (hi ▸ hq)) fun hi => hi ▸ hq

theorem State.spares_abandonSessions (s : State) (l : LegId) : s.Spares p m (s.abandonSessions l) := by
  refine .of_signals ?_ (s.startsNoScan_abandonSessions l)
  have hside (s : State) (d : Side) : s.KeepsSignals (s.abandonSide l d) := by
    unfold State.abandonSide
    split
    · exact (State.keepsSignals_modLanes _ (f := LaneState.abandon) (fun _ => ⟨rfl, rfl⟩) s).modLeg l _
    · exact State.keepsSignals_modLanes _ (f := LaneState.rest) (fun _ => ⟨rfl, rfl⟩) s
  unfold State.abandonSessions
  split
  · exact (hside s .line).trans (hside _ .switch)
  · exact .refl s

/-- A leg that power parks spares the scan of a page that is none of its own. -/
theorem State.spares_parkByPower (h : s.Lone p m) (hp : ∀ n, ¬(s.page p).Scans k n) :
    s.Spares p m (s.parkByPower k) := by
  by_cases hk : (s.leg k).state = .parked
  · rw [State.parkByPower_of_parked hk]
    exact .refl p m s
  · have habandon := s.spares_abandonSessions (p := p) (m := m) k
    have hpark : s.Spares p m (s.parkLeg k) :=
      (habandon.trans (State.spares_leaveCarrying (habandon.lone h) (by rwa [habandon.page]))).trans (.modLeg _ k _)
    rw [State.parkByPower_of_out hk]
    exact hpark.trans (State.spares_reportOutcome (hpark.lone h) k _)

/-! ### LOWPWR_ASSERT -/

theorem State.spares_endAll (ns : List SlotId) (hn : m ∉ ns) {result : List Byte} (hr : result.length ≤ 0x80) (st : Status)
    (s : State) : s.Spares p m (s.endAll ns result st) := by
  induction ns generalizing s with
  | nil => exact .refl p m s
  | cons n ns ih =>
    obtain ⟨hne, hns⟩ := not_or.mp (mt List.mem_cons.mpr hn)
    exact (State.Spares.endAwaited s (Ne.symm hne) hr st).trans (ih hns _)

theorem State.spares_finishPowerWait (hn : m ∉ s.powerWait) (st : Status) : s.Spares p m (s.finishPowerWait st) := by
  have hempty : s.Spares p m { s with powerWait := [] } := { State.Spares.refl p m s with task := .of_same rfl rfl id }
  exact hempty.trans (State.spares_endAll s.powerWait hn (by simp [State.powerResult]) st _)

theorem State.spares_raise (s : State) (b : BitVec 32) : s.Spares p m (s.raise b) :=
  have hsummary (i : Nat) (hi : s.summary.getLsbD i = true) : (s.raise b).summary.getLsbD i = true := by
    rw [State.raise_summary, BitVec.getLsbD_or, hi, Bool.true_or]
  { State.Spares.refl p m s with
    task := .of_same rfl rfl (hsummary m.val)
    summary := hsummary }

/-- R29, R121: the walk over the legs reaches the leg of the scan, and the other legs spare it. -/
theorem State.interrupted_allParked (h : s.Lone p m) (hc : (s.leg l).state = .carrying) (hscan : (s.page p).Scans l m) :
    s.Interrupted l p m s.allParked := by
  refine foldl_reaches (i := l) (f := fun s l => State.parkByPower s l)
    (Q := fun t => s.Spares p m t ∧ (t.leg l).state = .carrying) (P := fun t => s.Interrupted l p m t)
    (fun t ht => ?_) (fun t k hk ht => ?_) (fun t k ht => ?_) (mem_allLegs l) s ⟨.refl p m s, hc⟩
  · obtain ⟨hspares, hcarrying⟩ := ht
    rw [State.parkByPower_of_out (by rw [hcarrying]; nofun)]
    exact .before h.wf hspares (State.interrupted_parkReported (hspares.lone h) hcarrying (by rwa [hspares.page]) _)
  · obtain ⟨hspares, hcarrying⟩ := ht
    refine ⟨hspares.trans (State.spares_parkByPower (hspares.lone h) fun n hn => hk ?_), ?_⟩
    · rw [hspares.page] at hn
      exact hn.1.symm.trans hscan.1
    · rwa [(legExit_parkByPower t k).toUpdate.legs l (Ne.symm hk)]
  · exact ht.after (State.spares_parkByPower ht.lone fun n => ht.not_scans k n)

/-- LOWPWR_ASSERT interrupts the scan. -/
theorem State.interrupted_fell (h : s.Lone p m) (hc : (s.leg l).state = .carrying) (hscan : (s.page p).Scans l m)
    (hn : m ∉ s.powerWait) (st : Status) : s.Interrupted l p m (s.fell st) := by
  have hfall : s.Spares p m s.unpowered :=
    { State.Spares.refl p m s with
      task := .of_same rfl rfl id
      monitors := fun y hy => by
        rw [State.unpowered, State.lane_modAllLanes]
        exact hy }
  have hparked : s.Interrupted l p m s.unpowered.allParked :=
    .before h.wf hfall (State.interrupted_allParked (hfall.lone h) hc hscan)
  have hwait : m ∉ s.unpowered.allParked.powerWait := by
    obtain ⟨-, -, -, -, -, -, -, -, hwait, -⟩ := (State.legsExit_allParked s.unpowered).registers
    obtain ⟨-, -, -, hwait', -⟩ := s.unpowered_tasks
    rwa [hwait, hwait']
  exact (hparked.after (State.spares_finishPowerWait hwait st)).after (State.spares_raise _ _)

/-! ### A lock loss and a presence loss -/

theorem State.interrupted_fallToAcquire (h : s.Lone p m) (hc : (s.leg l).state = .carrying) (hscan : (s.page p).Scans l m) :
    s.Interrupted l p m (s.fallToAcquire l) := by
  rw [State.fallToAcquire, State.abandonSessions_of_carrying hc]
  exact (State.interrupted_leaveCarrying h hc hscan).after (State.spares_enterAcquire _ l)

theorem State.legPresenceLoss_of_carrying (hc : (s.leg l).state = .carrying) : s.legPresenceLoss l =
    ((s.leaveCarrying l).modLeg l fun g =>
      { g with presenceLosses := countUp Config.legCounterMax g.presenceLosses }).enterDark l := by
  have habandon := State.abandonSessions_of_carrying hc
  unfold State.legPresenceLoss
  rw [hc, habandon]

theorem State.spares_modRelay (s : State) (l : LegId) (d : Side) (f : RelayDirection → RelayDirection) :
    s.Spares p m (s.modRelay l d f) := by
  rw [State.modRelay_eq]
  exact .modLeg s l _

theorem State.page_modRelay (s : State) (l : LegId) (d : Side) (f : RelayDirection → RelayDirection) (q : PageId) :
    (s.modRelay l d f).page q = s.page q := rfl

theorem State.interrupted_afterLoss (h : s.Lone p m) (hc : (s.leg l).state = .carrying) (hscan : (s.page p).Scans l m)
    (d : Side) : s.Interrupted l p m (s.afterLoss l d) := by
  rw [State.afterLoss, if_neg (by rw [hc]; nofun), State.relayTrigger_eq, State.legPresenceLoss_of_carrying hc]
  exact (((State.interrupted_leaveCarrying h hc hscan).after (.modLeg _ l _)).after (State.spares_enterDark _ l)).after
    (State.spares_modRelay _ l d _)

theorem State.page_afterLoss (hc : (s.leg l).state = .carrying) (hq : (s.page q).leg ≠ l) (d : Side) :
    (s.afterLoss l d).page q = s.page q := by
  have hloss : (s.legPresenceLoss l).page q = s.page q := by
    rw [State.legPresenceLoss_of_carrying hc, (State.keepsSignals_enterDark _ l).page, State.page_modLeg,
      State.page_leaveCarrying hq]
  rw [State.afterLoss, if_neg (by rw [hc]; nofun), State.relayTrigger_eq, State.page_modRelay, hloss]

theorem State.page_wakeWatch (s : State) (l : LegId) (q : PageId) : (s.wakeWatch l).page q = s.page q := by
  rw [State.wakeWatch_eq]
  split <;> rfl

theorem State.spares_wakeWatch (s : State) (l : LegId) : s.Spares p m (s.wakeWatch l) := by
  rw [State.wakeWatch_eq]
  split
  · exact .legNotice s l
  · exact .refl p m s

/-- What the scan of a leg that leaves CARRYING comes to, and the pages of the other legs. -/
def State.ScanLost (l : LegId) (p : PageId) (m : SlotId) (s t : State) : Prop :=
  (t.leg l).state ≠ .carrying ∧ s.Interrupted l p m t ∧ ∀ q, (s.page q).leg ≠ l → t.page q = s.page q

theorem State.scanLost_unlockEvent (hmap : s.MapPermutes) (h : s.Lone p m) (hx : s.legOf x = l)
    (hc : (s.leg l).state = .carrying) (hscan : (s.page p).Scans l m) : s.ScanLost l p m (s.unlockEvent x) := by
  subst hx
  have hlane : s.Spares p m (s.modLane x LaneState.loseLock) := .modLane s x fun _ hv => hv
  have hunlocked : (s.modLane x LaneState.loseLock).allLocked (s.legOf x) = false :=
    State.allLocked_of_unlocked (s := s.modLane x LaneState.loseLock) hmap (by rw [State.lane_modLane_self]; rfl)
  have habandon : (s.modLane x LaneState.loseLock).abandonSessions (s.legOf x) = s.modLane x LaneState.loseLock :=
    State.abandonSessions_of_carrying hc
  rw [State.unlockEvent_of_out (.inr hc)]
  refine ⟨by rw [State.leg_fallToAcquire hunlocked]; nofun,
    .before h.wf hlane (State.interrupted_fallToAcquire (hlane.lone h) hc (by rwa [hlane.page])), fun q hq => ?_⟩
  rw [State.fallToAcquire_eq hunlocked, State.page_modLeg, habandon]
  exact State.page_leaveCarrying (s := s.modLane x LaneState.loseLock) hq

theorem State.scanLost_presenceEvent (hmap : s.MapPermutes) (h : s.Lone p m) (hx : s.legOf x = l)
    (hc : (s.leg l).state = .carrying) (hscan : (s.page p).Scans l m) (hraw : (s.lane x).presence.raw = false)
    (hq : (s.lane x).presence.qualified = true) : s.ScanLost l p m (s.presenceEvent x) := by
  subst hx
  have hlane : s.Spares p m (s.modLane x LaneState.qualify) := .modLane s x fun _ hv => hv
  have hloss : s.ScanLost (s.legOf x) p m ((s.modLane x LaneState.qualify).afterLoss (s.legOf x) x.side) := by
    refine ⟨?_, .before h.wf hlane (State.interrupted_afterLoss (hlane.lone h) hc (by rwa [hlane.page]) _),
      fun q hq => State.page_afterLoss (s := s.modLane x LaneState.qualify) hc hq _⟩
    obtain ⟨hstate, -⟩ := ((s.modLane x LaneState.qualify).legPresenceLoss (s.legOf x)).items_modRelay (s.legOf x) x.side
      (RelayDirection.triggered
        ((((s.modLane x LaneState.qualify).legPresenceLoss (s.legOf x)).leg (s.legOf x)).setup)
        (((s.modLane x LaneState.qualify).legPresenceLoss (s.legOf x)).sidePresent (s.legOf x) x.side))
    rw [State.afterLoss, if_neg (by rw [State.leg_modLane, hc]; nofun), State.relayTrigger_eq, hstate,
      State.leg_legPresenceLoss (State.allPresent_qualify_of_absent hmap hraw), State.leg_modLane,
      Leg.lost_of_out (by rw [hc]; nofun) (by rw [hc]; nofun)]
    nofun
  obtain ⟨hleg, hint, hpages⟩ := hloss
  rw [State.presenceEvent_eq (by rw [hraw, hq]; nofun), hraw]
  split
  · exact ⟨by rwa [State.leg_wakeWatch], hint.after (State.spares_wakeWatch _ _),
      fun q hq => (State.page_wakeWatch _ _ q).trans (hpages q hq)⟩
  · exact ⟨hleg, hint, hpages⟩

/-! ### LEG_PARK and LEG_RETUNE -/

theorem State.spares_takenTask {kind : TaskKind} {args : List Byte} (ha : s.AcceptsTask n) (hl : args.length ≤ 0x10)
    (hn : n ≠ m) (hu : u = s.takenTask n kind h args) : s.Spares p m u := by
  obtain ⟨⟨-, hpages, -, -, -, hengines⟩, hmap, hlanes, hsummary, hfaults, -⟩ := State.takenTask_keeps ha hu
  have hslot : u.slot m = s.slot m := by rw [hu, State.slot_takenTask, if_neg (Ne.symm hn)]
  have houtside : s.SameBytesOutside u n := hu ▸ State.takenTask_sameBytesOutside ha.wf hl
  have hwf : u.mem.wf = true := hu ▸ State.takenTask_wf ha.wf
  refine ⟨⟨hslot, fun _ => hwf, fun _ i hi => houtside _ ?_, by rw [hsummary]; exact id⟩, hpages p List.not_mem_nil,
    fun q k hq => by rwa [hpages q List.not_mem_nil] at hq, fun k hk => by rwa [hengines k List.not_mem_nil] at hk,
    fun i _ hi => houtside _ ?_, .of_lanes fun y => hlanes y List.not_mem_nil, hmap, hfaults,
    fun i hi => by rwa [hsummary]⟩
  · intro hin
    refine hn (Fin.ext ?_)
    simp only [slotBase] at hin
    omega
  · have hlt := n.isLt
    simp only [slotBase, pageBase]
    omega

/-- A task that is taken, ends the scan of its leg and is then ended or launched. -/
theorem State.ScanLost.taken {kind : TaskKind} {args : List Byte} (ha : s.AcceptsTask n) (hl : args.length ≤ 0x10)
    (hn : n ≠ m) (hu : u = s.takenTask n kind h args) (ht : u.ScanLost l p m t) : s.ScanLost l p m t := by
  obtain ⟨⟨-, hpages, -⟩, -⟩ := State.takenTask_keeps ha hu
  obtain ⟨hleg, hint, hothers⟩ := ht
  refine ⟨hleg, .before ha.wf (State.spares_takenTask ha hl hn hu) hint, fun q hq => ?_⟩
  rw [← hpages q List.not_mem_nil] at hq ⊢
  exact hothers q hq

theorem State.scanLost_runLegPark (h : s.Lone p m) (hc : (s.leg l).state = .carrying) (hscan : (s.page p).Scans l m)
    (hn : n ≠ m) (result : List Byte) (hr : result.length ≤ 0x80) (st : Status) :
    s.ScanLost l p m ((s.parkByTask l).endAwaited n result st) := by
  have hout : (s.leg l).state ≠ .parked := by rw [hc]; nofun
  have hleg := s.leg_parkByTask l
  rw [if_neg hout] at hleg
  have hintent : s.Spares p m (s.modLeg l fun g => { g with intent := false }) := .modLeg s l _
  have hcarrying : ((s.modLeg l fun g => { g with intent := false }).leg l).state = .carrying := by
    rw [State.leg_modLeg_self]
    exact hc
  refine ⟨?_, .after ?_ (.endAwaited _ hn hr st), fun q hq => ?_⟩
  · rw [State.leg_endAwaited, hleg]
    nofun
  · rw [State.parkByTask_of_out hout]
    exact .before h.wf hintent
      (State.interrupted_parkReported (hintent.lone h) hcarrying (by rwa [hintent.page]) _)
  · rw [State.page_endAwaited, State.parkByTask_of_out hout, State.page_reportOutcome]
    exact State.page_parkLeg (s := s.modLeg l fun g => { g with intent := false }) hq

theorem State.scanLost_retune (h : s.Lone p m) (hc : (s.leg l).state = .carrying) (hscan : (s.page p).Scans l m)
    (hn : n ≠ m) (named : List Side) : s.ScanLost l p m ((s.retune l named).launched l n) := by
  have hlaunch (v : State) : v.Spares p m (v.launched l n) :=
    { State.Spares.refl p m v with
      task := .of_same rfl rfl id
      flights := fun k hk => by
        rw [State.engine_launched] at hk
        split at hk
        · exact absurd (Option.some.inj hk) hn
        · exact hk }
  refine ⟨?_, ((State.interrupted_leaveCarrying h hc hscan).after (.of_signals (State.keepsSignals_enterTune _ l _ _)
    (State.startsNoScan_enterTune _ l _ _))).after (hlaunch _), fun q hq => ?_⟩
  · rw [State.leg_launched, State.retune, State.leg_enterTune]
    nofun
  · exact ((State.keepsSignals_enterTune (s.leaveCarrying l) l .retune named).page q).trans (State.page_leaveCarrying hq)

/-- R40: LEG_RETUNE of a CARRYING leg. -/
theorem State.runLegTask_legRetune {e : Entry} {named : List Side} (hp : e.patience.toNat ≤ 3) (hk : e.kind = .legRetune)
    (hsides : decodeSides (u.arg e 0) = some named) (ha : e.awaited = true) (hc : (u.leg l).state = .carrying) :
    u.runLegTask l e = some ((u.retune l named).launched l e.slot) := by
  have hg : e.patienceGood = true := decide_eq_true hp
  have hrun : u.runLegTask l e = u.runLegRetune l e := by
    rw [State.runLegTask, hg, hk]
    exact rfl
  rw [hrun, State.runLegRetune, hsides]
  dsimp only
  rw [if_pos hc, State.launch, if_pos ha]
  exact rfl

theorem decodeSides_of_le {b : Byte} (h : b.toNat ≤ 2) : ∃ named, decodeSides b = some named := by
  unfold decodeSides
  match hb : b.toNat, h with
  | 0, _ => exact ⟨_, rfl⟩
  | 1, _ => exact ⟨_, rfl⟩
  | 2, _ => exact ⟨_, rfl⟩

theorem exec_legPark_of_carrying (ha : s.AcceptsTask n) (hh : s.AwaitedFor h l) (hn : n ≠ m) (hs : s.Lone p m)
    (hc : (s.leg l).state = .carrying) (hscan : (s.page p).Scans l m) :
    ∃ t, exec (.legPark n h) s = .next t ∧ s.ScanLost l p m t := by
  have hl : ([] : List Byte).length ≤ 0x10 := Nat.zero_le _
  obtain ⟨u, hu⟩ : ∃ u, u = s.takenTask n .legPark h [] := ⟨_, rfl⟩
  obtain ⟨⟨-, -, -, -, hlegs, hengines⟩, -⟩ := State.takenTask_keeps ha hu
  have hspares : s.Spares p m u := State.spares_takenTask ha hl hn hu
  obtain ⟨t, ht⟩ : ∃ t, t = (u.parkByTask l).endAwaited n [(u.leg l).state.code] .ok := ⟨_, rfl⟩
  have hrun : u.runLegTask l (awaitedEntry n .legPark h) = some t := by
    rw [State.runLegTask_legPark hh.patience_le rfl, ht]
    exact rfl
  have hlost : u.ScanLost l p m t := ht ▸ State.scanLost_runLegPark (hspares.lone hs)
    (by rwa [hlegs l List.not_mem_nil]) (by rwa [hspares.page]) hn _ (by rw [List.length_singleton]; decide) _
  refine ⟨t, congrArg Host.Outcome.next (State.handOverTask_runs ha hh rfl hl (hu ▸ hrun) ?_), .taken ha hl hn hu hlost⟩
  rw [ht, State.engine_endAwaited, (legExit_parkByTask _ l).toUpdate.queue, hengines l List.not_mem_nil]
  exact ha.queue_nil l

theorem exec_legRetune_of_carrying {sides : Byte} (ha : s.AcceptsTask n) (hh : s.AwaitedFor h l) (hsides : sides.toNat ≤ 2)
    (hn : n ≠ m) (hs : s.Lone p m) (hc : (s.leg l).state = .carrying) (hscan : (s.page p).Scans l m) :
    ∃ t, exec (.legRetune n h sides) s = .next t ∧ s.ScanLost l p m t := by
  have hl : [sides].length ≤ 0x10 := by simp
  obtain ⟨named, hnamed⟩ := decodeSides_of_le hsides
  obtain ⟨u, hu⟩ : ∃ u, u = s.takenTask n .legRetune h [sides] := ⟨_, rfl⟩
  obtain ⟨⟨-, -, -, -, hlegs, hengines⟩, -⟩ := State.takenTask_keeps ha hu
  have hspares : s.Spares p m u := State.spares_takenTask ha hl hn hu
  have hcarrying : (u.leg l).state = .carrying := by rwa [hlegs l List.not_mem_nil]
  have harg : decodeSides (u.arg (awaitedEntry n .legRetune h) 0) = some named := by
    rw [hu, State.arg_takenTask ha.wf hl 0 (by simp)]
    exact hnamed
  have hrun := State.runLegTask_legRetune (e := awaitedEntry n .legRetune h) hh.patience_le rfl harg rfl hcarrying
  refine ⟨_, congrArg Host.Outcome.next (State.handOverTask_runs ha hh rfl hl (hu ▸ hrun) ?_), .taken ha hl hn hu
    (State.scanLost_retune (hspares.lone hs) hcarrying (by rwa [hspares.page]) hn named)⟩
  rw [State.engine_launched, if_pos rfl, (legUpdate_retune _ l _).queue, hengines l List.not_mem_nil]
  exact ha.queue_nil l

/-- Settles O30: whatever takes the leg out of CARRYING, its scans are interrupted on the way and nothing after that
touches them. -/
theorem leavingCarryingInterruptsTheScans : Obligations.LeavingCarryingInterruptsTheScans := by
  intro c p slot left l s hr hmap hw hwf hbusy hl hc hothers hflights hwait hway
  have hscan : (s.page p).Scans l slot := ⟨hl, left, hbusy⟩
  have hlone : s.Lone p slot :=
    ⟨hwf, fun q k hq ⟨_, left', hbusy'⟩ => hothers q slot left' hq hbusy' rfl, hflights⟩
  have hlost : ∃ t, exec c s = .next t ∧ (t.leg l).state ≠ .carrying ∧ s.Interrupted l p slot t ∧
      (c ≠ .lowpwrAssert → ∀ q, (s.page q).leg ≠ l → t.page q = s.page q) := by
    rcases hway with ⟨rfl, hlow, heff⟩ | ⟨x, hx, ⟨rfl, hlocked⟩ | ⟨rfl, htimer, hq, hraw⟩⟩ |
      ⟨n, h, ha, hh, hn, rfl | ⟨sides, hsides, rfl⟩⟩
    · have hspares : s.Spares p slot s.heldLow :=
        { State.Spares.refl p slot s with task := .of_same rfl rfl id }
      refine ⟨_, exec_lowpwrAssert_of_noWork hr hlow heff hw, ?_, .before hwf hspares
        (State.interrupted_fell (hspares.lone hlone) hc hscan hwait _), fun hno => absurd rfl hno⟩
      rw [State.leg_fell]
      obtain ⟨hparked, -⟩ := (s.leg l).parkedByPower_keeps
      exact fun h => nomatch hparked.symm.trans h
    · obtain ⟨hleg, hint, hpages⟩ := State.scanLost_unlockEvent hmap hlone hx hc hscan
      exact ⟨_, exec_receiverUnlock_eq hr hw hlocked, hleg, hint, fun _ => hpages⟩
    · obtain ⟨hleg, hint, hpages⟩ := State.scanLost_presenceEvent hmap hlone hx hc hscan hraw hq
      exact ⟨_, exec_qualification hr hw htimer (by rw [hraw, hq]; nofun), hleg, hint, fun _ => hpages⟩
    · obtain ⟨t, ht, hleg, hint, hpages⟩ := exec_legPark_of_carrying ha hh hn hlone hc hscan
      exact ⟨t, ht, hleg, hint, fun _ => hpages⟩
    · obtain ⟨t, ht, hleg, hint, hpages⟩ := exec_legRetune_of_carrying ha hh hsides hn hlone hc hscan
      exact ⟨t, ht, hleg, hint, fun _ => hpages⟩
  obtain ⟨t, ht, hleg, hint, hpages⟩ := hlost
  obtain ⟨hbyte0, hbyte1, hbyte2, hbyte3⟩ := hint.ended.bytes
  exact ⟨t, ht, hleg, hint.page, hint.cells, hint.monitor, hint.ended.done, hbyte0, hbyte1, hbyte2, hbyte3,
    hint.ended.summary, hint.notice, hint.map, hint.faults, hpages⟩

end Sys2Proof.Machine
end

section
/-! A part whose power has fallen stays fallen, whatever its queues and its intake do (R174). -/

namespace Sys2Proof.Machine

variable {s t u : State} {n m : SlotId} {l k : LegId} {b : Prop} {e : Entry} {f : LaneState → LaneState}

/-- R174: LOW effective power with LOWPWR asserted, every receiver UNLOCKED and every leg PARKED; and, once the notice of
the power was raised, its bit set. -/
structure State.Fallen (b : Prop) (s : State) : Prop where
  pin : s.lowpwr = true
  low : s.effective = .low
  timer : s.riseTimer = none
  unlocked (x : LaneSide) : (s.lane x).locked = false
  parked (l : LegId) : (s.leg l).state = .parked
  notice : b → s.summary.getLsbD 25 = true

/-! ### The state's operations -/

namespace State.Fallen

theorem of_same (h : s.Fallen b) (hpin : t.lowpwr = s.lowpwr) (heffective : t.effective = s.effective)
    (htimer : t.riseTimer = s.riseTimer) (hlocked : ∀ x, (t.lane x).locked = (s.lane x).locked)
    (hstate : ∀ l, (t.leg l).state = (s.leg l).state)
    (hsummary : s.summary.getLsbD 25 = true → t.summary.getLsbD 25 = true) : t.Fallen b :=
  ⟨hpin.trans h.pin, heffective.trans h.low, htimer.trans h.timer, fun x => (hlocked x).trans (h.unlocked x),
    fun l => (hstate l).trans (h.parked l), fun hb => hsummary (h.notice hb)⟩

theorem raise (h : s.Fallen b) (bits : BitVec 32) : (s.raise bits).Fallen b :=
  h.of_same rfl rfl rfl (fun _ => rfl) (fun _ => rfl) fun hs => by
    rw [State.raise_summary, BitVec.getLsbD_or, hs, Bool.true_or]

theorem modLane (h : s.Fallen b) (x : LaneSide) (hf : ∀ v, (f v).locked = v.locked) : (s.modLane x f).Fallen b :=
  h.of_same rfl rfl rfl (fun y => by
    rw [State.lane_modLane]
    split
    · next hy => rw [hf, hy]
    · rfl) (fun _ => rfl) id

theorem modLanes (h : s.Fallen b) (xs : List LaneSide) (hf : ∀ v, (f v).locked = v.locked) : (s.modLanes xs f).Fallen b := by
  induction xs generalizing s with
  | nil => exact h
  | cons x xs ih => exact ih (h.modLane x hf)

theorem modLeg (h : s.Fallen b) (l : LegId) {f : Leg → Leg} (hf : (f (s.leg l)).state = (s.leg l).state) :
    (s.modLeg l f).Fallen b :=
  h.of_same rfl rfl rfl (fun _ => rfl) (fun k => by
    rw [State.leg_modLeg]
    split
    · next hk => rw [hf, hk]
    · rfl) id

theorem setQueue (h : s.Fallen b) (l : LegId) (q : List Entry) : (s.setQueue l q).Fallen b :=
  h.of_same rfl rfl rfl (fun _ => rfl) (fun _ => rfl) id

theorem freeCount (h : s.Fallen b) (c : Nat) : ({ s with freeCount := c } : State).Fallen b :=
  h.of_same rfl rfl rfl (fun _ => rfl) (fun _ => rfl) id

theorem endAwaited (h : s.Fallen b) (n : SlotId) (result : List Byte) (st : Status) : (s.endAwaited n result st).Fallen b :=
  h.of_same rfl rfl rfl (fun _ => rfl) (fun _ => rfl) fun hs => by
    rw [State.endAwaited_summary, BitVec.getLsbD_or, hs, Bool.true_or]

theorem reportFault (h : s.Fallen b) (r : FaultRecord) : (s.reportFault r).Fallen b := by
  unfold State.reportFault
  split
  · exact State.Fallen.raise (s := { s with faultRecord := some r })
      (h.of_same rfl rfl rfl (fun _ => rfl) (fun _ => rfl) id) _
  · exact h.of_same rfl rfl rfl (fun _ => rfl) (fun _ => rfl) id

theorem endPosted (h : s.Fallen b) (n : SlotId) (kind leg label0 label1 : Byte) (st : Status) :
    (s.endPosted n kind leg label0 label1 st).Fallen b := by
  unfold State.endPosted
  split
  · exact h.reportFault _
  · exact h

theorem endTask (h : s.Fallen b) (e : Entry) (result : List Byte) (st : Status) : (s.endTask e result st).Fallen b := by
  unfold State.endTask
  split
  · exact h.endAwaited ..
  · exact h.endPosted ..

theorem foldl {α : Type} {f : State → α → State} (hf : ∀ (s : State) (a : α), s.Fallen b → (f s a).Fallen b)
    (as : List α) (h : s.Fallen b) : (as.foldl f s).Fallen b := by
  induction as generalizing s with
  | nil => exact h
  | cons a as ih => exact ih (hf s a h)

/-! ### The leg tasks -/

theorem runLegSetup (h : s.Fallen b) (l : LegId) (e : Entry) : (s.runLegSetup l e).Fallen b := by
  have hrate (rate : RateClass) : (s.adjustRate l rate).Fallen b := by
    unfold State.adjustRate
    split
    · exact h
    · exact h.modLanes _ fun _ => rfl
  unfold State.runLegSetup
  split
  · exact h.endTask ..
  · split
    · exact h.endTask ..
    · exact ((hrate _).modLeg l rfl).endTask ..

theorem runLegStart (h : s.Fallen b) (l : LegId) (e : Entry) : (s.runLegStart l e).Fallen b := by
  unfold State.runLegStart
  split
  · exact h.endTask ..
  · split
    · exact h.endTask ..
    · split
      · next hactive => exact absurd (h.low.symm.trans hactive) nofun
      · exact (h.modLeg l (f := fun g => { g with intent := true, attempts := 0, givenUp := false }) rfl).endTask ..

theorem runLegPark (h : s.Fallen b) (l : LegId) (e : Entry) : (s.runLegPark l e).Fallen b := by
  rw [State.runLegPark, State.parkByTask_of_parked (h.parked l)]
  exact (h.modLeg l rfl).endTask ..

theorem runLegRetune (h : s.Fallen b) (ht : s.runLegRetune l e = some t) : t.Fallen b := by
  have hout : (s.leg l).state ≠ .carrying := by rw [h.parked]; nofun
  unfold State.runLegRetune at ht
  split at ht
  · cases ht
    exact h.endTask ..
  · rw [if_neg hout] at ht
    cases ht

theorem maskPair (h : s.Fallen b) (i : LaneId) : (s.maskPair i).Fallen b := h.modLanes _ fun _ => rfl

theorem runLaneFunction (h : s.Fallen b) (l : LegId) (e : Entry) : (s.runLaneFunction l e).Fallen b := by
  have hset (i : LaneId) (f : LaneFunction) : (s.setFunction i f).Fallen b := by
    unfold State.setFunction
    split
    · exact h
    · exact State.Fallen.maskPair (s := { s with map := s.map.set i { s.entry i with function := f } })
        (h.of_same rfl rfl rfl (fun _ => rfl) (fun _ => rfl) id) i
  unfold State.runLaneFunction
  split
  · split
    · exact h.endTask ..
    · split
      · exact h.endTask ..
      · exact (hset _ _).endTask ..
  · exact h.endTask ..

theorem runSetTaps (h : s.Fallen b) (ht : s.runSetTaps l e = some t) : t.Fallen b := by
  unfold State.runSetTaps at ht
  split at ht
  · split at ht
    · cases ht
      refine State.Fallen.endTask ?_ ..
      exact h.modLane _ fun _ => rfl
    · cases ht
  · cases ht
    exact h.endTask ..

theorem runEyeScan (h : s.Fallen b) (ht : s.runEyeScan l e = some t) : t.Fallen b := by
  have hout : (s.leg l).state ≠ .carrying := by rw [h.parked]; nofun
  unfold State.runEyeScan at ht
  split at ht
  · rw [if_neg fun hc => hout hc.1] at ht
    cases ht
  · cases ht
    exact h.endTask ..

theorem runSnapshot (h : s.Fallen b) (l : LegId) (e : Entry) : (s.runSnapshot l e).Fallen b := by
  unfold State.runSnapshot
  split
  · dsimp only
    split
    · refine State.Fallen.endTask ?_ ..
      exact h.modLanes _ fun _ => rfl
    · exact h.endTask ..
  · exact h.endTask ..

theorem runLegTask (h : s.Fallen b) (ht : s.runLegTask l e = some t) : t.Fallen b := by
  unfold State.runLegTask at ht
  split at ht
  · cases ht
    exact h.endTask ..
  · split at ht
    · cases ht; exact h.runLegSetup l e
    · cases ht; exact h.runLegStart l e
    · cases ht; exact h.runLegPark l e
    · exact h.runLegRetune ht
    · cases ht; exact h.runLaneFunction l e
    · exact h.runSetTaps ht
    · exact h.runEyeScan ht
    · cases ht; exact h.runSnapshot l e
    · cases ht; exact h
    · cases ht; exact h

/-! ### The leg queues -/

theorem attemptAt (h : s.Fallen b) {j : Nat} (ht : s.attemptAt l j e = some t) : t.Fallen b :=
  (h.setQueue l _).runLegTask ht

theorem passEntries (h : s.Fallen b) (l : LegId) (fuel : Nat) : (s.passEntries l fuel).Fallen b := by
  induction fuel generalizing s with
  | zero => exact h
  | succ fuel ih =>
    unfold State.passEntries
    split
    · split
      · split
        · next ht => exact ih (h.attemptAt ht)
        · exact h.setQueue l _
      · exact h
    · exact h

theorem supersedeAwaited (h : s.Fallen b) (l : LegId) (es : List Entry) : (s.supersedeAwaited l es).Fallen b :=
  .foldl (fun _ e h => h.endTask e _ _) _ h

theorem supersedePosted (h : s.Fallen b) (es : List Entry) : (s.supersedePosted es).Fallen b :=
  (State.Fallen.foldl (fun _ e h => h.endTask e _ _) _ h).freeCount _

theorem passPark (h : s.Fallen b) (ht : s.passPark l = some t) : t.Fallen b := by
  unfold State.passPark at ht
  split at ht
  · cases ht
  · split at ht
    · cases ht
    · split at ht
      · cases ht
        exact (((h.setQueue l _).runLegPark l _).supersedeAwaited l _).supersedePosted _
      · cases ht
        exact (h.setQueue l _).endTask ..

theorem examineRounds (h : s.Fallen b) (l : LegId) (fuel : Nat) : (s.examineRounds l fuel).Fallen b := by
  induction fuel generalizing s with
  | zero => exact h
  | succ fuel ih =>
    unfold State.examineRounds
    split
    · exact h
    · split
      · next ht => exact ih (h.attemptAt ht)
      · have hpass : ((s.deferAt l 0).passEntries l ((s.deferAt l 0).engine l).queue.length).Fallen b :=
          State.Fallen.passEntries (h.setQueue l _) l _
        dsimp only
        split
        · next ht => exact ih (hpass.passPark ht)
        · exact hpass

theorem examineLeg (h : s.Fallen b) (l : LegId) : (s.examineLeg l).Fallen b := h.examineRounds l _

theorem examineLegs (h : s.Fallen b) : s.examineLegs.Fallen b := .foldl (fun _ l h => h.examineLeg l) _ (h.freeCount _)

theorem supersedeDeferred (h : s.Fallen b) : s.supersedeDeferred.Fallen b :=
  (State.Fallen.foldl (fun _ l h => (h.setQueue l _).supersedeAwaited l _) allLegs h).supersedePosted _

theorem finishPowerWait (h : s.Fallen b) (st : Status) : (s.finishPowerWait st).Fallen b :=
  .foldl (fun _ n h => h.endAwaited n _ st) _
    (State.Fallen.of_same (t := { s with powerWait := [] }) h rfl rfl rfl (fun _ => rfl) (fun _ => rfl) id)

end State.Fallen

/-! ### The fall -/

/-- R174: from the fall on the part is fallen, and with the notice raised its bit is set. -/
theorem State.fallen_powerLow (hp : s.lowpwr = true) (st : Status) : (s.powerLow st).Fallen True := by
  have hfall : s.unpowered.lowpwr = true ∧ s.unpowered.effective = .low ∧ s.unpowered.riseTimer = none ∧
      ∀ x, (s.unpowered.lane x).locked = false :=
    ⟨hp, rfl, rfl, fun x => by rw [State.unpowered, State.lane_modAllLanes]⟩
  have hparked : s.unpowered.allParked.Fallen False := by
    obtain ⟨hpin, hlow, htimer, hunlocked⟩ := hfall
    generalize s.unpowered = v at *
    have hexit := State.legsExit_allParked v
    obtain ⟨⟨-, hpin', -⟩, ⟨-, hlow', htimer'⟩, -⟩ := hexit.registers
    refine ⟨hpin'.trans hpin, hlow'.trans hlow, htimer'.trans htimer, fun x => ?_, fun l => ?_, False.elim⟩
    · rw [(hexit.lanes x).2.1, hunlocked]
    · rw [State.leg_allParked]
      exact (Leg.parkedByPower_keeps _).1
  have hnoticed : ((s.unpowered.allParked.supersedeDeferred.finishPowerWait st).raise powerBit).Fallen True := by
    have hraised := (hparked.supersedeDeferred.finishPowerWait st).raise powerBit
    refine ⟨hraised.pin, hraised.low, hraised.timer, hraised.unlocked, hraised.parked, fun _ => ?_⟩
    rw [State.raise_summary, BitVec.getLsbD_or, Bool.or_eq_true]
    exact .inr (by decide)
  exact hnoticed.examineLegs

namespace State.Fallen

/-! ### The device queue -/

theorem runRemap (h : s.Fallen b) (e : Entry) : (s.runRemap e).Fallen b := by
  have hmove (t : State) (ht : t.Fallen b) (sw : LaneId) : (s.moveSwitchLane t sw).Fallen b := by
    unfold State.moveSwitchLane
    dsimp only
    split
    · exact ht
    · exact ht.modLane _ fun _ => rfl
  have hmap (map : Vector MapEntry 8) : (s.applyMap map).Fallen b :=
    .foldl (fun _ i h => h.maskPair i) _ (.foldl (fun t sw ht => hmove t ht sw) allLanes
      (State.Fallen.of_same (t := { s with map := map }) h rfl rfl rfl (fun _ => rfl) (fun _ => rfl) id))
  unfold State.runRemap
  split
  · dsimp only
    split
    · exact (hmap _).endTask ..
    · exact h.endTask ..
  · exact h.endTask ..

theorem runPower (h : s.Fallen b) (e : Entry) : (s.runPower e).Fallen b := by
  have hrequested (p : RequestedPower) : ({ s with requested := p } : State).Fallen b :=
    h.of_same rfl rfl rfl (fun _ => rfl) (fun _ => rfl) id
  unfold State.runPower
  split
  · exact h.endTask ..
  · dsimp only
    rw [if_pos h.low]
    exact (hrequested .low).endTask ..
  · dsimp only
    rw [if_neg (by rw [h.low]; nofun), if_pos h.pin]
    exact (hrequested .active).endTask ..

theorem examineDeviceRounds (h : s.Fallen b) (fuel : Nat) : (s.examineDeviceRounds fuel).Fallen b := by
  induction fuel generalizing s with
  | zero => exact h
  | succ fuel ih =>
    unfold State.examineDeviceRounds
    split
    · exact h
    · next e q _ =>
      have hqueue : ({ s with deviceQueue := q } : State).Fallen b :=
        h.of_same rfl rfl rfl (fun _ => rfl) (fun _ => rfl) id
      refine ih ?_
      unfold State.runDeviceTask
      split
      · exact hqueue.endTask ..
      · split
        · exact hqueue.runRemap _
        · exact hqueue.runPower _

/-! ### The intake -/

theorem takeSlot (h : s.Fallen b) (n : SlotId) (awaited : Bool) : (s.takeSlot n awaited).Fallen b := by
  unfold State.takeSlot
  dsimp only
  split <;> exact h.of_same rfl rfl rfl (fun _ => rfl) (fun _ => rfl) id

theorem takeTask (h : s.Fallen b) (n : SlotId) (kd : TaskKind) (g : Target) : (s.takeTask n kd g).Fallen b := by
  have htaken := h.takeSlot n (s.makeEntry n kd).awaited
  unfold State.takeTask
  cases g with
  | leg l => exact (htaken.setQueue l _).examineLeg l
  | device =>
    exact State.Fallen.examineDeviceRounds (s := { s.takeSlot n (s.makeEntry n kd).awaited with
      deviceQueue := (s.takeSlot n (s.makeEntry n kd).awaited).deviceQueue ++ [s.makeEntry n kd] })
      (htaken.of_same rfl rfl rfl (fun _ => rfl) (fun _ => rfl) id) _

theorem refuseSlot (h : s.Fallen b) (n : SlotId) (st : Status) : (s.refuseSlot n st).Fallen b := by
  unfold State.refuseSlot
  dsimp only
  split
  · exact State.Fallen.endAwaited
      (s := State.modSlot { s.leaveList n with mem := s.mem.clear (slotBase n + 0x80) 0x80 } n
        fun c => { c with cancelAsked := false })
      (h.of_same rfl rfl rfl (fun _ => rfl) (fun _ => rfl) id) ..
  · exact State.Fallen.endPosted (s := (s.leaveList n).modSlot n fun c => { c with state := .empty })
      (h.of_same rfl rfl rfl (fun _ => rfl) (fun _ => rfl) id) ..

theorem considerSlot (h : s.Fallen b) (n : SlotId) : (s.considerSlot n).Fallen b := by
  unfold State.considerSlot
  split
  · exact h.refuseSlot n _
  · split
    · exact h
    · exact h.takeTask n _ _

theorem intake (h : s.Fallen b) : s.intake.Fallen b := by
  have hpass (s : State) (ns : List SlotId) (h : s.Fallen b) : (s.intakePass ns).Fallen b :=
    .foldl (fun s n h => by
      split
      · exact h
      · exact h.considerSlot n) ns h
  have hrounds (fuel : Nat) : ∀ s : State, s.Fallen b → (s.intakeRounds fuel).Fallen b := by
    induction fuel with
    | zero => exact fun _ => id
    | succ fuel ih =>
      intro s h
      unfold State.intakeRounds
      dsimp only
      split
      · exact h
      · split
        · exact ih _ (hpass s _ h)
        · exact hpass s _ h
  exact hrounds _ s h

end State.Fallen

end Sys2Proof.Machine
end

section
/-! LOWPWR_ASSERT (O8). -/

namespace Sys2Proof.Machine

variable {s t u : State} {n m : SlotId} {l k : LegId} {p : PageId}

/-! ### The tasks in flight that no page holds -/

theorem State.slot_parkLeg (h : ∀ p, ¬(s.page p).Scans l n) : (s.parkLeg l).slot n = s.slot n := by
  have habandon := s.spares_abandonSessions (p := 0) (m := n) l
  have hscans (p : PageId) : ¬((s.abandonSessions l).page p).Scans l n := fun hp => h p (habandon.pages p l hp)
  exact (State.keepsTask_leaveCarrying hscans).slot.trans habandon.task.slot

/-- R41: the status that a fall of the power leaves to a task no page scans for. -/
theorem State.status_parkByPower (h : ∀ p, ¬(s.page p).Scans l n) : ((s.parkByPower l).slot n).status =
    if (s.leg l).state ≠ .parked ∧ (s.engine l).inFlight = some n then .superseded else (s.slot n).status := by
  by_cases hp : (s.leg l).state = .parked
  · rw [State.parkByPower_of_parked hp, if_neg fun h => h.1 hp]
  · rw [State.parkByPower_of_out hp, State.slot_reportOutcome, State.inFlight_parkLeg, State.slot_parkLeg h]
    by_cases hn : (s.engine l).inFlight = some n
    · rw [if_pos hn, if_pos ⟨hp, hn⟩]
    · rw [if_neg hn, if_neg fun h => hn h.2]

theorem State.scans_parkByPower (hscan : ((s.parkByPower k).page p).Scans l n) : (s.page p).Scans l n := by
  by_cases hp : (s.leg k).state = .parked
  · rwa [State.parkByPower_of_parked hp] at hscan
  · rw [State.parkByPower_of_out hp, State.page_reportOutcome] at hscan
    refine (s.spares_abandonSessions (p := 0) (m := n) k).pages p l ?_
    rw [State.parkLeg, State.page_modLeg, State.leaveCarrying] at hscan
    split at hscan
    · exact Page.scans_of_interrupted (State.page_interruptScans ((s.abandonSessions k).legNotice k) k p ▸ hscan)
    · exact hscan

/-- R41, R174: a task in flight of a leg that the fall parks is DONE with SUPERSEDED if no page scans for it. -/
theorem State.status_allParked (hp : (s.leg l).state ≠ .parked) (hn : (s.engine l).inFlight = some n)
    (hscan : ∀ p k, ¬(s.page p).Scans k n) : (s.allParked.slot n).status = .superseded := by
  have hclear {t : State} (k : LegId) (ht : ∀ p j, ¬(t.page p).Scans j n) (p : PageId) (j : LegId) :
      ¬((t.parkByPower k).page p).Scans j n := fun h => ht p j (State.scans_parkByPower h)
  refine (foldl_reaches (i := l) (f := fun s l => State.parkByPower s l)
    (Q := fun t => (t.leg l).state ≠ .parked ∧ (t.engine l).inFlight = some n ∧ ∀ p k, ¬(t.page p).Scans k n)
    (P := fun t => (t.slot n).status = .superseded ∧ ∀ p k, ¬(t.page p).Scans k n)
    (fun t ht => ?step) (fun t k hk ht => ?before) (fun t k ht => ?after) (mem_allLegs l) s ⟨hp, hn, hscan⟩).1
  case step =>
    obtain ⟨hp, hn, hscan⟩ := ht
    exact ⟨(State.status_parkByPower fun p => hscan p l).trans (if_pos ⟨hp, hn⟩), hclear l hscan⟩
  case before =>
    obtain ⟨hp, hn, hscan⟩ := ht
    have hup := (legExit_parkByPower t k).toUpdate
    rw [hup.legs l (Ne.symm hk), hup.engines l (Ne.symm hk)]
    exact ⟨hp, hn, hclear k hscan⟩
  case after =>
    obtain ⟨hstatus, hscan⟩ := ht
    refine ⟨(State.status_parkByPower fun p => hscan p k).trans ?_, hclear k hscan⟩
    rw [hstatus, ite_self]

/-! ### The power wait list -/

theorem State.noted_endAll (ns : List SlotId) (result : List Byte) (st : Status) (hm : m ∈ ns) (s : State) :
    (s.endAll ns result st).summary.getLsbD m.val = true := by
  induction ns generalizing s with
  | nil => cases hm
  | cons n ns ih =>
    by_cases hin : m ∈ ns
    · exact ih hin _
    · obtain rfl := (List.mem_cons.mp hm).resolve_right hin
      refine State.summary_endAll ns result st _ ?_
      rw [State.endAwaited_summary, BitVec.getLsbD_or, getLsbD_slotBit_self, Bool.or_true]

theorem State.noted_finishPowerWait (hm : m ∈ s.powerWait) (st : Status) :
    (s.finishPowerWait st).summary.getLsbD m.val = true :=
  State.noted_endAll s.powerWait s.powerResult st hm { s with powerWait := [] }

/-! ### The part after the fall -/

section
variable (s : State) (st : Status)

/-- What the fall leaves of the part with no task waiting. -/
theorem State.fell_registers : s.SamePins (s.fell st) ∧ (s.fell st).requested = s.requested ∧
    (s.fell st).effective = .low ∧ (s.fell st).riseTimer = none ∧ s.SameDevice (s.fell st) ∧ s.SameMap (s.fell st) ∧
    s.SameFaults (s.fell st) ∧ s.SameLine (s.fell st) ∧ s.SameSettings (s.fell st) := by
  have hfall : s.SamePins s.unpowered ∧ s.unpowered.requested = s.requested ∧ s.unpowered.effective = .low ∧
      s.unpowered.riseTimer = none ∧ s.SameDevice s.unpowered ∧ s.SameMap s.unpowered ∧ s.SameFaults s.unpowered ∧
      s.SameLine s.unpowered ∧ s.SameSettings s.unpowered :=
    ⟨⟨rfl, rfl, rfl⟩, rfl, rfl, rfl, ⟨rfl, rfl, rfl, rfl, rfl, rfl⟩, fun _ => rfl, ⟨rfl, rfl⟩,
      ⟨rfl, rfl, rfl, rfl, rfl⟩, ⟨rfl, rfl, rfl⟩⟩
  unfold State.fell
  generalize s.unpowered = v at *
  obtain ⟨hpins, ⟨hrequested, hlow, htimer⟩, hdevice, hmap, hfaults, hsettings, hline, -⟩ :=
    (State.legsExit_allParked v).registers
  generalize v.allParked = w at *
  obtain ⟨hpins', ⟨hrequested', hlow', htimer'⟩, hdevice', hmap', -, -, -, hfaults', hline', hsettings', -⟩ :=
    w.finishPowerWait_keeps st
  obtain ⟨hpins₀, hrequested₀, hlow₀, htimer₀, hdevice₀, hmap₀, hfaults₀, hline₀, hsettings₀⟩ := hfall
  exact ⟨(hpins₀.trans hpins).trans hpins', (hrequested'.trans hrequested).trans hrequested₀,
    (hlow'.trans hlow).trans hlow₀, (htimer'.trans htimer).trans htimer₀, (hdevice₀.trans hdevice).trans hdevice',
    (hmap₀.trans hmap).trans hmap', (hfaults₀.trans hfaults).trans hfaults', (hline₀.trans hline).trans hline',
    (hsettings₀.trans hsettings).trans hsettings'⟩

/-- The lane sides after the fall: UNLOCKED, and otherwise as far as signals, taps and counters go as before. -/
theorem State.lane_fell (x : LaneSide) : ((s.fell st).lane x).locked = false ∧
    ((s.fell st).lane x).presence = (s.lane x).presence ∧ ((s.fell st).lane x).taps = (s.lane x).taps ∧
    ((s.fell st).lane x).counters = (s.lane x).counters := by
  have hexit := State.legsExit_allParked s.unpowered
  obtain ⟨-, -, -, -, hlanes, -⟩ := s.unpowered.allParked.finishPowerWait_keeps st
  have hlane : (s.fell st).lane x = s.unpowered.allParked.lane x := (State.lane_raise ..).trans (hlanes x List.not_mem_nil)
  obtain ⟨hpresence, hlocked, hcounters, -⟩ := hexit.lanes x
  rw [hlane, hpresence, hlocked, hcounters, hexit.taps x, State.unpowered, State.lane_modAllLanes]
  exact ⟨rfl, rfl, rfl, rfl⟩

theorem State.notice_fell : (s.fell st).summary.getLsbD 25 = true := by
  rw [State.fell, State.raise_summary, BitVec.getLsbD_or, Bool.or_eq_true]
  exact .inr (by decide)

/-- R160: the tasks of the power wait list after the fall. -/
theorem State.waiting_fell (hm : m ∈ s.powerWait) : ((s.fell st).slot m).state = .done ∧
    ((s.fell st).slot m).status = st ∧ (s.fell st).summary.getLsbD m.val = true := by
  obtain ⟨-, -, -, -, -, -, -, -, hwait, -⟩ := (State.legsExit_allParked s.unpowered).registers
  obtain ⟨-, -, -, hwait', -⟩ := s.unpowered_tasks
  have hin : m ∈ s.unpowered.allParked.powerWait := by rwa [hwait, hwait']
  rw [State.fell, State.slot_raise, State.slot_finishPowerWait, if_pos hin, State.raise_summary, BitVec.getLsbD_or,
    State.noted_finishPowerWait hin, Bool.true_or]
  exact ⟨rfl, rfl, rfl⟩

end

/-- R41: the engine of a leg that the fall parks, and its task in flight. -/
theorem State.inFlight_fell (hp : (s.leg l).state ≠ .parked) (st : Status) : ((s.fell st).engine l).inFlight = none ∧
    ∀ n, (s.engine l).inFlight = some n → ((s.fell st).slot n).state = .done ∧
      (s.fell st).summary.getLsbD n.val = true ∧
      (n ∉ s.powerWait → (∀ p left, (s.page p).state ≠ .busy n left) → ((s.fell st).slot n).status = .superseded) := by
  obtain ⟨-, -, -, -, -, -, -, -, hwait, -⟩ := (State.legsExit_allParked s.unpowered).registers
  obtain ⟨-, -, -, hwait', -⟩ := s.unpowered_tasks
  obtain ⟨-, -, -, -, -, -, -, -, -, -, hengines, -⟩ := s.unpowered.allParked.finishPowerWait_keeps st
  have hengine : (s.fell st).engine l = s.unpowered.allParked.engine l := (State.engine_raise ..).trans (hengines l)
  refine ⟨by rw [hengine]; exact State.inFlight_allParked (s := s.unpowered) hp, fun n hn => ?_⟩
  obtain ⟨hdone, hnoted⟩ := State.done_allParked (s := s.unpowered) hp hn
  rw [State.fell, State.slot_raise, State.slot_finishPowerWait, State.raise_summary, BitVec.getLsbD_or,
    State.summary_finishPowerWait _ st hnoted, Bool.true_or, hwait, hwait']
  refine ⟨?_, rfl, fun hno hscan => ?_⟩
  · split
    · rfl
    · exact hdone
  · rw [if_neg hno]
    exact State.status_allParked (s := s.unpowered) hp hn fun p k ⟨_, left, hbusy⟩ => hscan p left hbusy

theorem exec_lowpwrAssert_falls (hr : s.resetHeld = false) (hl : s.lowpwr = false) (he : s.effective ≠ .low) :
    exec .lowpwrAssert s = .next (s.heldLow.powerLow .heldLow).intake := by
  have hcan : ¬((s.lowpwr || s.resetHeld || decide (s.effective = .low)) = true) := by simp [hr, hl, he]
  show execLowpwrAssert s = _
  rw [execLowpwrAssert, if_neg hcan]
  exact rfl

theorem State.sameDevice_of_registers (h : t.fixed = s.fixed) : s.SameDevice t :=
  ⟨State.device_of_fixed h, State.initTimer_of_fixed h, State.initByPowerOn_of_fixed h, State.resetTimer_of_fixed h,
    State.lastCause_of_fixed h, State.releaseCause_of_fixed h⟩

theorem State.sameLine_of_registers (h : t.fixed = s.fixed) : s.SameLine t :=
  ⟨State.offset_of_fixed h, State.writeOpen_of_fixed h, State.readOpen_of_fixed h, State.acknowledged_of_fixed h,
    State.readData_of_fixed h⟩

/-- Settles O8: the part is fallen once its legs are PARKED, and neither the queues nor the intake raise it; with no
task waiting the fall is the parking of each leg by itself and the end of the power wait list. -/
theorem lowpwrAssertionTakesThePartLow : Obligations.LowpwrAssertionTakesThePartLow := by
  intro s hr hl he
  have hfallen : (s.heldLow.powerLow .heldLow).intake.Fallen True := (State.fallen_powerLow (s := s.heldLow) rfl _).intake
  have hfixed : (s.heldLow.powerLow .heldLow).intake.fixed = s.heldLow.fixed := by simp
  refine ⟨_, exec_lowpwrAssert_falls hr hl he, hfallen.pin, hfallen.low, hfallen.timer, hfallen.unlocked, hfallen.parked,
    fun x => State.transmit_of_stopped (.inr (by rw [hfallen.low]; nofun)), hfallen.notice trivial,
    State.straps_of_fixed (s := s.heldLow) hfixed, State.sameDevice_of_registers (s := s.heldLow) hfixed,
    State.sameLine_of_registers (s := s.heldLow) hfixed, State.enables_of_fixed (s := s.heldLow) hfixed, fun hw => ?quiet⟩
  case quiet =>
    have heq : (s.heldLow.powerLow .heldLow).intake = s.heldLow.fell .heldLow :=
      Host.Outcome.next.inj ((exec_lowpwrAssert_falls hr hl he).symm.trans (exec_lowpwrAssert_of_noWork hr hl he hw))
    rw [heq]
    obtain ⟨-, hrequested, -, -, -, hmap, hfaults, -⟩ := s.heldLow.fell_registers .heldLow
    obtain ⟨-, -, -, hwait, -⟩ := s.heldLow.fell_tasks .heldLow
    refine ⟨hrequested, hwait, hmap, hfaults, fun n hn => s.heldLow.waiting_fell .heldLow hn,
      fun x => (s.heldLow.lane_fell .heldLow x).2, fun l => ?_⟩
    obtain ⟨-, hintent, hsetup, -⟩ := (s.heldLow.leg l).parkedByPower_keeps
    rw [State.leg_fell]
    exact ⟨hintent, hsetup, fun hp => State.inFlight_fell (s := s.heldLow) hp .heldLow⟩

end Sys2Proof.Machine
end

section
/-! The device tasks handed over with nothing waiting: REMAP (O51). -/

namespace Sys2Proof.Machine

variable {s t u v : State} {n m : SlotId} {k : TaskKind} {h : TaskHeader} {args : List Byte} {l : LegId} {i : LaneId}
  {e : Entry} {map : Vector MapEntry 8}

/-! ### The hand-over of a device task (R138, R153) -/

theorem State.checkSlot_device (hs : s.TakesTask n) (hk : k.device = true) (hh : AwaitedForDevice h) :
    (s.filledTask n k h args).checkSlot n = .ok (k, .device) := by
  obtain ⟨hc, hleg, -⟩ := hh
  have hbyte (i : Nat) := State.filledTask_slotByte (n := n) (k := k) (h := h) (args := args) hs.wf i
  have h0 : (s.filledTask n k h args).slotByte n 0 = k.code := by simp [hbyte]
  have h1 : (s.filledTask n k h args).slotByte n 1 = h.cls := by simp [hbyte]
  have h2 : (s.filledTask n k h args).slotByte n 2 = h.leg := by simp [hbyte]
  have hpost : ¬(h.cls = 1#8 ∧ k.postable = false) := fun hb => hc hb.1
  simp [State.checkSlot, h0, h1, h2, hpost, hk, hleg]

/-- R139, R146, R153: an awaited device task is taken and executed. -/
theorem State.handOverTask_device (ha : s.AcceptsTask n) (hh : AwaitedForDevice h) (hk : k.device = true)
    (hl : args.length ≤ 0x10) :
    s.handOverTask n k h args = (s.takenTask n k h args).runDeviceTask (awaitedEntry n k h) := by
  have hs := ha.takes
  obtain ⟨-, -, -, -, ⟨-, -, hdevice⟩, -⟩ := ha
  rw [State.handOverTask_takes hs hl (State.checkSlot_device hs hk hh) (by simp [State.hasRoom, hdevice, Config.deviceQueueCapacity])]
  simp only [State.takeTask, State.makeEntry_filledTask hs.wf hh.1]
  rw [show (awaitedEntry n k h).awaited = true from rfl, State.takeSlot_filledTask hs.list]
  have hq : (s.takenTask n k h args).deviceQueue = [] := hdevice
  have hrestore : ({ s.takenTask n k h args with deviceQueue := [] } : State) = s.takenTask n k h args := by
    rw [← hq]
  rw [hq, List.nil_append]
  show ({ s.takenTask n k h args with deviceQueue := [] } : State).runDeviceTask (awaitedEntry n k h) = _
  rw [hrestore]

/-! ### The arguments of REMAP -/

/-- R21, step 1: eight sources that name every switch lane are a permutation. -/
theorem isPermutation_iff {g : Nat → Byte} :
    isPermutation ((List.range 8).map g) = true ↔ ∀ sw : LaneId, ∃ i : LaneId, (g i.val).toNat = sw.val := by
  refine ⟨exists_of_isPermutation, fun hall => ?_⟩
  choose f hf using hall
  have hinjective : Function.Injective f := fun a b hab => Fin.ext (by rw [← hf a, ← hf b, hab])
  have hsurjective := Finite.surjective_of_injective hinjective
  refine Bool.and_eq_true_iff.mpr ⟨List.all_eq_true.mpr fun sw _ => ?_, List.all_eq_true.mpr fun b hb => ?_⟩
  · exact List.any_eq_true.mpr ⟨g (f sw).val, List.mem_map.mpr ⟨(f sw).val, List.mem_range.mpr (f sw).isLt, rfl⟩,
      decide_eq_true (hf sw)⟩
  · obtain ⟨i, hi, rfl⟩ := List.mem_map.mp hb
    obtain ⟨sw, hsw⟩ := hsurjective ⟨i, List.mem_range.mp hi⟩
    have hval : (g i).toNat = sw.val := by rw [← hf sw, hsw]
    exact decide_eq_true (hval ▸ sw.isLt)

/-! ### The masks of the changed lanes (R18) -/

theorem LaneState.startMask_startMask (v : LaneState) : v.startMask.startMask = v.startMask := rfl

theorem State.maskPairs_eq (is : List LaneId) (s : State) : is.foldl (fun t i => t.maskPair i) s =
    s.modLanes (is.flatMap fun i => [s.sideOf i .line, s.sideOf i .switch]) LaneState.startMask := by
  induction is generalizing s with
  | nil => rfl
  | cons i is ih =>
    have hside (j : LaneId) (d : Side) : (s.maskPair i).sideOf j d = s.sideOf j d := by
      have hentry (k : LaneId) : (s.maskPair i).entry k = s.entry k := by rw [State.maskPair, State.entry_modLanes]
      cases d
      · rfl
      · exact congrArg (fun w : MapEntry => (⟨.switch, w.source⟩ : LaneSide)) (hentry j)
    refine (ih (s.maskPair i)).trans ?_
    simp only [hside, List.flatMap_cons]
    exact (List.foldl_append ..).symm

theorem State.lane_maskPairs (hmap : s.MapPermutes) (is : List LaneId) (x : LaneSide) :
    (is.foldl (fun t i => t.maskPair i) s).lane x =
      if s.lineOf x ∈ is then (s.lane x).startMask else s.lane x := by
  have hmem : x ∈ is.flatMap (fun i => [s.sideOf i .line, s.sideOf i .switch]) ↔ s.lineOf x ∈ is := by
    obtain ⟨d, j⟩ := x
    cases d with
    | line => simp [State.sideOf, State.lineOf]
    | switch =>
      have hsource : ∀ i, j = (s.entry i).source ↔ i = s.fedBy j := fun i =>
        ⟨fun hj => by rw [hj, State.fedBy_source hmap], fun hi => by rw [hi, State.source_fedBy hmap]⟩
      simp [State.sideOf, State.lineOf, hsource]
  rw [State.maskPairs_eq]
  split
  · next hx => exact State.lane_modLanes_of_idempotent LaneState.startMask_startMask _ (hmem.mpr hx)
  · next hx => exact State.lane_modLanes_of_notMem _ _ _ _ (mt hmem.mp hx)

/-! ### A map applied -/

theorem State.applyMap_sameButLanes (s : State) (map : Vector MapEntry 8) : s.SameButLanes (s.applyMap map) := by
  have hmasks (is : List LaneId) (t : State) : t.SameButLanes (is.foldl (fun t i => t.maskPair i) t) := by
    rw [State.maskPairs_eq]
    exact State.modLanes_sameButLanes t _ _
  exact (s.remap_sameButLanes map).trans (hmasks _ _)

theorem State.entry_applyMap (s : State) (map : Vector MapEntry 8) (i : LaneId) : (s.applyMap map).entry i = map[i] := by
  rw [State.applyMap, State.maskPairs_eq, State.entry_modLanes, State.entry_moveSwitchLanes]
  exact rfl

theorem State.mem_changedLanes (s : State) (map : Vector MapEntry 8) (i : LaneId) :
    i ∈ s.changedLanes map ↔ (s.applyMap map).entry i ≠ s.entry i := by
  rw [State.entry_applyMap, State.changedLanes, List.mem_filter, and_iff_right (mem_allLanes i), decide_eq_true_iff]
  exact ne_comm

/-- R18, R21, R80: a lane side after a whole map was applied. -/
theorem State.lane_applyMap (s : State) (hsource : ∀ sw, ∃ i : LaneId, map[i].source = sw) (x : LaneSide) :
    (s.applyMap map).lane x = { s.lane x with
      taps := if x.side = .switch ∧ (s.applyMap map).legOf x ≠ s.legOf x ∧ (s.applyMap map).rateOf x = .rcA
        then { (s.lane x).taps with pre := 0 } else (s.lane x).taps
      mask := if (s.applyMap map).entry ((s.applyMap map).lineOf x) ≠ s.entry ((s.applyMap map).lineOf x)
        then ⟨some 2000, if (s.lane x).mask.timer = none then (s.lane x).presence.qualified else (s.lane x).mask.start⟩
        else (s.lane x).mask } := by
  obtain ⟨w, hw⟩ : ∃ w : State, w = { s with map := map } := ⟨_, rfl⟩
  obtain ⟨v, hv⟩ : ∃ v, v = allLanes.foldl (fun t sw => State.moveSwitchLane s t sw) w := ⟨_, rfl⟩
  have happly : s.applyMap map = (s.changedLanes map).foldl (fun t i => t.maskPair i) v := by
    rw [hv, hw]
    exact rfl
  have hentry (i : LaneId) : v.entry i = map[i] := by
    rw [hv, State.entry_moveSwitchLanes, hw]
    exact rfl
  have hsources (i : LaneId) : ((s.applyMap map).entry i).source = (v.entry i).source := by
    rw [State.entry_applyMap, hentry]
  have hline : (s.applyMap map).lineOf x = v.lineOf x := by
    obtain ⟨d, j⟩ := x
    cases d with
    | line => rfl
    | switch => exact State.fedBy_of_sources hsources j
  obtain ⟨hleg, hrate⟩ : (s.applyMap map).legOf x = w.legOf x ∧ (s.applyMap map).rateOf x = w.rateOf x := by
    have hsame := State.legOf_moveSwitchLanes s w allLanes x
    have hsame' := State.rateOf_moveSwitchLanes s w allLanes x
    rw [← hv] at hsame hsame'
    rw [← hsame, ← hsame', happly, State.maskPairs_eq]
    exact ⟨State.legOf_modLanes .., State.rateOf_modLanes ..⟩
  have hmap : v.MapPermutes := fun sw => by
    obtain ⟨i, hi⟩ := hsource sw
    exact ⟨i, by rw [hentry, hi]⟩
  have hmoved : v.lane x = { s.lane x with
      taps := if x.side = .switch ∧ w.legOf x ≠ s.legOf x ∧ w.rateOf x = .rcA
        then { (s.lane x).taps with pre := 0 } else (s.lane x).taps } := by
    have hlane : w.lane x = s.lane x := by rw [hw]; exact rfl
    rw [hv, State.lane_moveSwitchLanes s w (by decide) x, hlane]
    by_cases hd : x.side = .switch ∧ s.legOf x ≠ w.legOf x
    · rw [if_pos ⟨hd.1, mem_allLanes x.lane, hd.2⟩]
      cases hr : w.rateOf x with
      | rcA => rw [if_pos ⟨hd.1, hd.2.symm, rfl⟩]; exact rfl
      | rcB | rcC => rw [if_neg fun hc => nomatch hc.2.2]; exact rfl
    · rw [if_neg fun hc => hd ⟨hc.1, hc.2.2⟩, if_neg fun hc => hd ⟨hc.1, hc.2.1.symm⟩]
  have hmasked : (s.applyMap map).lane x =
      if v.lineOf x ∈ s.changedLanes map then (v.lane x).startMask else v.lane x := by
    rw [happly, State.lane_maskPairs hmap]
  rw [hleg, hrate, hline, hmasked, hmoved]
  by_cases hc : (s.applyMap map).entry (v.lineOf x) ≠ s.entry (v.lineOf x)
  · rw [if_pos ((s.mem_changedLanes map _).mpr hc), if_pos hc]
    cases ht : (s.lane x).mask.timer <;> simp [LaneState.startMask, ht, Config.maskTime]
  · rw [if_neg (mt (s.mem_changedLanes map _).mp hc), if_neg hc]

/-! ### REMAP executed -/

theorem getLsbD_lanesMask (is : List LaneId) (i : LaneId) : (lanesMask is).getLsbD i.val = decide (i ∈ is) := by
  have hbit : ∀ j i : LaneId, (laneBit j).getLsbD i.val = decide (i = j) := by decide
  have hfold (m : Byte) : (is.foldl (fun m i => m ||| laneBit i) m).getLsbD i.val = (m.getLsbD i.val || decide (i ∈ is)) := by
    induction is generalizing m with
    | nil => simp
    | cons j is ih =>
      rw [List.foldl_cons, ih, BitVec.getLsbD_or, hbit, Bool.or_assoc, ← Bool.decide_or]
      simp only [List.mem_cons]
  rw [lanesMask, hfold]
  simp

theorem State.runDeviceTask_remap (hp : e.patience.toNat ≤ 3) (hk : e.kind = .remap) :
    u.runDeviceTask e = u.runRemap e := by
  have hg : e.patienceGood = true := decide_eq_true hp
  simp [State.runDeviceTask, hg, hk]

section
variable (hperm : ∀ sw : LaneId, ∃ i : LaneId, (u.arg e i.val).toNat = sw.val)
include hperm

theorem State.runRemap_wrongState (i : LaneId) (hi : (u.remapped e)[i] ≠ u.entry i)
    (hout : (u.leg (legOfLine u.straps.profile i)).state ≠ .parked) : u.runRemap e = u.endTask e [] .wrongState := by
  have hchanged : i ∈ u.changedLanes (u.remapped e) := by rwa [State.mem_changedLanes, State.entry_applyMap]
  have hall : ¬(u.changedLanes (u.remapped e)).all
      (fun i => (u.leg (legOfLine u.straps.profile i)).state = .parked) = true := fun hall =>
    hout (of_decide_eq_true (List.all_eq_true.mp hall i hchanged))
  rw [State.runRemap, if_pos (isPermutation_iff.mpr hperm)]
  exact if_neg hall

theorem State.runRemap_applies (hparked : ∀ i : LaneId, (u.remapped e)[i] ≠ u.entry i →
    (u.leg (legOfLine u.straps.profile i)).state = .parked) : u.runRemap e =
      (u.applyMap (u.remapped e)).endTask e [lanesMask (u.changedLanes (u.remapped e)),
        BitVec.ofNat 8 (u.changedLanes (u.remapped e)).length] .ok := by
  have hall : (u.changedLanes (u.remapped e)).all
      (fun i => (u.leg (legOfLine u.straps.profile i)).state = .parked) = true :=
    List.all_eq_true.mpr fun i hi => decide_eq_true (hparked i (by rwa [State.mem_changedLanes, State.entry_applyMap] at hi))
  rw [State.runRemap, if_pos (isPermutation_iff.mpr hperm)]
  exact if_pos hall

end

theorem State.runRemap_badArgument (h : ¬∀ sw : LaneId, ∃ i : LaneId, (u.arg e i.val).toNat = sw.val) :
    u.runRemap e = u.endTask e [] .badArgument := by
  rw [State.runRemap, if_neg (mt isPermutation_iff.mp h)]

/-- R21: the argument bytes of a REMAP taken. -/
theorem arg_remap (ha : s.AcceptsTask n) (sources : Vector Byte 8) (switchMask lineMask : Byte)
    (hu : u = s.takenTask n .remap h (sources.toList ++ [switchMask, lineMask])) :
    (∀ i : LaneId, u.arg (awaitedEntry n .remap h) i.val = sources[i]) ∧
      u.arg (awaitedEntry n .remap h) 8 = switchMask ∧ u.arg (awaitedEntry n .remap h) 9 = lineMask := by
  have hlength : sources.toList.length = 8 := by simp
  have hread (j : Nat) (hj : j < 10) := State.arg_takenTask (k := .remap) (h := h) (n := n) ha.wf
    (args := sources.toList ++ [switchMask, lineMask]) (by simp) j (by simpa using hj)
  rw [hu]
  refine ⟨fun i => ?_, ?_, ?_⟩
  · have hi : i.val < sources.toList.length := by rw [hlength]; exact i.isLt
    rw [hread i.val (by have := i.isLt; omega), List.getD_append _ _ _ _ hi]
    simp
  · rw [hread 8 (by decide), List.getD_append_right _ _ _ _ (by rw [hlength]), hlength]
    exact rfl
  · rw [hread 9 (by decide), List.getD_append_right _ _ _ _ (by rw [hlength]; decide), hlength]
    exact rfl

/-- Settles O51: the checks in their order, and then the map, the masks and the moved switch lanes. -/
theorem remapAppliesTheWholeMap : Obligations.RemapAppliesTheWholeMap := by
  intro n h sources switchMask lineMask entries s ha hh hentries
  have hl : (sources.toList ++ [switchMask, lineMask]).length ≤ 0x10 := by simp
  obtain ⟨u, hu⟩ : ∃ u, u = s.takenTask n .remap h (sources.toList ++ [switchMask, lineMask]) := ⟨_, rfl⟩
  obtain ⟨hsources, hswitch, hline⟩ := arg_remap (h := h) ha sources switchMask lineMask hu
  obtain ⟨⟨-, -, -, -, hlegs, -⟩, hmap, hlanes, -⟩ := State.takenTask_keeps ha hu
  have hexec : exec (.remap n h sources switchMask lineMask) s = .next (u.runRemap (awaitedEntry n .remap h)) := by
    refine congrArg Host.Outcome.next ((State.handOverTask_device ha hh rfl hl).trans ?_)
    rw [← hu, State.runDeviceTask_remap hh.2.2 rfl]
  have hasked (i : LaneId) : (u.remapped (awaitedEntry n .remap h))[i] = entries i := by
    obtain ⟨hsource, hfunction, hswitchPolarity, hlinePolarity⟩ := hentries i
    have hold : u.map[i] = s.entry i := hmap i
    have hremap : (u.remapped (awaitedEntry n .remap h))[i] =
        remapEntry u.map[i] (u.arg (awaitedEntry n .remap h) i.val) (u.arg (awaitedEntry n .remap h) 8)
          (u.arg (awaitedEntry n .remap h) 9) i := by
      simp [State.remapped]
    rw [hremap, hsources, hswitch, hline, hold]
    cases he : entries i with
    | mk source switchPolarity linePolarity function =>
      rw [he] at hsource hfunction hswitchPolarity hlinePolarity
      simp only at hsource hfunction hswitchPolarity hlinePolarity
      simp only [remapEntry, maskPolarity, hfunction, hswitchPolarity, hlinePolarity]
      congr 1
      exact Fin.ext hsource.symm
  have hentry (i : LaneId) : u.entry i = s.entry i := hmap i
  have hstraps : u.straps = s.straps := by rw [hu]; exact rfl
  have hrefused (st : Status) : s.Carried (u.endAwaited n [] st) n .remap h (sources.toList ++ [switchMask, lineMask]) ∧
      s.TaskRefused (u.endAwaited n [] st) n st := by
    rw [hu]
    exact ⟨State.carried_endAwaited ha (.refl _) _ _, State.taskRefused_endAwaited ha hl st⟩
  by_cases hperm : ∀ sw : LaneId, ∃ i : LaneId, sources[i].toNat = sw.val
  case neg =>
    rw [State.runRemap_badArgument (by simpa only [hsources] using hperm)] at hexec
    exact ⟨_, hexec, (hrefused .badArgument).1, fun _ => (hrefused .badArgument).2, fun hp => absurd hp hperm,
      fun hp => absurd hp hperm⟩
  have hperm' : ∀ sw : LaneId, ∃ i : LaneId, (u.arg (awaitedEntry n .remap h) i.val).toNat = sw.val := by
    simpa only [hsources] using hperm
  have hnot : ¬∃ sw : LaneId, ∀ i : LaneId, sources[i].toNat ≠ sw.val := fun ⟨sw, hsw⟩ =>
    (hperm sw).elim fun i hi => hsw i hi
  by_cases hparked : ∀ i, entries i ≠ s.entry i → (s.leg (legOfLine s.straps.profile i)).state = .parked
  case neg =>
    push Not at hparked
    obtain ⟨i, hi, hout⟩ := hparked
    rw [State.runRemap_wrongState hperm' i (by rwa [hasked, hentry])
      (by rwa [hstraps, hlegs _ List.not_mem_nil])] at hexec
    exact ⟨_, hexec, (hrefused .wrongState).1, fun h => absurd h hnot, fun _ _ => (hrefused .wrongState).2,
      fun _ hp => absurd (hp i hi) hout⟩
  case pos =>
    have happlies := State.runRemap_applies (u := u) (e := awaitedEntry n .remap h) hperm' fun i hi => by
      rw [hstraps, hlegs _ List.not_mem_nil]
      exact hparked i (by rwa [hasked, hentry] at hi)
    have hchanged : u.changedLanes (u.remapped (awaitedEntry n .remap h)) =
        allLanes.filter (fun i => entries i ≠ s.entry i) := by
      refine List.filter_congr fun i _ => ?_
      rw [hasked]
      exact decide_eq_decide.mpr (by rw [← hentry]; exact ne_comm)
    rw [happlies, hchanged] at hexec
    have hv := u.applyMap_sameButLanes (u.remapped (awaitedEntry n .remap h))
    have hsource : ∀ sw, ∃ i : LaneId, (u.remapped (awaitedEntry n .remap h))[i].source = sw := fun sw => by
      obtain ⟨i, hi⟩ := hperm sw
      obtain ⟨hsource, -⟩ := hentries i
      refine ⟨i, Fin.ext ?_⟩
      rw [hasked, hsource, hi]
      exact Nat.mod_eq_of_lt sw.isLt
    have hlane := u.lane_applyMap hsource
    have hafter := u.entry_applyMap (u.remapped (awaitedEntry n .remap h))
    generalize u.applyMap (u.remapped (awaitedEntry n .remap h)) = v at *
    have hleg (x : LaneSide) : u.legOf x = s.legOf x := State.legOf_of_sources hstraps (fun i => by rw [hentry]) x
    refine ⟨_, hexec, State.carried_endAwaited ha (hu ▸ hv) _ _, fun h => absurd h hnot,
      fun _ ⟨i, hi, hout⟩ => absurd (hparked i hi) hout, fun _ _ => ⟨fun i => ?_, ⟨_, fun i => ?_,
      State.taskDone_endAwaited ha hl (hu ▸ hv) (by simp) .ok⟩, fun x => ?_, State.sameOutsideLegs_endAwaited (hu ▸ hv) _ _⟩⟩
    · exact (hafter i).trans (hasked i)
    · rw [getLsbD_lanesMask]
      simp [mem_allLanes]
    · have hx := hlane x
      rw [hafter, hasked, hentry, hleg, hlanes x List.not_mem_nil] at hx
      exact hx

end Sys2Proof.Machine
end

section
/-! POWER handed over with nothing waiting (O52). -/

namespace Sys2Proof.Machine

variable {s t u v : State} {n m : SlotId} {h : TaskHeader} {args : List Byte} {l : LegId} {e : Entry} {st : Status}
  {result : List Byte}

/-! ### The bytes after a fall -/

/-- R160: the end of the power wait list writes result areas alone. -/
theorem State.endAll_bytes (ns : List SlotId) (hr : result.length ≤ 0x80) (st : Status) (s : State) (hw : s.mem.wf = true) :
    (s.endAll ns result st).mem.wf = true ∧
      ∀ a, ¬InResults a → (s.endAll ns result st).mem.read a = s.mem.read a := by
  induction ns generalizing s with
  | nil => exact ⟨hw, fun _ _ => rfl⟩
  | cons n ns ih =>
    have hend := State.LegExit.endAwaited s 0 n hr st
    obtain ⟨hwf, hread⟩ := ih _ (hend.wf hw)
    exact ⟨hwf, fun a ha => (hread a ha).trans (hend.read hw a ha)⟩

theorem State.finishPowerWait_bytes (s : State) (st : Status) (hw : s.mem.wf = true) :
    (s.finishPowerWait st).mem.wf = true ∧
      ∀ a, ¬InResults a → (s.finishPowerWait st).mem.read a = s.mem.read a :=
  State.endAll_bytes s.powerWait (by rw [State.length_powerResult]; decide) st { s with powerWait := [] } hw

theorem State.fell_bytes (s : State) (st : Status) (hw : s.mem.wf = true) : (s.fell st).mem.wf = true ∧
    ∀ a, ¬InResults a → (s.fell st).mem.read a = s.mem.read a := by
  have hmem : s.unpowered.mem = s.mem := rfl
  unfold State.fell
  generalize s.unpowered = v at *
  have hexit := State.legsExit_allParked v
  generalize v.allParked = w at *
  rw [State.raise_mem, ← hmem]
  obtain ⟨hwf, hread⟩ := w.finishPowerWait_bytes st (hexit.wf (hmem ▸ hw))
  exact ⟨hwf, fun a ha => (hread a ha).trans (hexit.read (hmem ▸ hw) a ha)⟩

theorem State.asked_fell (s : State) (st : Status) (m : SlotId) :
    ((s.fell st).slot m).cancelAsked = (s.slot m).cancelAsked := by
  have hslot : s.unpowered.slot m = s.slot m := rfl
  unfold State.fell
  generalize s.unpowered = v at *
  have hasked := (State.legsExit_allParked v).asked m
  generalize v.allParked = w at *
  rw [State.slot_raise, State.slot_finishPowerWait, ← hslot]
  split <;> exact hasked

/-! ### A task that moves the registers of the power unit alone -/

/-- Only the power unit and its wait list differ. -/
def State.SameButPower (u v : State) : Prop :=
  ∃ requested effective riseTimer powerWait,
    v = { u with requested := requested, effective := effective, riseTimer := riseTimer, powerWait := powerWait }

theorem State.SameButPower.keeps (ha : s.AcceptsTask n) (hu : u = s.takenTask n .power h args) (hv : u.SameButPower v) :
    s.Carried v n .power h args ∧ s.SameMap v ∧ s.SameLanesBut [] v ∧ s.SameLegsBut [] v ∧ s.SamePagesBut [] v ∧
      (∀ l, v.engine l = s.engine l) ∧ v.summary = s.summary := by
  obtain ⟨⟨-, hpages, -, -, hlegs, hengines⟩, hmap, hlanes, hsummary, hfaults, hqueue, hlist⟩ := State.takenTask_keeps ha hu
  obtain ⟨_, _, _, _, rfl⟩ := hv
  exact ⟨State.carried_of_fixed ha (hu ▸ rfl) (fun _ _ => hu ▸ rfl) hfaults hqueue hlist, hmap, hlanes, hlegs, hpages,
    fun l => hengines l List.not_mem_nil, hsummary⟩

theorem State.TaskDone.congr (h : s.TaskDone t n st result) (hslots : v.slots = t.slots) (hsummary : v.summary = t.summary)
    (hmem : v.mem = t.mem) (hengines : v.engines = t.engines) : s.TaskDone v n st result := by
  obtain ⟨hslot, hbits, hothers, hresult, hbytes, hqueues⟩ := h
  have hs (m : SlotId) : v.slot m = t.slot m := by rw [State.slot, hslots]; exact rfl
  have he (l : LegId) : v.engine l = t.engine l := by rw [State.engine, hengines]; exact rfl
  refine ⟨(hs n).trans hslot, hsummary.trans hbits, fun m hm => (hs m).trans (hothers m hm), fun j hj => ?_, fun a ha => ?_,
    fun l => ?_⟩
  · rw [State.slotByte, hmem]
    exact hresult j hj
  · rw [hmem]
    exact hbytes a ha
  · rw [he]
    exact hqueues l

theorem State.SameButPower.ends (ha : s.AcceptsTask n) (hl : args.length ≤ 0x10) (hu : u = s.takenTask n .power h args)
    (hv : u.SameButPower v) (hr : result.length ≤ 0x80) (st : Status) :
    s.Carried (v.endAwaited n result st) n .power h args ∧ s.TaskDone (v.endAwaited n result st) n st result := by
  have hcarried : s.Carried (u.endAwaited n result st) n .power h args := hu ▸ State.carried_endAwaited ha (.refl _) _ _
  have hdone : s.TaskDone (u.endAwaited n result st) n st result := hu ▸ State.taskDone_endAwaited ha hl (.refl _) hr _
  obtain ⟨_, _, _, _, rfl⟩ := hv
  refine ⟨?_, hdone.congr rfl rfl rfl rfl⟩
  obtain ⟨hwritten, hline, hpins, hdevice, hfaults, henables, hmode, hhold, hqueue, hlist⟩ := hcarried
  exact ⟨hwritten, hline, hpins, hdevice, hfaults, henables, hmode, hhold, hqueue, hlist⟩

/-! ### POWER executed (R160) -/

theorem State.runDeviceTask_power (hp : e.patience.toNat ≤ 3) (hk : e.kind = .power) :
    u.runDeviceTask e = u.runPower e := by
  have hg : e.patienceGood = true := decide_eq_true hp
  simp [State.runDeviceTask, hg, hk]

theorem State.runPower_badArgument (h : 1 < (u.arg e 0).toNat) : u.runPower e = u.endTask e [] .badArgument := by
  have hcode : decodePower (u.arg e 0) = none := by
    unfold decodePower
    split
    · next h0 => omega
    · next h1 => omega
    · rfl
  rw [State.runPower, hcode]

/-- R160: the power unit with a requested power. -/
def State.requesting (s : State) (p : RequestedPower) : State := { s with requested := p }

theorem State.runPower_low (h : u.arg e 0 = 0) (hw : u.NoWork) : u.runPower e =
    (if u.effective = .low then u.requesting .low else (u.requesting .low).fell .superseded).endTask e
      (if u.effective = .low then u.requesting .low else (u.requesting .low).fell .superseded).powerResult .ok := by
  have hcode : decodePower (u.arg e 0) = some .low := by rw [h]; rfl
  have hfall : (u.requesting .low).powerLow .superseded = (u.requesting .low).fell .superseded :=
    State.powerLow_of_noWork (s := u.requesting .low) hw _
  rw [State.runPower, hcode, ← hfall]
  exact rfl

/-- R160: the task of a slot waits for the end of the rise. -/
def State.awaitingRise (s : State) (n : SlotId) : State := { s with powerWait := s.powerWait ++ [n] }

/-- R160, R175: a POWER that asks for ACTIVE. -/
theorem State.runPower_active (h : u.arg e 0 = 1) (ha : e.awaited = true) : u.runPower e =
    if u.effective = .active then (u.requesting .active).endTask e (u.requesting .active).powerResult .ok
    else if u.lowpwr = true then (u.requesting .active).endTask e (u.requesting .active).powerResult .heldLow
    else (u.requesting .active).tryRise.awaitingRise e.slot := by
  have hcode : decodePower (u.arg e 0) = some .active := by rw [h]; rfl
  have hrun : u.runPower e =
      if u.effective = .active then (u.requesting .active).endTask e (u.requesting .active).powerResult .ok
      else if u.lowpwr = true then (u.requesting .active).endTask e (u.requesting .active).powerResult .heldLow
      else if e.awaited = true then (u.requesting .active).tryRise.awaitingRise e.slot
      else (u.requesting .active).tryRise.endTask e [] .ok := by
    rw [State.runPower, hcode]
    exact rfl
  rw [hrun, if_pos ha]

/-- R175: the part that rises for a POWER, when the power is not ACTIVE and LOWPWR not asserted. -/
theorem State.tryRise_requesting (hw : u.NoWork) (hl : u.lowpwr = false) : (u.requesting .active).tryRise =
    if u.effective = .low then { u with requested := .active, effective := .rising, riseTimer := some 10000 }
    else u.requesting .active := by
  rw [State.tryRise_of_noWork (s := u.requesting .active) hw]
  by_cases heff : u.effective = .low
  · rw [if_pos heff]
    exact if_pos ⟨heff, hl, rfl⟩
  · rw [if_neg heff]
    exact if_neg fun hc => heff hc.1

/-- R160, R174: a POWER that takes the part LOW and ends. -/
theorem State.endAwaited_fell (ha : s.AcceptsTask n) (hu : u = s.takenTask n .power h args)
    (hv : v = (u.requesting .low).fell .superseded) :
    s.Carried (v.endAwaited n [0, 0] .ok) n .power h args ∧ s.SameMap v ∧
      (v.endAwaited n [0, 0] .ok).slot n = ⟨.done, .ok, false⟩ ∧ (v.endAwaited n [0, 0] .ok).slotByte n 0x80 = 0 ∧
      (v.endAwaited n [0, 0] .ok).slotByte n 0x81 = 0 ∧ (v.endAwaited n [0, 0] .ok).summary.getLsbD n.val = true := by
  obtain ⟨⟨-, -, -, -, -, -⟩, hmap, -, -, hfaults, hqueue, hlist⟩ := State.takenTask_keeps ha hu
  have hwf : u.mem.wf = true := hu ▸ State.takenTask_wf ha.wf
  have hw : (u.requesting .low).NoWork := ⟨hlist, fun l => by rw [hu]; exact ha.queue_nil l, hqueue⟩
  have hasked : (v.slot n).cancelAsked = false := by
    rw [hv, State.asked_fell]
    have hslot : (u.requesting .low).slot n = u.slot n := rfl
    rw [hslot, hu, State.slot_takenTask, if_pos rfl]
  have hfixed : v.fixed = u.fixed := by
    rw [hv, ← State.powerLow_of_noWork hw, State.powerLow_fixed]
    exact rfl
  obtain ⟨-, -, -, -, -, hmap', hfaults', -⟩ := (u.requesting .low).fell_registers .superseded
  obtain ⟨hlist', hqueue', -⟩ := (u.requesting .low).fell_tasks .superseded
  obtain ⟨hvwf, hread⟩ := (u.requesting .low).fell_bytes .superseded hwf
  rw [← hv] at hmap' hfaults' hlist' hqueue' hvwf hread
  have hend : v.LegExit 0 (v.endAwaited n [0, 0] .ok) := .endAwaited v 0 n (by decide) .ok
  have hbyte (j : Nat) (hj : j < 2) := (State.slotByte_endAwaited (n := n) hvwf n [0, 0] .ok (j := j) hj (by decide)).trans
    (if_pos rfl)
  refine ⟨State.carried_of_fixed ha ?fixed (fun i hi => ?bytes) ?faults (hqueue'.trans hqueue) (hlist'.trans hlist),
    hmap.trans hmap', ?slot, hbyte 0 (by decide), hbyte 1 (by decide), ?summary⟩
  case fixed => rw [State.endAwaited_fixed, hfixed, hu]
  case bytes =>
    rw [hend.slotByte hvwf n hi, ← hu]
    exact hread _ (not_inResults hi)
  case faults => exact hfaults.trans hfaults'
  case slot =>
    rw [State.slot_endAwaited, if_pos rfl]
    exact congrArg (fun b => (⟨.done, .ok, b⟩ : Slot)) hasked
  case summary => rw [State.endAwaited_summary, BitVec.getLsbD_or, getLsbD_slotBit_self, Bool.or_true]

/-- What the obligation says of every POWER, from the task carried. -/
theorem State.Carried.power {requested : Byte} (hc : s.Carried t n .power h [requested]) : s.TaskWritten t n .power h [requested] ∧
    s.LineAfter t (slotBase n + 0x11) ∧ s.SamePins t ∧ s.SameDevice t ∧ s.SameFaults t := by
  obtain ⟨hwritten, hline, hpins, hdevice, hfaults, -⟩ := hc
  exact ⟨hwritten, hline, hpins, hdevice, hfaults⟩

/-- The clause of LOW. -/
theorem State.power_low (ha : s.AcceptsTask n) (hu : u = s.takenTask n .power h [0]) (hw : u.NoWork)
    (harg : u.arg (awaitedEntry n .power h) 0 = 0) (ht : t = u.runPower (awaitedEntry n .power h)) :
    s.Carried t n .power h [0] ∧ s.SameMap t ∧ t.requested = .low ∧ t.effective = .low ∧ t.slot n = ⟨.done, .ok, false⟩ ∧
      t.slotByte n 0x80 = 0 ∧ t.slotByte n 0x81 = 0 ∧ t.summary.getLsbD n.val = true ∧
      (s.effective = .low → s.TaskDone t n .ok [0, 0] ∧ t.riseTimer = s.riseTimer ∧ t.powerWait = s.powerWait ∧
        s.SameLanesBut [] t ∧ s.SameLegsBut [] t ∧ s.SamePagesBut [] t ∧ ∀ l, t.engine l = s.engine l) ∧
      (s.effective ≠ .low → t.riseTimer = none ∧ t.summary.getLsbD 25 = true ∧ t.powerWait = [] ∧
        (∀ m ∈ s.powerWait, m ≠ n → (t.slot m).state = .done ∧ (t.slot m).status = .superseded) ∧
        (∀ l, (t.leg l).state = .parked ∧ (t.leg l).intent = (s.leg l).intent) ∧
        ∀ x, (t.lane x).locked = false ∧ (t.lane x).taps = (s.lane x).taps ∧
          (t.lane x).counters = (s.lane x).counters ∧ (t.lane x).presence = (s.lane x).presence) := by
  obtain ⟨⟨⟨-, heffective, htimer⟩, -, hwait, -, hlegs, -⟩, -, hlanes, -⟩ := State.takenTask_keeps ha hu
  have hrun := State.runPower_low harg hw
  by_cases heff : s.effective = .low
  · have hv : u.SameButPower (u.requesting .low) := ⟨_, _, _, _, rfl⟩
    have hresult : (u.requesting .low).powerResult = [0, 0] := by
      show [RequestedPower.low.code, u.effective.code] = _
      rw [heffective, heff]
      exact rfl
    rw [if_pos (heffective.trans heff), hresult] at hrun
    obtain rfl : t = (u.requesting .low).endAwaited n [0, 0] .ok := ht.trans hrun
    obtain ⟨hcarried, hdone⟩ := hv.ends (result := [0, 0]) ha (by simp) hu (by decide) .ok
    obtain ⟨-, hmap, hlane, hleg, hpages, hengine, -⟩ := hv.keeps ha hu
    obtain ⟨hslot, hsummary, -, hbytes, -⟩ := id hdone
    refine ⟨hcarried, hmap, rfl, heffective.trans heff, hslot, hbytes 0 (by decide), hbytes 1 (by decide), ?_,
      fun _ => ⟨hdone, htimer, hwait, hlane, hleg, hpages, hengine⟩, fun hno => absurd heff hno⟩
    have hbit : (1#32 <<< n.val).getLsbD n.val = true := getLsbD_slotBit_self n
    rw [hsummary, BitVec.getLsbD_or, hbit, Bool.or_true]
  · obtain ⟨v, hv⟩ : ∃ v, v = (u.requesting .low).fell .superseded := ⟨_, rfl⟩
    obtain ⟨-, hrequested, hlow, hnone, -⟩ := (u.requesting .low).fell_registers .superseded
    obtain ⟨-, -, -, hempty, -⟩ := (u.requesting .low).fell_tasks .superseded
    have hnotice := (u.requesting .low).notice_fell .superseded
    have hwaiting {m : SlotId} (hm : m ∈ (u.requesting .low).powerWait) := State.waiting_fell _ .superseded hm
    have hlane := (u.requesting .low).lane_fell .superseded
    have hleg := (u.requesting .low).leg_fell .superseded
    obtain ⟨hcarried, hmap, hslot, hbyte0, hbyte1, hsummary⟩ := State.endAwaited_fell ha hu hv
    rw [← hv] at hrequested hlow hnone hempty hnotice
    simp only [← hv] at hwaiting hlane hleg
    have hresult : v.powerResult = [0, 0] := by
      rw [State.powerResult, hrequested, hlow]
      exact rfl
    rw [if_neg (by rwa [heffective]), ← hv, hresult] at hrun
    obtain rfl : t = v.endAwaited n [0, 0] .ok := ht.trans hrun
    refine ⟨hcarried, hmap, hrequested, hlow, hslot, hbyte0, hbyte1, hsummary, fun h => absurd h heff, fun _ =>
      ⟨hnone, ?_, hempty, fun m hm hne => ?_, fun l => ?_, fun x => ?_⟩⟩
    · rw [State.endAwaited_summary, BitVec.getLsbD_or, hnotice, Bool.true_or]
    · obtain ⟨hdone, hstatus, -⟩ := hwaiting (m := m) (by rw [← hwait] at hm; exact hm)
      rw [State.slot_endAwaited, if_neg hne]
      exact ⟨hdone, hstatus⟩
    · obtain ⟨hparked, hintent, -⟩ := ((u.requesting .low).leg l).parkedByPower_keeps
      rw [State.leg_endAwaited, hleg, ← hlegs l List.not_mem_nil]
      exact ⟨hparked, hintent⟩
    · obtain ⟨hlocked, hpresence, htaps, hcounters⟩ := hlane x
      rw [State.lane_endAwaited, ← hlanes x List.not_mem_nil]
      exact ⟨hlocked, htaps, hcounters, hpresence⟩

/-- The clause of ACTIVE. -/
theorem State.power_active (ha : s.AcceptsTask n) (hu : u = s.takenTask n .power h [1]) (hw : u.NoWork)
    (harg : u.arg (awaitedEntry n .power h) 0 = 1) (ht : t = u.runPower (awaitedEntry n .power h)) :
    s.Carried t n .power h [1] ∧ s.SameMap t ∧ t.requested = .active ∧ s.SameLanesBut [] t ∧ s.SameLegsBut [] t ∧
      s.SamePagesBut [] t ∧ (∀ l, t.engine l = s.engine l) ∧
      (s.effective = .active → s.TaskDone t n .ok [1, 2] ∧ t.effective = .active ∧ t.riseTimer = s.riseTimer ∧
        t.powerWait = s.powerWait) ∧
      (s.effective ≠ .active → s.lowpwr = true →
        s.TaskDone t n .heldLow [1, if s.effective = .low then 0 else 1] ∧ t.effective = s.effective ∧
        t.riseTimer = s.riseTimer ∧ t.powerWait = s.powerWait) ∧
      (s.effective ≠ .active → s.lowpwr = false →
        s.TaskTaken t n ∧ t.effective = .rising ∧ t.powerWait = s.powerWait ++ [n] ∧ t.summary = s.summary ∧
        t.riseTimer = (if s.effective = .low then some 10000 else s.riseTimer)) := by
  obtain ⟨⟨⟨-, heffective, htimer⟩, -, hwait, -⟩, -⟩ := State.takenTask_keeps ha hu
  have hpin : u.lowpwr = s.lowpwr := by rw [hu]; exact rfl
  have hrun := State.runPower_active harg rfl
  rw [heffective, hpin] at hrun
  have hv : u.SameButPower (u.requesting .active) := ⟨_, _, _, _, rfl⟩
  have hends (result : List Byte) (hr : result.length ≤ 0x80) (st : Status) :=
    hv.ends (result := result) ha (by simp) hu hr st
  obtain ⟨-, hmap, hlane, hleg, hpages, hengine, -⟩ := hv.keeps ha hu
  by_cases heff : s.effective = .active
  · have hresult : (u.requesting .active).powerResult = [1, 2] := by
      show [RequestedPower.active.code, u.effective.code] = _
      rw [heffective, heff]
      exact rfl
    rw [if_pos heff, hresult] at hrun
    obtain rfl : t = (u.requesting .active).endAwaited n [1, 2] .ok := ht.trans hrun
    obtain ⟨hcarried, hdone⟩ := hends [1, 2] (by decide) .ok
    exact ⟨hcarried, hmap, rfl, hlane, hleg, hpages, hengine, fun _ => ⟨hdone, heffective.trans heff, htimer, hwait⟩,
      fun hno => absurd heff hno, fun hno => absurd heff hno⟩
  rw [if_neg heff] at hrun
  by_cases hlow : s.lowpwr = true
  · have hresult : (u.requesting .active).powerResult = [1, if s.effective = .low then 0 else 1] := by
      show [RequestedPower.active.code, u.effective.code] = _
      rw [heffective]
      cases hs : s.effective with
      | active => exact absurd hs heff
      | low | rising => exact rfl
    rw [if_pos hlow, hresult] at hrun
    obtain rfl : t = (u.requesting .active).endAwaited n [1, if s.effective = .low then 0 else 1] .heldLow := ht.trans hrun
    obtain ⟨hcarried, hdone⟩ := hends [1, if s.effective = .low then 0 else 1] (by simp) .heldLow
    exact ⟨hcarried, hmap, rfl, hlane, hleg, hpages, hengine, fun h => absurd h heff,
      fun _ _ => ⟨hdone, heffective, htimer, hwait⟩, fun _ hno => absurd (hno.symm.trans hlow) nofun⟩
  · have hlow' : s.lowpwr = false := by simpa using hlow
    rw [if_neg hlow, State.tryRise_requesting hw (hpin.trans hlow'), heffective] at hrun
    have hrises : u.SameButPower t ∧ t.requested = .active ∧ t.effective = .rising ∧ t.powerWait = u.powerWait ++ [n] ∧
        t.riseTimer = (if s.effective = .low then some 10000 else u.riseTimer) := by
      rw [ht, hrun]
      cases hs : s.effective with
      | active => exact absurd hs heff
      | low => exact ⟨⟨_, _, _, _, rfl⟩, rfl, rfl, rfl, rfl⟩
      | rising => exact ⟨⟨_, _, _, _, rfl⟩, rfl, heffective.trans hs, rfl, rfl⟩
    obtain ⟨hsame, hrequested, hrising, hwaits, htimer'⟩ := hrises
    obtain ⟨hcarried, hmap, hlane, hleg, hpages, hengine, hsummary⟩ := hsame.keeps ha hu
    have htaken : s.TaskTaken t n := by
      obtain ⟨_, _, _, _, rfl⟩ := hsame
      exact State.taskTaken_of (k := .power) (h := h) (args := [1]) ha (by simp) (fun _ => hu ▸ rfl) (hu ▸ rfl)
    exact ⟨hcarried, hmap, hrequested, hlane, hleg, hpages, hengine, fun h => absurd h heff,
      fun _ h => absurd (hlow'.symm.trans h) nofun,
      fun _ _ => ⟨htaken, hrising, hwaits.trans (by rw [hwait]), hsummary, htimer'.trans (by rw [htimer])⟩⟩

/-- Settles O52: each code, and for ACTIVE each state of the power, on the state in which the task has been taken. -/
theorem powerTaskMovesThePower : Obligations.PowerTaskMovesThePower := by
  intro n h requested s ha hh
  have hl : [requested].length ≤ 0x10 := by simp
  obtain ⟨u, hu⟩ : ∃ u, u = s.takenTask n .power h [requested] := ⟨_, rfl⟩
  obtain ⟨-, -, -, -, -, hqueue, hlist⟩ := State.takenTask_keeps ha hu
  have hw : u.NoWork := ⟨hlist, fun l => by rw [hu]; exact ha.queue_nil l, hqueue⟩
  have harg : u.arg (awaitedEntry n .power h) 0 = requested := by
    rw [hu, State.arg_takenTask ha.wf hl 0 (by simp)]
    exact rfl
  have hexec : exec (.power n h requested) s = .next (u.runPower (awaitedEntry n .power h)) := by
    refine congrArg Host.Outcome.next ((State.handOverTask_device ha hh rfl hl).trans ?_)
    rw [← hu, State.runDeviceTask_power hh.2.2 rfl]
  obtain ⟨t, ht⟩ : ∃ t, t = u.runPower (awaitedEntry n .power h) := ⟨_, rfl⟩
  rw [← ht] at hexec
  refine ⟨t, hexec, ?_⟩
  rcases (by bv_omega : 1 < requested.toNat ∨ requested = 0 ∨ requested = 1) with hbad | rfl | rfl
  · rw [State.runPower_badArgument (by rwa [harg])] at ht
    obtain rfl : t = u.endAwaited n [] .badArgument := ht
    have hrefused : s.TaskRefused (u.endAwaited n [] .badArgument) n .badArgument := hu ▸ State.taskRefused_endAwaited ha hl _
    have hcarried : s.Carried (u.endAwaited n [] .badArgument) n .power h [requested] :=
      hu ▸ State.carried_endAwaited ha (.refl _) _ _
    obtain ⟨-, -, hmap, -⟩ := id hrefused
    obtain ⟨hwritten, hline, hpins, hdevice, hfaults⟩ := hcarried.power
    exact ⟨hwritten, hline, hpins, hdevice, hfaults, hmap, fun _ => hrefused,
      fun h0 => absurd hbad (by rw [h0]; decide), fun h1 => absurd hbad (by rw [h1]; decide)⟩
  · obtain ⟨hcarried, hmap, hlow⟩ := State.power_low ha hu hw harg ht
    obtain ⟨hwritten, hline, hpins, hdevice, hfaults⟩ := hcarried.power
    exact ⟨hwritten, hline, hpins, hdevice, hfaults, hmap, fun hbad => absurd hbad (by decide), fun _ => hlow, nofun⟩
  · obtain ⟨hcarried, hmap, hactive⟩ := State.power_active ha hu hw harg ht
    obtain ⟨hwritten, hline, hpins, hdevice, hfaults⟩ := hcarried.power
    exact ⟨hwritten, hline, hpins, hdevice, hfaults, hmap, fun hbad => absurd hbad (by decide), nofun, fun _ => hactive⟩

end Sys2Proof.Machine
end

section
/-! LEG_RETUNE handed over with nothing waiting (O46). -/

namespace Sys2Proof.Machine

variable {s t u w : State} {n m : SlotId} {h : TaskHeader} {args : List Byte} {l : LegId} {e : Entry} {d : Side}
  {sides : Byte} {named : List Side}

/-! ### A leg that leaves CARRYING with no scan running -/

theorem State.leaveCarrying_of_quiet (hc : (s.leg l).state = .carrying) (h : ∀ p m, ¬(s.page p).Scans l m) :
    s.leaveCarrying l = s.legNotice l := by
  have hstep (ps : List PageId) : ps.foldl (fun s p => s.interruptScan l p) (s.legNotice l) = s.legNotice l := by
    induction ps with
    | nil => rfl
    | cons p ps ih =>
      have hp : (s.legNotice l).interruptScan l p = s.legNotice l := State.interruptScan_of_not (h p)
      rw [List.foldl_cons, hp, ih]
  rw [State.leaveCarrying, if_pos hc]
  exact hstep allPages

/-! ### LEG_RETUNE executed -/

theorem State.runLegTask_retunes (hp : e.patience.toNat ≤ 3) (hk : e.kind = .legRetune) :
    u.runLegTask l e = u.runLegRetune l e := by
  have hg : e.patienceGood = true := decide_eq_true hp
  rw [State.runLegTask, hg, hk]
  exact rfl

theorem State.runLegRetune_badArgument (h : 2 < (u.arg e 0).toNat) :
    u.runLegRetune l e = some (u.endTask e [] .badArgument) := by
  have hnone : decodeSides (u.arg e 0) = none := by
    unfold decodeSides
    split
    · next h0 => omega
    · next h1 => omega
    · next h2 => omega
    · rfl
  rw [State.runLegRetune, hnone]

theorem State.runLegRetune_waits (h : (u.arg e 0).toNat ≤ 2) (hc : (u.leg l).state ≠ .carrying) :
    u.runLegRetune l e = none := by
  obtain ⟨named, hnamed⟩ := decodeSides_of_le h
  rw [State.runLegRetune, hnamed]
  exact if_neg hc

/-- Table 11-7: the sides that a code names. -/
theorem mem_decodeSides (h : decodeSides sides = some named) (d : Side) :
    (d ∈ named ↔ sides = 2 ∨ (sides = 0 ∧ d = .line) ∨ (sides = 1 ∧ d = .switch)) ∧
      (d ∉ named ↔ (sides = 0 ∧ d = .switch) ∨ (sides = 1 ∧ d = .line)) := by
  have hcases : (sides = 0 ∧ named = [.line]) ∨ (sides = 1 ∧ named = [.switch]) ∨ (sides = 2 ∧ named = [.line, .switch]) := by
    unfold decodeSides at h
    split at h
    · next h0 => exact .inl ⟨BitVec.eq_of_toNat_eq h0, (Option.some.inj h).symm⟩
    · next h1 => exact .inr (.inl ⟨BitVec.eq_of_toNat_eq h1, (Option.some.inj h).symm⟩)
    · next h2 => exact .inr (.inr ⟨BitVec.eq_of_toNat_eq h2, (Option.some.inj h).symm⟩)
    · cases h
  rcases hcases with ⟨rfl, rfl⟩ | ⟨rfl, rfl⟩ | ⟨rfl, rfl⟩ <;> cases d <;> decide

/-! ### The leg, its lane sides and its engine after the launch -/

/-- R40: the state that a LEG_RETUNE leaves, launched on the state in which it has been taken. -/
def State.retuned (u : State) (l : LegId) (n : SlotId) (named : List Side) : State :=
  ((u.legNotice l).enterTune l .retune named).launched l n

theorem State.retuned_keeps (ha : s.AcceptsTask n) (hl : args.length ≤ 0x10) (hu : u = s.takenTask n .legRetune h args)
    (ht : t = u.retuned l n named) : s.Carried t n .legRetune h args ∧ s.TaskTaken t n ∧
      t.engine l = { s.engine l with inFlight := some n } ∧ s.SameOutsideLegs t [l] ∧ s.SameMap t ∧
      t.summary = s.summary ||| (1#32 <<< (16 + l.val)) := by
  obtain ⟨⟨hpower, hpages, hwait, howed, hlegs, hengines⟩, hmap, -, hsummary, hfaults, hqueue, hlist⟩ :=
    State.takenTask_keeps ha hu
  have hothers (k : LegId) (hk : k ∉ [l]) : t.leg k = s.leg k := by
    rw [ht, State.retuned, State.leg_launched,
      (legUpdate_enterTune (u.legNotice l) l .retune named).legs k (by simpa using hk)]
    exact hlegs k List.not_mem_nil
  have hengine (k : LegId) : t.engine k = if k = l then { s.engine l with inFlight := some n } else s.engine k := by
    rw [ht, State.retuned, State.engine_launched, (State.keepsSignals_enterTune _ l _ _).engine,
      (State.keepsSignals_enterTune _ l _ _).engine]
    exact congrArg₂ (fun a b => if k = l then { a with inFlight := some n } else b) (hengines l List.not_mem_nil)
      (hengines k List.not_mem_nil)
  have hcarried := State.carried_of_fixed (t := t) (k := .legRetune) (h := h) (args := args) ha
  have htaken := State.taskTaken_of (t := t) (k := .legRetune) (h := h) (args := args) ha hl
  rw [← hu] at hcarried htaken
  obtain ⟨_, _, _, heq⟩ := (State.keepsSignals_enterTune (u.legNotice l) l .retune named).update
  rw [State.retuned, heq] at ht
  subst ht
  exact ⟨hcarried rfl (fun _ _ => rfl) hfaults hqueue hlist, htaken (fun _ => rfl) rfl, (hengine l).trans (if_pos rfl),
    ⟨hpower, hpages, hwait, howed, hothers, fun k hk => (hengine k).trans (if_neg (by simpa using hk))⟩, hmap,
    congrArg (· ||| legBit l) hsummary⟩

/-- R40, R54, R55: the leg and its lane sides after a LEG_RETUNE. -/
theorem State.retuned_leg (hmap : u.MapPermutes) (ht : t = u.retuned l n named) :
    t.leg l = { u.leg l with
      state := .tune, kind := .retune
      line := (u.leg l).line.enterTune (u.leg l).setup (Side.line ∈ named)
      switch := (u.leg l).switch.enterTune (u.leg l).setup (Side.switch ∈ named) } ∧
    (∀ d, (t.leg l).side d = ((u.leg l).side d).enterTune (u.leg l).setup (d ∈ named)) ∧
    ∀ y, t.lane y = if y ∈ u.allMemberSides l then (u.lane y).enterTune (u.leg l).setup .retune (y.side ∈ named)
      else u.lane y := by
  have hleg := State.leg_enterTune (u.legNotice l) l .retune named
  have hside := State.side_leg_enterTune (u.legNotice l) l .retune named
  have hlane := State.lane_enterTune (s := u.legNotice l) hmap l .retune named
  subst ht
  exact ⟨hleg, hside, hlane⟩

/-- R90, R17: no taps and no counters move. -/
theorem LaneState.enterTune_retune_keeps (g : Setup) (isNamed : Bool) (v : LaneState) :
    (v.enterTune g .retune isNamed).taps = v.taps ∧ (v.enterTune g .retune isNamed).counters = v.counters := by
  cases isNamed <;> exact ⟨rfl, rfl⟩

/-- R40: whatever scans it interrupts, a LEG_RETUNE leaves the task in its slot. -/
theorem State.carried_retune (ha : s.AcceptsTask n) (hu : u = s.takenTask n .legRetune h args) (named : List Side) :
    s.Carried ((u.retune l named).launched l n) n .legRetune h args := by
  obtain ⟨-, -, -, -, hfaults, hqueue, hlist⟩ := State.takenTask_keeps ha hu
  have hexit := legExit_leaveCarrying u l
  have hwf : u.mem.wf = true := hu ▸ State.takenTask_wf ha.wf
  have hsig := State.keepsSignals_enterTune (u.leaveCarrying l) l .retune named
  obtain ⟨-, -, -, -, hfaults', -, -, hqueue', -, hlist', -⟩ := (legUpdate_retune u l named).registers
  have hfixed : ((u.retune l named).launched l n).fixed = u.fixed := by
    simp [State.retune, State.launched]
  have hmem : ((u.retune l named).launched l n).mem = (u.leaveCarrying l).mem := by
    obtain ⟨_, _, _, heq⟩ := hsig.update
    rw [State.retune, heq]
    exact rfl
  refine State.carried_of_fixed ha (hfixed.trans (by rw [hu])) (fun i hi => ?_) (hfaults.trans hfaults')
    (hqueue'.trans hqueue) (hlist'.trans hlist)
  rw [State.slotByte, hmem, ← hu]
  exact hexit.slotByte hwf n hi

/-- Settles O46: refused, deferred, or the entry into TUNE with the named sides' sessions on the state in which the task
has been taken. -/
theorem retuneStartsTheNamedSides : Obligations.RetuneStartsTheNamedSides := by
  intro n h sides l s ha hh
  have hl : [sides].length ≤ 0x10 := by simp
  obtain ⟨u, hu⟩ : ∃ u, u = s.takenTask n .legRetune h [sides] := ⟨_, rfl⟩
  obtain ⟨⟨-, hpages, -, -, hlegs, hengines⟩, hmap, hlanes, -⟩ := State.takenTask_keeps ha hu
  have hleg : u.leg l = s.leg l := hlegs l List.not_mem_nil
  have harg : u.arg (awaitedEntry n .legRetune h) 0 = sides := by
    rw [hu, State.arg_takenTask ha.wf hl 0 (by simp)]
    exact rfl
  have hrun := State.runLegTask_retunes (u := u) (l := l) (e := awaitedEntry n .legRetune h) hh.patience_le rfl
  by_cases hbad : 2 < sides.toNat
  · have hrun := hrun.trans (State.runLegRetune_badArgument (by rwa [harg]))
    rw [hu] at hrun
    exact ⟨_, congrArg Host.Outcome.next (State.handOverTask_ends ha hh rfl hl (.refl _) hrun),
      State.carried_endAwaited ha (.refl _) _ _, fun _ => State.taskRefused_endAwaited ha hl _,
      fun hle => absurd hle (by omega), fun hle => absurd hle (by omega)⟩
  have hle : sides.toNat ≤ 2 := by omega
  by_cases hc : (s.leg l).state = .carrying
  · obtain ⟨named, hnamed⟩ := decodeSides_of_le hle
    have hmem := mem_decodeSides hnamed
    have hcu : (u.leg l).state = .carrying := by rwa [hleg]
    have hrun := State.runLegTask_legRetune (e := awaitedEntry n .legRetune h) hh.patience_le rfl (harg.symm ▸ hnamed) rfl hcu
    refine ⟨_, congrArg Host.Outcome.next (State.handOverTask_runs ha hh rfl hl (hu ▸ hrun) ?queue),
      hu ▸ State.carried_retune ha hu named, fun h => absurd h hbad, fun _ hno => absurd hc hno,
      fun _ _ hperm hquiet => ?launched⟩
    case queue =>
      rw [State.engine_launched, if_pos rfl, (legUpdate_retune _ l _).queue, ← hu, hengines l List.not_mem_nil]
      exact ha.queue_nil l
    rw [← hu]
    have hnone : ∀ p m, ¬(u.page p).Scans l m := fun p m ⟨hl, left, hbusy⟩ => by
      rw [hpages p List.not_mem_nil] at hl hbusy
      exact hquiet p m left hbusy hl
    obtain ⟨t, ht⟩ : ∃ t, t = u.retuned l n named := ⟨_, rfl⟩
    have heq : (u.retune l named).launched l (awaitedEntry n .legRetune h).slot = t := by
      rw [ht, State.retuned, State.retune, State.leaveCarrying_of_quiet hcu hnone]
      exact rfl
    obtain ⟨-, htaken, hengine, houtside, hmap', hsummary⟩ := State.retuned_keeps ha hl hu ht
    have hpermutes : u.MapPermutes := fun sw => by
      obtain ⟨i, hi⟩ := hperm sw
      exact ⟨i, by rw [hmap, hi]⟩
    obtain ⟨hitems, hside, hlane⟩ := State.retuned_leg hpermutes ht
    have hmembers (d : Side) : u.memberSides l d = s.memberSides l d := by rw [hu]; exact rfl
    have hall : u.allMemberSides l = s.allMemberSides l := by rw [hu]; exact rfl
    simp only [hleg, hall, hlanes _ List.not_mem_nil] at hitems hside hlane
    have hmember {d : Side} {x : LaneSide} (hx : x ∈ s.memberSides l d) :
        t.lane x = (s.lane x).enterTune (s.leg l).setup .retune (d ∈ named) := by
      obtain ⟨hin, rfl⟩ := State.mem_memberSides_iff.mp hx
      rw [hlane, if_pos hin]
    rw [heq]
    refine ⟨htaken, hengine, houtside, hmap', hsummary, by rw [hitems], by rw [hitems], by rw [hitems], by rw [hitems],
      by rw [hitems], fun d hd => ?starts, fun d hd => ?stands, fun y => ?taps, fun y hy => by rw [hlane, if_neg hy]⟩
    case starts =>
      have hin : d ∈ named := (hmem d).1.mpr hd
      rw [hside, decide_eq_true hin]
      refine ⟨rfl, fun x hx => ?_⟩
      rw [hmember hx, decide_eq_true hin]
      exact ⟨rfl, rfl, rfl, rfl, rfl, rfl⟩
    case stands =>
      have hout : d ∉ named := (hmem d).2.mpr hd
      rw [hside, decide_eq_false hout]
      refine ⟨rfl, fun x hx => ?_⟩
      rw [hmember hx, decide_eq_false hout]
      exact ⟨rfl, rfl, rfl, rfl⟩
    case taps =>
      rw [hlane]
      split
      · exact LaneState.enterTune_retune_keeps _ _ _
      · exact ⟨rfl, rfl⟩
  · have hrun := hrun.trans (State.runLegRetune_waits (by rwa [harg]) (by rwa [hleg]))
    rw [hu] at hrun
    exact ⟨_, congrArg Host.Outcome.next (State.handOverTask_waits ha hh rfl hl nofun hrun), State.carried_setQueue ha _,
      fun h => absurd h hbad, fun _ _ => State.taskWaits_setQueue ha hl, fun _ h => absurd h hc⟩

end Sys2Proof.Machine
end

section
/-! The bytes that no event of a leg writes, and EYE_SCAN executed (R117, R118). -/

namespace Sys2Proof.Machine

variable {s t u : State} {n m : SlotId} {l k : LegId} {e : Entry} {d : Side} {i : LaneId} {p q : PageId} {dwell : Nat}

/-! ### Bytes outside the result areas -/

/-- A write moves no other byte, whatever the form of the memory. -/
theorem Memory.read_write_of_ne {m : Memory} {a b : Nat} {v : Byte} (h : b ≠ a) :
    Memory.read (Memory.write m a v) b = Memory.read m b := by
  induction m with
  | nil =>
    unfold Memory.write
    split
    · rfl
    · exact if_neg (Ne.symm h)
  | cons c m ih =>
    unfold Memory.write
    split
    · split
      · rfl
      · exact if_neg (Ne.symm h)
    · split
      · next hc =>
        split
        · exact (if_neg (show ¬c.1 = b from fun hb => h (hb.symm.trans hc.symm))).symm
        · exact (if_neg (Ne.symm h)).trans (if_neg (show ¬c.1 = b from fun hb => h (hb.symm.trans hc.symm))).symm
      · simp only [Memory.read, ih]

theorem Memory.read_writeBytes_outside {m : Memory} {a b : Nat} {bs : List Byte} (h : ¬(a ≤ b ∧ b < a + bs.length)) :
    Memory.read (Memory.writeBytes m a bs) b = Memory.read m b := by
  induction bs generalizing m a with
  | nil => rfl
  | cons v bs ih =>
    simp only [List.length_cons] at h
    rw [Memory.writeBytes, ih (by omega), Memory.read_write_of_ne (by omega)]

/-- No byte outside the result areas changes. -/
def State.KeepsBytes (s t : State) : Prop := ∀ a, ¬InResults a → t.mem.read a = s.mem.read a

namespace State.KeepsBytes

theorem refl (s : State) : s.KeepsBytes s := fun _ _ => rfl

theorem trans (h : s.KeepsBytes t) (h' : t.KeepsBytes u) : s.KeepsBytes u := fun a ha => (h' a ha).trans (h a ha)

theorem of_mem (h : t.mem = s.mem) : s.KeepsBytes t := fun _ _ => by rw [h]

theorem of_signals (h : s.KeepsSignals t) : s.KeepsBytes t := by
  obtain ⟨_, _, _, rfl⟩ := h.update
  exact refl s

theorem endAwaited (s : State) (n : SlotId) {result : List Byte} (hr : result.length ≤ 0x80) (st : Status) :
    s.KeepsBytes (s.endAwaited n result st) := fun a ha => by
  rw [State.endAwaited_mem]
  exact Memory.read_writeBytes_outside fun hin => ha ⟨n, hin.1, by omega⟩

theorem slotByte (h : s.KeepsBytes t) (m : SlotId) {i : Nat} (hi : i < 0x80) : t.slotByte m i = s.slotByte m i :=
  h _ (not_inResults hi)

theorem cell (h : s.KeepsBytes t) (p : PageId) {i : Nat} (hi : i < 0x200) :
    t.mem.read (pageBase p + 0x200 + i) = s.mem.read (pageBase p + 0x200 + i) := h _ (not_inResults_cell hi)

end State.KeepsBytes

theorem State.keepsBytes_endScan (s : State) (p : PageId) (slot : SlotId) (o : ScanOutcome) (st : Status) :
    s.KeepsBytes (s.endScan p slot o st) := by
  rw [State.endScan_eq]
  exact (State.KeepsBytes.of_mem (s := s) (t := s.heldPage p o) rfl).trans
    (.endAwaited _ slot (by rw [scanResult_length]; decide) st)

theorem State.keepsBytes_leaveCarrying (s : State) (l : LegId) : s.KeepsBytes (s.leaveCarrying l) := by
  have hscan (s : State) (p : PageId) : s.KeepsBytes (s.interruptScan l p) := by
    unfold State.interruptScan
    split
    · split
      · exact s.keepsBytes_endScan p _ _ _
      · exact .refl s
    · exact .refl s
  have hscans (ps : List PageId) (s : State) : s.KeepsBytes (ps.foldl (fun s p => s.interruptScan l p) s) := by
    induction ps generalizing s with
    | nil => exact .refl s
    | cons p ps ih => exact (hscan s p).trans (ih _)
  unfold State.leaveCarrying
  split
  · exact (State.KeepsBytes.of_mem (s := s) (t := s.legNotice l) rfl).trans (hscans allPages _)
  · exact .refl s

theorem State.keepsBytes_reportOutcome (s : State) (l : LegId) (st : Status) : s.KeepsBytes (s.reportOutcome l st) := by
  cases hf : (s.engine l).inFlight with
  | none => rw [State.reportOutcome_of_none hf]; exact .refl s
  | some n =>
    rw [State.reportOutcome_of_some hf]
    exact (State.KeepsBytes.of_mem (s := s) (t := s.modEngine l fun e => { e with inFlight := none }) rfl).trans
      (.endAwaited _ n (by rw [Leg.length_bringUpResult]; decide) st)

/-! ### The arguments of an EYE_SCAN -/

theorem decodeFin_eq_none {m : Nat} {b : Byte} : decodeFin m b = none ↔ m ≤ b.toNat := by
  unfold decodeFin
  split <;> simp <;> omega

theorem decodeDwell_eq_some {b : Byte} : decodeDwell b = some dwell ↔ b.toNat = dwell ∧ (b = 1 ∨ b = 2 ∨ b = 4) := by
  unfold decodeDwell
  split
  · next h => simp [BitVec.eq_of_toNat_eq (y := 1) h, eq_comm]
  · next h => simp [BitVec.eq_of_toNat_eq (y := 2) h, eq_comm]
  · next h => simp [BitVec.eq_of_toNat_eq (y := 4) h, eq_comm]
  · next h1 h2 h4 =>
    refine iff_of_false nofun ?_
    rintro ⟨-, rfl | rfl | rfl⟩
    · exact h1 rfl
    · exact h2 rfl
    · exact h4 rfl

theorem decodeDwell_eq_none {b : Byte} : decodeDwell b = none ↔ b ≠ 1 ∧ b ≠ 2 ∧ b ≠ 4 := by
  rw [Option.eq_none_iff_forall_ne_some]
  constructor
  · intro h
    refine ⟨?_, ?_, ?_⟩
    · rintro rfl; exact h 1 rfl
    · rintro rfl; exact h 2 rfl
    · rintro rfl; exact h 4 rfl
  · rintro ⟨h1, h2, h4⟩ dwell hd
    obtain ⟨-, h | h | h⟩ := decodeDwell_eq_some.mp hd
    · exact h1 h
    · exact h2 h
    · exact h4 h

/-- R117: the arguments of an EYE_SCAN entry are in their sets, and name these. -/
structure State.ScanArgs (s : State) (l : LegId) (e : Entry) (d : Side) (i : LaneId) (p : PageId) (dwell : Nat) : Prop where
  side : decodeSide (s.arg e 0) = some d
  lane : s.memberArg l (s.arg e 1) = some i
  page : decodeFin 4 (s.arg e 2) = some p
  dwell : decodeDwell (s.arg e 3) = some dwell

theorem State.runLegTask_eyeScan (hp : e.patience.toNat ≤ 3) (hk : e.kind = .eyeScan) :
    s.runLegTask l e = s.runEyeScan l e := by
  have hg : e.patienceGood = true := decide_eq_true hp
  rw [State.runLegTask, hg, hk]
  exact rfl

theorem State.runEyeScan_badArgument (h : decodeSide (s.arg e 0) = none ∨ s.memberArg l (s.arg e 1) = none ∨
    decodeFin 4 (s.arg e 2) = none ∨ decodeDwell (s.arg e 3) = none) :
    s.runEyeScan l e = some (s.endTask e [] .badArgument) := by
  unfold State.runEyeScan
  split
  · next hd hi hp hw => simp [hd, hi, hp, hw] at h
  · exact rfl

section
variable (h : s.ScanArgs l e d i p dwell)
include h

theorem State.runEyeScan_eq : s.runEyeScan l e =
    if (s.leg l).state = .carrying ∧ (s.lane (s.sideOf i d)).monitor ≠ .scanning then
      if (s.page p).state = .free then some (s.startScan l e.slot p d i dwell) else some (s.endTask e [] .pageBusy)
    else none := by
  simp only [State.runEyeScan, h.side, h.lane, h.page, h.dwell]

theorem State.runEyeScan_waits (hw : (s.leg l).state ≠ .carrying ∨ (s.lane (s.sideOf i d)).monitor = .scanning) :
    s.runEyeScan l e = none := by
  rw [State.runEyeScan_eq h, if_neg fun hc => hw.elim (fun hl => hl hc.1) hc.2]

theorem State.runEyeScan_busy (hc : (s.leg l).state = .carrying) (hm : (s.lane (s.sideOf i d)).monitor ≠ .scanning)
    (hp : (s.page p).state ≠ .free) : s.runEyeScan l e = some (s.endTask e [] .pageBusy) := by
  rw [State.runEyeScan_eq h, if_pos ⟨hc, hm⟩, if_neg hp]

theorem State.runEyeScan_starts (hc : (s.leg l).state = .carrying) (hm : (s.lane (s.sideOf i d)).monitor ≠ .scanning)
    (hp : (s.page p).state = .free) : s.runEyeScan l e = some (s.startScan l e.slot p d i dwell) := by
  rw [State.runEyeScan_eq h, if_pos ⟨hc, hm⟩, if_pos hp]

end

/-! ### The scan started (R118) -/

section
variable (s : State) (l : LegId) (n : SlotId) (p : PageId) (d : Side) (i : LaneId) (dwell : Nat)

/-- R118: the page of a scan as it starts. -/
def scanPage : Page := ⟨.busy n (dwell * 1000), l, d, i, dwell, 0, .none⟩

theorem State.page_startScan (q : PageId) :
    (s.startScan l n p d i dwell).page q = if q = p then scanPage l n d i dwell else s.page q :=
  State.page_modPage { s with mem := s.mem.clear (pageBase p + 0x200) 0x200 } p q fun _ => scanPage l n d i dwell

theorem State.lane_startScan (y : LaneSide) : (s.startScan l n p d i dwell).lane y =
    if y = s.sideOf i d then { s.lane (s.sideOf i d) with monitor := .scanning } else s.lane y :=
  State.lane_modLane (s := State.modPage { s with mem := s.mem.clear (pageBase p + 0x200) 0x200 } p
    fun _ => scanPage l n d i dwell) (s.sideOf i d) y fun v => { v with monitor := .scanning }

theorem State.read_startScan (a : Nat) : (s.startScan l n p d i dwell).mem.read a =
    if pageBase p + 0x200 ≤ a ∧ a < pageBase p + 0x200 + 0x200 then 0 else s.mem.read a :=
  Memory.read_clear s.mem _ _ a

/-- R118: nothing else moves at the start of a scan. -/
theorem State.startScan_update : ∃ lineSide switchSide pages mem, s.startScan l n p d i dwell =
    { s with lineSide := lineSide, switchSide := switchSide, pages := pages, mem := mem } :=
  ⟨_, _, _, _, rfl⟩

end

end Sys2Proof.Machine
end

section
/-! An entry that waits alone in its leg's queue, and an EYE_SCAN that does (R117, R146). -/

namespace Sys2Proof.Machine

variable {s t u : State} {n m : SlotId} {l k : LegId} {e : Entry} {d : Side} {i : LaneId} {p q : PageId} {c : Page}
  {x : LaneSide} {f : LaneState → LaneState} {g : Leg → Leg}

/-! ### One entry in the queue -/

/-- R146: the deferred entry stands alone in the queue of the leg, and its kind makes it wait. -/
structure State.WaitsOn (s : State) (l : LegId) (e : Entry) : Prop where
  queue : (s.engine l).queue = [e]
  deferred : e.deferred = true
  kind : e.kind ≠ .legPark
  waits : (s.setQueue l []).runLegTask l e = none

namespace State.WaitsOn

theorem examineLeg (h : s.WaitsOn l e) : s.examineLeg l = s := by
  have hdeferred : e.deferEntry = e := if_pos h.deferred
  rw [State.examineLeg_waits h.queue h.kind h.waits, hdeferred, State.setQueue_same h.queue]

theorem headCanStart (h : s.WaitsOn l e) : s.headCanStart l = false := by
  simp [State.headCanStart, h.queue, State.attemptAt_head h.queue, h.waits]

theorem engineEvent (h : s.WaitsOn l e) (hlist : s.handOver = []) : s.engineEvent l = s := by
  rw [State.engineEvent, if_neg (by simp [h.headCanStart]), h.examineLeg, State.intake_nil hlist]

theorem afterLegEvent (h : s.WaitsOn l e) (hlist : s.handOver = []) (before : State) :
    s.afterLegEvent before l = s := by
  rw [State.afterLegEvent, h.engineEvent hlist, ite_self]

end State.WaitsOn

/-- R146: an entry alone in its queue that its engine executes or refuses leaves it empty. -/
theorem State.examineLeg_ends (hq : (s.engine l).queue = [e]) (hrun : (s.setQueue l []).runLegTask l e = some t)
    (ht : (t.engine l).queue = []) : s.examineLeg l = t := by
  have hempty : ((s.setQueue l []).engine l).queue = [] := by rw [State.engine_setQueue, if_pos rfl]
  have hback : (s.setQueue l []).setQueue l [e] = s := hq ▸ State.setQueue_restore []
  rw [← State.examineLeg_single hempty hrun ht, hback]

/-! ### A waiting EYE_SCAN -/

section
variable (h : s.ScanWaits l e p c)
include h

/-- R117: the arguments of the entry stand while the part's straps and the argument bytes do. -/
theorem State.ScanWaits.args (hstraps : t.straps = s.straps)
    (hbytes : ∀ i, i < 0x80 → t.slotByte e.slot i = s.slotByte e.slot i) :
    t.ScanArgs l e c.side c.lane p c.dwell := by
  obtain ⟨-, -, hawaited, -, -, hmember, hdwell, -, hside, hlane, hpage, htime⟩ := h
  have harg (j : Nat) (hj : j < 0x10) : t.arg e j = s.slotByte e.slot (0x10 + j) :=
    (if_pos hawaited).trans (hbytes _ (by omega))
  have hmember' : c.lane ∈ t.members l := by rwa [State.members, hstraps]
  refine ⟨?_, ?_, ?_, ?_⟩
  · rw [harg 0 (by decide)]
    refine decodeSide_eq_some.mpr ?_
    cases hd : c.side with
    | line => exact .inl ⟨by simpa [hd] using hside, rfl⟩
    | switch => exact .inr ⟨by simpa [hd] using hside, rfl⟩
  · rw [harg 1 (by decide)]
    exact State.memberArg_eq_some.mpr ⟨hmember', hlane.symm⟩
  · rw [harg 2 (by decide)]
    exact decodeFin_of_toNat hpage
  · rw [harg 3 (by decide)]
    refine decodeDwell_eq_some.mpr ⟨htime, ?_⟩
    obtain hd | hd | hd := hdwell
    · exact .inl (BitVec.eq_of_toNat_eq (htime.trans hd))
    · exact .inr (.inl (BitVec.eq_of_toNat_eq (htime.trans hd)))
    · exact .inr (.inr (BitVec.eq_of_toNat_eq (htime.trans hd)))

theorem State.ScanWaits.run : t.runLegTask l e = t.runEyeScan l e := by
  obtain ⟨-, hkind, -, -, hpatience, -⟩ := h
  exact State.runLegTask_eyeScan hpatience hkind

theorem State.ScanWaits.scanPage : scanPage l e.slot c.side c.lane c.dwell = c := by
  obtain ⟨-, -, -, -, -, -, -, hpage, -⟩ := h
  exact hpage.symm

end

/-- What the check of a waiting entry reads of the state besides the leg, the monitor and the page. -/
structure State.KeepsWaiting (s t : State) (l : LegId) (n : SlotId) : Prop where
  straps : t.straps = s.straps
  map : t.map = s.map
  queue : (t.engine l).queue = (s.engine l).queue
  bytes (i : Nat) : i < 0x80 → t.slotByte n i = s.slotByte n i

theorem State.KeepsWaiting.refl (s : State) (l : LegId) (n : SlotId) : s.KeepsWaiting s l n :=
  ⟨rfl, rfl, rfl, fun _ _ => rfl⟩

theorem State.KeepsWaiting.sideOf (hk : s.KeepsWaiting t l n) (i : LaneId) (d : Side) : t.sideOf i d = s.sideOf i d := by
  simp only [State.sideOf, State.entry, hk.map]

section
variable (h : s.ScanWaits l e p c) (hk : s.KeepsWaiting t l e.slot)
include h hk

theorem State.ScanWaits.queued : (t.engine l).queue = [e] := by
  obtain ⟨hqueue, -⟩ := h
  exact hk.queue.trans hqueue

/-- R117: the check of the entry, its own queue put aside. -/
theorem State.ScanWaits.check : (t.setQueue l []).ScanArgs l e c.side c.lane p c.dwell :=
  h.args (t := t.setQueue l []) hk.straps hk.bytes

theorem State.ScanWaits.waitsOn
    (hw : (t.leg l).state ≠ .carrying ∨ (t.lane (s.sideOf c.lane c.side)).monitor = .scanning) : t.WaitsOn l e := by
  have hrun : (t.setQueue l []).runLegTask l e = none := by
    rw [h.run]
    refine State.runEyeScan_waits (h.check hk) (hw.imp id fun hm => ?_)
    rw [← hk.sideOf] at hm
    exact hm
  have hqueue := h.queued hk
  obtain ⟨-, hkind, -, hdeferred, -⟩ := h
  exact ⟨hqueue, hdeferred, by rw [hkind]; nofun, hrun⟩

variable (hc : (t.leg l).state = .carrying) (hm : (t.lane (s.sideOf c.lane c.side)).monitor ≠ .scanning)
include hc hm

theorem State.ScanWaits.run_starts (hp : (t.page p).state = .free) : (t.setQueue l []).runLegTask l e =
    some ((t.setQueue l []).startScan l e.slot p c.side c.lane c.dwell) := by
  rw [h.run]
  rw [← hk.sideOf] at hm
  exact State.runEyeScan_starts (h.check hk) hc hm hp

theorem State.ScanWaits.examineLeg_starts (hp : (t.page p).state = .free) : t.examineLeg l =
    (t.setQueue l []).startScan l e.slot p c.side c.lane c.dwell := by
  refine State.examineLeg_ends (h.queued hk) (h.run_starts hk hc hm hp) ?_
  have hempty : ((t.setQueue l []).engine l).queue = [] := by rw [State.engine_setQueue, if_pos rfl]
  obtain ⟨_, _, _, _, hu⟩ := State.startScan_update (t.setQueue l []) l e.slot p c.side c.lane c.dwell
  rw [hu]
  exact hempty

theorem State.ScanWaits.examineLeg_busy (hp : (t.page p).state ≠ .free) : t.examineLeg l =
    (t.setQueue l []).endAwaited e.slot [] .pageBusy := by
  have hend : (t.setQueue l []).endTask e [] .pageBusy = (t.setQueue l []).endAwaited e.slot [] .pageBusy := by
    obtain ⟨-, -, hawaited, -⟩ := h
    exact if_pos hawaited
  rw [← hend]
  refine State.examineLeg_ends (e := e) (h.queued hk) ?_ ?_
  · rw [h.run]
    rw [← hk.sideOf] at hm
    exact State.runEyeScan_busy (h.check hk) hc hm hp
  · rw [hend, State.engine_endAwaited, State.engine_setQueue, if_pos rfl]

/-- R117, R118: the scan of the entry as it starts. -/
theorem State.ScanWaits.started (hp : (t.page p).state = .free) (hslot : t.slot e.slot = s.slot e.slot) :
    s.ScanStarted (t.examineLeg l) l e p c := by
  have hqueue : ((t.setQueue l []).engine l).queue = [] := by rw [State.engine_setQueue, if_pos rfl]
  have hside : (t.setQueue l []).sideOf c.lane c.side = s.sideOf c.lane c.side := hk.sideOf c.lane c.side
  rw [h.examineLeg_starts hk hc hm hp]
  refine ⟨?_, ?_, fun k hlt => ?_, ?_, ?_⟩
  · obtain ⟨_, _, _, _, hu⟩ := State.startScan_update (t.setQueue l []) l e.slot p c.side c.lane c.dwell
    rw [hu]
    exact hqueue
  · rw [State.page_startScan, if_pos rfl]
    exact h.scanPage
  · rw [State.read_startScan, if_pos (by omega)]
  · rw [State.lane_startScan, if_pos hside.symm]
  · obtain ⟨_, _, _, _, hu⟩ := State.startScan_update (t.setQueue l []) l e.slot p c.side c.lane c.dwell
    rw [hu]
    exact hslot

end

end Sys2Proof.Machine
end

section
/-! EYE_SCAN handed over, and while it waits (O49). -/

namespace Sys2Proof.Machine

variable {s t u : State} {n m : SlotId} {l : LegId} {k : TaskKind} {e : Entry} {d : Side} {i : LaneId} {p q : PageId} {c : Page}
  {x : LaneSide} {f : LaneState → LaneState} {g : Leg → Leg} {h : TaskHeader} {args : List Byte}

/-! ### At the hand-over (R117, R118) -/

/-- The cells of a page lie outside the slots. -/
theorem slot_ne_cell {a : Nat} (ha : slotBase n ≤ a ∧ a < slotBase n + 0x100) (p : PageId) :
    ¬(pageBase p + 0x200 ≤ a ∧ a < pageBase p + 0x200 + 0x200) := by
  have hn := n.isLt
  simp only [slotBase, pageBase] at ha ⊢
  omega

theorem State.slotByte_startScan (s : State) (l : LegId) (n : SlotId) (p : PageId) (d : Side) (i : LaneId) (w : Nat)
    (m : SlotId) {j : Nat} (hj : j < 0x100) : (s.startScan l n p d i w).slotByte m j = s.slotByte m j := by
  rw [State.slotByte, State.read_startScan, if_neg (slot_ne_cell (n := m) ⟨by omega, by omega⟩ p)]
  rfl

theorem State.carried_startScan (ha : s.AcceptsTask n) (k : TaskKind) (h : TaskHeader) (args : List Byte) (l : LegId)
    (p : PageId) (d : Side) (i : LaneId) (w : Nat) :
    s.Carried ((s.takenTask n k h args).startScan l n p d i w) n k h args := by
  have hdevice : s.deviceQueue = [] := by
    obtain ⟨-, -, -, -, ⟨-, -, hdevice⟩, -⟩ := ha
    exact hdevice
  obtain ⟨_, _, _, _, hu⟩ := State.startScan_update (s.takenTask n k h args) l n p d i w
  refine State.carried_of_fixed ha ?_ (fun j hj => State.slotByte_startScan _ l n p d i w n (by omega)) ?_ ?_ ?_
  · rw [hu]; rfl
  · rw [hu]; exact ⟨rfl, rfl⟩
  · rw [hu]; exact hdevice
  · rw [hu]; rfl

/-- R118: the task taken has started its scan. -/
theorem State.scan_startScan (ha : s.AcceptsTask n) (hl : args.length ≤ 0x10) (l : LegId) (p : PageId) (d : Side)
    (i : LaneId) (w : Nat) (hx : s.sideOf i d = x) (ht : (s.takenTask n k h args).startScan l n p d i w = t) :
    t.page p = scanPage l n d i w ∧ t.lane x = { s.lane x with monitor := .scanning } ∧
      t.slot n = ⟨.taken, .inProgress, false⟩ ∧ (∀ j, j < 0x80 → t.slotByte n (0x80 + j) = 0) ∧
      (∀ j, j < 0x200 → t.mem.read (pageBase p + 0x200 + j) = 0) ∧
      (∀ a, ¬(slotBase n ≤ a ∧ a < slotBase n + 0x100) → ¬(pageBase p + 0x200 ≤ a ∧ a < pageBase p + 0x400) →
        t.mem.read a = s.mem.read a) ∧
      (∀ m, t.engine m = s.engine m) ∧ t.summary = s.summary ∧ s.SameSlotsBut [n] t ∧ s.SamePagesBut [p] t ∧
      s.SameLanesBut [x] t ∧ s.SameLegsBut [] t ∧ s.SamePower t ∧ s.SameMap t ∧ t.powerWait = s.powerWait ∧
      t.owed = s.owed := by
  have hpage (q : PageId) := State.page_startScan (s.takenTask n k h args) l n p d i w q
  have hlane (y : LaneSide) := State.lane_startScan (s.takenTask n k h args) l n p d i w y
  have hread (a : Nat) := State.read_startScan (s.takenTask n k h args) l n p d i w a
  have hbyte (j : Nat) (hj : j < 0x100) := State.slotByte_startScan (s.takenTask n k h args) l n p d i w n hj
  have hside : (s.takenTask n k h args).sideOf i d = x := hx
  have hslot := State.slot_takenTask s n k h args
  rw [ht] at hpage hlane hread hbyte
  rw [hside] at hlane
  refine ⟨(hpage p).trans (if_pos rfl), (hlane x).trans (if_pos rfl), ?_, fun j hj => ?_, fun j hj => ?_, fun a hs hc => ?_,
    ?_⟩
  · obtain ⟨_, _, _, _, hu⟩ := State.startScan_update (s.takenTask n k h args) l n p d i w
    rw [← ht, hu]
    exact (hslot n).trans (if_pos rfl)
  · rw [hbyte _ (by omega)]
    exact State.takenTask_resultByte j hj
  · rw [hread, if_pos (by omega)]
  · rw [hread, if_neg (by omega)]
    exact State.takenTask_sameBytesOutside ha.wf hl a hs
  · obtain ⟨_, _, _, _, hu⟩ := State.startScan_update (s.takenTask n k h args) l n p d i w
    refine ⟨?_, ?_, fun m hm => ?_, fun q hq => (hpage q).trans (if_neg (by simpa using hq)),
      fun y hy => (hlane y).trans (if_neg (by simpa using hy)), ?_⟩
    · rw [← ht, hu]; exact fun _ => rfl
    · rw [← ht, hu]; rfl
    · rw [← ht, hu]
      exact (hslot m).trans (if_neg (by simpa using hm))
    · rw [← ht, hu]
      exact ⟨fun _ _ => rfl, ⟨rfl, rfl, rfl⟩, fun _ => rfl, rfl, rfl⟩

section
variable {side lane page dwell : Byte}

theorem State.runLegTask_takenScan (hh : s.AwaitedFor h l) : (s.takenTask n .eyeScan h args).runLegTask l
    (awaitedEntry n .eyeScan h) = (s.takenTask n .eyeScan h args).runEyeScan l (awaitedEntry n .eyeScan h) :=
  State.runLegTask_eyeScan hh.patience_le rfl

theorem State.arg_takenScan (ha : s.AcceptsTask n) {j : Nat} (hj : j < 4) :
    (s.takenTask n .eyeScan h [side, lane, page, dwell]).arg (awaitedEntry n .eyeScan h) j =
      [side, lane, page, dwell].getD j 0 := State.arg_takenTask ha.wf (by simp) j hj

variable (ha : s.AcceptsTask n)
include ha

/-- R117: an argument outside its set. -/
theorem State.eyeScan_refused (hh : s.AwaitedFor h l) (hbad : 1 < side.toNat ∨ (∀ i ∈ s.members l, i.val ≠ lane.toNat) ∨ 3 < page.toNat ∨
    (dwell ≠ 1 ∧ dwell ≠ 2 ∧ dwell ≠ 4)) : s.handOverTask n .eyeScan h [side, lane, page, dwell] =
      (s.takenTask n .eyeScan h [side, lane, page, dwell]).endAwaited n [] .badArgument := by
  refine State.handOverTask_ends ha hh rfl (by simp) (.refl _) ?_
  rw [State.runLegTask_takenScan hh]
  refine State.runEyeScan_badArgument ?_
  rw [State.arg_takenScan ha (by decide), State.arg_takenScan ha (by decide),
    State.arg_takenScan ha (by decide), State.arg_takenScan ha (by decide)]
  exact hbad.imp decodeSide_eq_none.mpr
    (Or.imp State.memberArg_eq_none.mpr (Or.imp decodeFin_eq_none.mpr decodeDwell_eq_none.mpr))

/-- R117: what arguments in their sets name. -/
theorem State.scanArgs_takenScan (hi : i ∈ s.members l) (hlane : i.val = lane.toNat) (hd : decodeSide side = some d)
    (hp : p.val = page.toNat) (hdwell : dwell = 1 ∨ dwell = 2 ∨ dwell = 4) :
    (s.takenTask n .eyeScan h [side, lane, page, dwell]).ScanArgs l (awaitedEntry n .eyeScan h) d i p dwell.toNat where
  side := by rwa [State.arg_takenScan ha (by decide)]
  lane := by
    rw [State.arg_takenScan ha (by decide)]
    exact State.memberArg_eq_some.mpr ⟨hi, hlane⟩
  page := by
    rw [State.arg_takenScan ha (by decide)]
    exact decodeFin_of_toNat hp.symm
  dwell := by
    rw [State.arg_takenScan ha (by decide)]
    exact decodeDwell_eq_some.mpr ⟨rfl, hdwell⟩

/-- R117, R118: arguments in their sets: the task waits, is refused, or starts its scan. -/
theorem State.eyeScan_inSets (hh : s.AwaitedFor h l) (hi : i ∈ s.members l) (hlane : i.val = lane.toNat)
    (hd : decodeSide side = some d) (hp : p.val = page.toNat) (hdwell : dwell = 1 ∨ dwell = 2 ∨ dwell = 4) :
    s.handOverTask n .eyeScan h [side, lane, page, dwell] =
      if (s.leg l).state = .carrying ∧ (s.lane (s.sideOf i d)).monitor ≠ .scanning then
        if (s.page p).state = .free then
          (s.takenTask n .eyeScan h [side, lane, page, dwell]).startScan l n p d i dwell.toNat
        else (s.takenTask n .eyeScan h [side, lane, page, dwell]).endAwaited n [] .pageBusy
      else (s.takenTask n .eyeScan h [side, lane, page, dwell]).setQueue l
        [(awaitedEntry n .eyeScan h).deferEntry] := by
  have hargs := State.scanArgs_takenScan (h := h) ha hi hlane hd hp hdwell
  have hrun := State.runLegTask_takenScan (n := n) (args := [side, lane, page, dwell]) hh
  by_cases hc : (s.leg l).state = .carrying ∧ (s.lane (s.sideOf i d)).monitor ≠ .scanning
  case neg =>
    rw [if_neg hc]
    refine State.handOverTask_waits ha hh rfl (by simp) nofun (hrun.trans (State.runEyeScan_waits hargs ?_))
    by_cases hs : (s.leg l).state = .carrying
    · exact .inr (not_not.mp fun hm => hc ⟨hs, hm⟩)
    · exact .inl hs
  case pos =>
    rw [if_pos hc]
    by_cases hfree : (s.page p).state = .free
    case neg =>
      rw [if_neg hfree]
      exact State.handOverTask_ends ha hh rfl (by simp) (.refl _)
        (hrun.trans (State.runEyeScan_busy hargs hc.1 hc.2 hfree))
    case pos =>
      rw [if_pos hfree]
      refine State.handOverTask_runs ha hh rfl (by simp) (hrun.trans (State.runEyeScan_starts hargs hc.1 hc.2 hfree)) ?_
      obtain ⟨_, _, _, _, hu⟩ := State.startScan_update (s.takenTask n .eyeScan h [side, lane, page, dwell]) l n p d i
        dwell.toNat
      rw [hu]
      exact ha.queue_nil l

end

/-! ### While it waits (R117, log 37) -/

theorem State.page_leaveCarrying_of_free (hp : (s.page p).state = .free) : (s.leaveCarrying l).page p = s.page p := by
  unfold State.leaveCarrying
  split
  · refine (State.page_interruptScans (s.legNotice l) l p).trans (Page.interrupted_of_not fun m hscan => ?_)
    obtain ⟨-, left, hbusy⟩ := hscan
    exact absurd (hp.symm.trans hbusy) nofun
  · rfl

theorem State.KeepsWaiting.of_legUpdate (h : s.LegUpdate l t) (hbytes : s.KeepsBytes t) : s.KeepsWaiting t l n := by
  have hqueue := h.queue
  obtain ⟨_, _, _, _, _, _, _, _, _, rfl⟩ := h.update
  exact ⟨rfl, rfl, hqueue, fun i hi => hbytes.slotByte n hi⟩

/-- A lane side changed, the leg gone from CARRYING, and its own items changed. -/
def State.left (s : State) (x : LaneSide) (f : LaneState → LaneState) (l : LegId) (g : Leg → Leg) : State :=
  ((s.modLane x f).leaveCarrying l).modLeg l g

/-- R117: a leg that leaves CARRYING leaves a waiting EYE_SCAN of its queue. -/
theorem State.ScanWaits.left (h : s.ScanWaits l e p c) (hc : (s.leg l).state = .carrying)
    (hp : (s.page p).state = .free) (hm : (s.lane (s.sideOf c.lane c.side)).monitor ≠ .scanning)
    (hno : ∀ q left, (s.page q).state ≠ .busy e.slot left) (hlist : s.handOver = [])
    (hf : ∀ v : LaneState, (f v).monitor = v.monitor) (hg : ∀ v : Leg, (g v).setup = v.setup)
    (hstate : ((s.left x f l g).leg l).state ≠ .carrying) :
    (s.left x f l g).WaitsOn l e ∧ (s.left x f l g).handOver = [] ∧ s.ScanWaitsOn (s.left x f l g) l e p c := by
  have hcarry : ((s.modLane x f).leg l).state = .carrying := hc
  have hleave : (s.modLane x f).LegUpdate l (s.left x f l g) := by
    have habandon := legUpdate_leave (s.modLane x f) l
    rw [State.abandonSessions_of_carrying hcarry] at habandon
    exact habandon.trans (.modLeg _ l (hg _))
  have hbytes : (s.modLane x f).KeepsBytes (s.left x f l g) :=
    (State.keepsBytes_leaveCarrying _ l).trans (.of_mem rfl)
  have hkeeps : s.KeepsWaiting (s.left x f l g) l e.slot := by
    obtain ⟨hstraps, hmap, hqueue, hread⟩ := State.KeepsWaiting.of_legUpdate (n := e.slot) hleave hbytes
    exact ⟨hstraps, hmap, hqueue, hread⟩
  have hwaits := h.waitsOn hkeeps (.inl hstate)
  refine ⟨hwaits, ?_, hwaits.queue, ?_, ?_, ?_⟩
  · obtain ⟨_, _, _, _, _, _, _, _, _, hu⟩ := hleave.update
    rw [hu]
    exact hlist
  · exact State.page_leaveCarrying_of_free (s := s.modLane x f) hp
  · exact ((State.StartsNoScan.modLane s x fun v hv => by rwa [hf]).trans (State.startsNoScan_leaveCarrying _ l)) _ hm
  · exact (State.keepsTask_leaveCarrying (s := s.modLane x f) (l := l) (m := e.slot) fun q hq => by
      obtain ⟨-, left, hbusy⟩ := hq
      exact hno q left hbusy).slot

/-- R35: the items of a leg that a lock loss takes out of CARRYING. -/
def Leg.wentAcquire (v : Leg) : Leg := { v with state := .acquire, lockTimer := some (v.setup.lockTimeout * 1000) }

/-- R35: a lock loss of a CARRYING leg. -/
theorem State.unlockEvent_left (hmap : s.MapPermutes) (hc : (s.leg (s.legOf x)).state = .carrying) :
    s.unlockEvent x = s.left x LaneState.loseLock (s.legOf x) Leg.wentAcquire := by
  have hunlocked : (s.modLane x LaneState.loseLock).allLocked (s.legOf x) = false :=
    State.allLocked_of_unlocked (s := s.modLane x LaneState.loseLock) hmap (by rw [State.lane_modLane_self]; rfl)
  have habandon : (s.modLane x LaneState.loseLock).abandonSessions (s.legOf x) = s.modLane x LaneState.loseLock :=
    State.abandonSessions_of_carrying hc
  rw [State.unlockEvent_of_out (.inr hc), State.fallToAcquire_eq hunlocked, habandon]
  exact rfl

/-- R34: the items of a leg that a presence loss takes out of CARRYING, one relay direction changed. -/
def Leg.wentDark (d : Side) (f : RelayDirection → RelayDirection) (v : Leg) : Leg :=
  { v with presenceLosses := countUp Config.legCounterMax v.presenceLosses, state := .dark, lockTimer := none }.withRelay d f

theorem Leg.wentDark_keeps (d : Side) (f : RelayDirection → RelayDirection) (v : Leg) :
    (v.wentDark d f).setup = v.setup ∧ (v.wentDark d f).state = .dark := by
  cases d <;> exact ⟨rfl, rfl⟩

/-- R34: a presence loss of a CARRYING leg. -/
theorem State.presenceEvent_left (hmap : s.MapPermutes) (hc : (s.leg (s.legOf x)).state = .carrying)
    (hraw : (s.lane x).presence.raw = false) (hq : (s.lane x).presence.qualified = true) :
    ∃ f, s.presenceEvent x = s.left x LaneState.qualify (s.legOf x) (Leg.wentDark x.side f) := by
  let u := s.modLane x LaneState.qualify
  let l := s.legOf x
  let w := (u.leaveCarrying l).modLeg l fun g => { g with
    presenceLosses := countUp Config.legCounterMax g.presenceLosses, state := .dark, lockTimer := none }
  have hcarry : (u.leg l).state = .carrying := hc
  have hleave : u.LegUpdate l w := by
    have habandon := legUpdate_leave u l
    rw [State.abandonSessions_of_carrying hcarry] at habandon
    exact habandon.trans (.modLeg _ l rfl)
  have hpresent : w.allPresent l = false := by
    rw [hleave.allPresent]
    exact State.allPresent_qualify_of_absent hmap hraw
  have hdark : u.legPresenceLoss l = w := by
    rw [State.legPresenceLoss_of_carrying hcarry, State.enterDark, State.modLeg_modLeg]
    exact if_neg (by rw [hpresent]; nofun)
  have hloss : u.afterChange l x.side false = w.relayTrigger l x.side := by
    have hout : (u.leg l).state ≠ .parked := by rw [hcarry]; nofun
    rw [← hdark]
    exact if_neg hout
  rw [State.relayTrigger_eq, State.modRelay_eq, State.modLeg_modLeg] at hloss
  refine ⟨_, (State.presenceEvent_of_out (by rw [hraw, hq]; nofun) ?_).trans ((congrArg _ hraw).trans hloss)⟩
  have hstate := (Leg.wentDark_keeps x.side (RelayDirection.triggered (w.leg l).setup (w.sidePresent l x.side))
    ((u.leaveCarrying l).leg l)).2
  have hleg := congrArg (fun v : State => v.leg l) hloss
  rw [State.leg_modLeg_self] at hleg
  rw [hraw]
  exact fun hp => absurd ((congrArg Leg.state hleg).trans hstate) (by rw [hp]; nofun)

section
variable (hwait : s.ScanWaits l e p c) (hlist : s.handOver = []) (hr : s.resetHeld = false)
include hwait hlist hr

/-- R117: a lock loss or a presence loss of its CARRYING leg lets a waiting EYE_SCAN wait on. -/
theorem State.ScanWaits.losses (hx : s.legOf x = l) (hmap : s.MapPermutes) (hc : (s.leg l).state = .carrying)
    (hp : (s.page p).state = .free) (hm : (s.lane (s.sideOf c.lane c.side)).monitor ≠ .scanning)
    (hno : ∀ q left, (s.page q).state ≠ .busy e.slot left) :
    ((s.lane x).locked = true → ∃ t, exec (.receiverUnlock x) s = .next t ∧ (t.leg l).state = .acquire ∧
      s.ScanWaitsOn t l e p c) ∧
    ((s.lane x).presence.timer.isSome = true → (s.lane x).presence.qualified = true →
      (s.lane x).presence.raw = false → ∃ t, exec (.qualificationTimerExpiry x) s = .next t ∧
        (t.leg l).state = .dark ∧ s.ScanWaitsOn t l e p c) := by
  subst hx
  refine ⟨fun hlocked => ?_, fun htimer hq hraw => ?_⟩
  · have hstate : ((s.unlockEvent x).leg (s.legOf x)).state = .acquire := by
      rw [State.unlockEvent_left hmap hc, State.left, State.leg_modLeg_self, Leg.wentAcquire]
    have heq := State.unlockEvent_left hmap hc
    obtain ⟨hwaits, hlist', hon⟩ := hwait.left (x := x) (f := LaneState.loseLock) (g := Leg.wentAcquire) hc hp hm hno hlist (fun _ => rfl)
      (fun _ => rfl) (by rw [← heq, hstate]; nofun)
    rw [← heq] at hwaits hlist' hon
    refine ⟨_, ?_, hstate, hon⟩
    rw [exec_receiverUnlock, whenRunning_of_can _ hr hlocked]
    exact congrArg _ (hwaits.afterLegEvent hlist' s)
  · obtain ⟨f, heq⟩ := State.presenceEvent_left hmap hc hraw hq
    have hstate : ((s.presenceEvent x).leg (s.legOf x)).state = .dark := by
      rw [heq, State.left, State.leg_modLeg_self]
      exact (Leg.wentDark_keeps _ _ _).2
    obtain ⟨hwaits, hlist', hon⟩ := hwait.left (x := x) (f := LaneState.qualify) hc hp hm hno hlist (fun _ => rfl)
      (fun v => (Leg.wentDark_keeps _ _ v).1) (by rw [← heq, hstate]; nofun)
    rw [← heq] at hwaits hlist' hon
    refine ⟨_, ?_, hstate, hon⟩
    rw [exec_qualificationTimerExpiry, whenRunning_of_can _ hr htimer]
    exact congrArg _ (hwaits.afterLegEvent hlist' s)

/-- R117: the check that was put off is made when no command waits. -/
theorem State.ScanWaits.owedCheck (howed : s.owed = [l]) (hpending : s.pending = []) :
    ∃ t, step s = .next t ∧ t.owed = [] ∧ s.SameLegsBut [] t ∧
      ((s.leg l).state = .carrying → (s.lane (s.sideOf c.lane c.side)).monitor ≠ .scanning →
        ((s.page p).state = .free → s.ScanStarted t l e p c) ∧
        ((s.page p).state ≠ .free → (t.engine l).queue = [] ∧ s.SamePagesBut [] t ∧ s.SameLanesBut [] t ∧
          t.slot e.slot = { s.slot e.slot with state := .done, status := .pageBusy })) ∧
      ((s.leg l).state ≠ .carrying ∨ (s.lane (s.sideOf c.lane c.side)).monitor = .scanning →
        (∀ m, t.engine m = s.engine m) ∧ s.SamePart t ∧ s.SamePagesBut [] t ∧ s.SameSlotsBut [] t ∧
        s.SameBytes t) := by
  let t : State := { s with owed := [], freeCount := s.freeCount + 1 }
  have hk : s.KeepsWaiting t l e.slot := ⟨rfl, rfl, rfl, fun _ _ => rfl⟩
  have hstep (hlist' : (t.examineLeg l).handOver = []) : step s = .next (t.examineLeg l) := by
    have hidle : s.idle = (t.examineLeg l).intake := by
      rw [State.idle, if_neg (by simp [hr, howed]), State.makeOwedChecks, howed]
      exact rfl
    rw [step, hpending]
    exact congrArg _ (hidle.trans (State.intake_nil hlist'))
  by_cases hc : (s.leg l).state = .carrying ∧ (s.lane (s.sideOf c.lane c.side)).monitor ≠ .scanning
  case neg =>
    have hw : (s.leg l).state ≠ .carrying ∨ (s.lane (s.sideOf c.lane c.side)).monitor = .scanning := by
      by_cases hs : (s.leg l).state = .carrying
      · exact .inr (not_not.mp fun hm => hc ⟨hs, hm⟩)
      · exact .inl hs
    have hsame : t.examineLeg l = t := (hwait.waitsOn hk hw).examineLeg
    refine ⟨t, hsame ▸ hstep (by rw [hsame]; exact hlist), rfl, fun _ _ => rfl, fun hs hm => absurd ⟨hs, hm⟩ hc, fun _ => ?_⟩
    exact ⟨fun _ => rfl, ⟨⟨rfl, rfl, rfl⟩, ⟨rfl, rfl, rfl⟩, ⟨rfl, rfl, rfl, rfl, rfl, rfl⟩, fun _ => rfl, fun _ _ => rfl,
      fun _ _ => rfl⟩, fun _ _ => rfl, fun _ _ => rfl, fun _ => rfl⟩
  case pos =>
    by_cases hp : (s.page p).state = .free
    · have hstarted := hwait.started hk hc.1 hc.2 hp rfl
      have hstarts := hwait.examineLeg_starts hk hc.1 hc.2 hp
      obtain ⟨_, _, _, _, hu⟩ := State.startScan_update (t.setQueue l []) l e.slot p c.side c.lane c.dwell
      have heq := hstarts.trans hu
      refine ⟨t.examineLeg l, hstep ?_, ?_, fun _ _ => ?_, fun _ _ => ⟨fun _ => hstarted, fun hn => absurd hp hn⟩,
        fun hw => absurd hw (by simp [hc])⟩
      · rw [heq]; exact hlist
      · rw [heq]; rfl
      · rw [heq]; rfl
    · have heq := hwait.examineLeg_busy hk hc.1 hc.2 hp
      refine ⟨t.examineLeg l, hstep ?_, ?_, fun _ _ => ?_, fun _ _ => ⟨fun hf => absurd hf hp, fun _ =>
        ⟨?_, fun _ _ => ?_, fun _ _ => ?_, ?_⟩⟩, fun hw => absurd hw (by simp [hc])⟩
      · rw [heq]; exact hlist
      · rw [heq]; rfl
      · rw [heq]; rfl
      · rw [heq, State.engine_endAwaited, State.engine_setQueue, if_pos rfl]
      · rw [heq]; rfl
      · rw [heq]; rfl
      · rw [heq, State.slot_endAwaited, if_pos rfl]
        exact rfl

end

/-- Settles O49. -/
theorem eyeScanStarts : Obligations.EyeScanStarts := by
  intro l s
  refine ⟨fun n h side lane page dwell ha hh => ?_, fun e p c hwait hlist howed hr =>
    ⟨fun x hx hmap hc hp hm hno => hwait.losses hlist hr hx hmap hc hp hm hno,
      fun hpending => hwait.owedCheck hlist hr howed hpending⟩⟩
  have hl : [side, lane, page, dwell].length ≤ 0x10 := by simp
  by_cases hbad : 1 < side.toNat ∨ (∀ i ∈ s.members l, i.val ≠ lane.toNat) ∨ 3 < page.toNat ∨
      (dwell ≠ 1 ∧ dwell ≠ 2 ∧ dwell ≠ 4)
  case pos =>
    refine ⟨_, congrArg Host.Outcome.next (State.eyeScan_refused ha hh hbad), State.carried_endAwaited ha (.refl _) _ _,
      fun _ => State.taskRefused_endAwaited ha hl _, fun i d x p hi hlane hx hp hdwell => ?_⟩
    obtain hside | hmember | hpage | ⟨h1, h2, h4⟩ := hbad
    · obtain ⟨rfl, -⟩ | ⟨rfl, -⟩ := hx
      · exact absurd hside (by decide)
      · exact absurd hside (by decide)
    · exact absurd hlane (hmember i hi)
    · exact absurd p.isLt (by omega)
    · obtain hd | hd | hd := hdwell
      · exact absurd hd h1
      · exact absurd hd h2
      · exact absurd hd h4
  case neg =>
    push Not at hbad
    obtain ⟨hside, ⟨i, hi, hlane⟩, hpage, hdwell⟩ := hbad
    obtain ⟨d, hd⟩ := Option.ne_none_iff_exists'.mp (mt decodeSide_eq_none.mp (not_lt.mpr hside))
    have hdwell' : dwell = 1 ∨ dwell = 2 ∨ dwell = 4 := by
      by_cases h1 : dwell = 1
      · exact .inl h1
      · by_cases h2 : dwell = 2
        · exact .inr (.inl h2)
        · exact .inr (.inr (hdwell h1 h2))
    obtain ⟨p, hp⟩ : ∃ p : PageId, p.val = page.toNat := ⟨⟨page.toNat, by omega⟩, rfl⟩
    have heq := State.eyeScan_inSets (h := h) ha hh hi hlane hd hp hdwell'
    refine ⟨_, congrArg Host.Outcome.next heq, ?carried, fun hbad => absurd hbad (by push Not; exact
      ⟨hside, ⟨i, hi, hlane⟩, hpage, hdwell⟩), fun i' d' x p' hi' hlane' hx hp' _ => ?_⟩
    case carried =>
      split
      · split
        · exact State.carried_startScan ha ..
        · exact State.carried_endAwaited ha (.refl _) _ _
      · exact State.carried_setQueue ha _
    obtain rfl : i' = i := Fin.ext (hlane'.trans hlane.symm)
    obtain rfl : p' = p := Fin.ext (hp'.trans hp.symm)
    obtain ⟨rfl, hsides⟩ : d' = d ∧ s.sideOf i' d' = x := by
      obtain ⟨rfl, rfl, rfl⟩ | ⟨rfl, rfl, rfl⟩ := hx
      · exact ⟨Option.some.inj ((decodeSide_eq_some.mpr (.inl ⟨rfl, rfl⟩)).symm.trans hd), rfl⟩
      · exact ⟨Option.some.inj ((decodeSide_eq_some.mpr (.inr ⟨rfl, rfl⟩)).symm.trans hd), rfl⟩
    rw [hsides]
    refine ⟨fun hw => ?_, fun hs hm hfree => ?_, fun hs hm hfree => ?_⟩
    · rw [if_neg fun hc => hw.elim (fun hs => hs hc.1) hc.2]
      exact State.taskWaits_setQueue ha hl
    · rw [if_pos ⟨hs, hm⟩, if_neg hfree]
      exact State.taskRefused_endAwaited ha hl _
    · rw [if_pos ⟨hs, hm⟩, if_pos hfree]
      exact State.scan_startScan ha hl l p' d' i' dwell.toNat hsides rfl

end Sys2Proof.Machine
end

section
/-! SCAN_CELL_COMPLETE (O29), and an event that lets a waiting EYE_SCAN start (R117, R120, R122). -/

namespace Sys2Proof.Machine

variable {s t u : State} {n m slot : SlotId} {l : LegId} {e : Entry} {i : LaneId} {p q : PageId} {c : Page} {errors left : Nat}

/-! ### An event at the engine of a waiting EYE_SCAN -/

section
variable (h : s.ScanWaits l e q c) (hk : s.KeepsWaiting t l e.slot) (hc : (t.leg l).state = .carrying)
  (hm : (t.lane (s.sideOf c.lane c.side)).monitor ≠ .scanning) (hq : (t.page q).state = .free)
include h hk hc hm hq

theorem State.ScanWaits.headCanStart : t.headCanStart l = true := by
  have hqueue := h.queued hk
  have hrun := h.run_starts hk hc hm hq
  obtain ⟨-, hkind, -, hdeferred, -⟩ := h
  simp [State.headCanStart, hqueue, hdeferred, hkind, State.attemptAt_head hqueue, hrun]

/-- R117, log 37: the event makes the check or puts it off. -/
theorem State.ScanWaits.engineEvent (hlist : t.handOver = []) :
    t.engineEvent l = State.putOff { t with freeCount := t.freeCount + 1 } l ∨
    t.engineEvent l = State.examineLeg { t with freeCount := t.freeCount + 1 } l := by
  have hk' : s.KeepsWaiting { t with freeCount := t.freeCount + 1 } l e.slot := ⟨hk.straps, hk.map, hk.queue, hk.bytes⟩
  rw [State.engineEvent, if_pos (h.headCanStart hk hc hm hq)]
  dsimp only
  split
  · exact .inl rfl
  · refine .inr (State.intake_nil ?_)
    obtain ⟨_, _, _, _, hu⟩ := State.startScan_update
      (({ t with freeCount := t.freeCount + 1 } : State).setQueue l []) l e.slot q c.side c.lane c.dwell
    rw [h.examineLeg_starts hk' hc hm hq, hu]
    exact hlist

theorem State.ScanWaits.startsOrIsPutOff (hlist : t.handOver = []) (hpage : t.page q = s.page q)
    (hslot : t.slot e.slot = s.slot e.slot) (howed : t.owed = s.owed) :
    s.ScanStartsOrIsPutOff (t.engineEvent l) l e q c := by
  have hk' : s.KeepsWaiting { t with freeCount := t.freeCount + 1 } l e.slot := ⟨hk.straps, hk.map, hk.queue, hk.bytes⟩
  obtain hevent | hevent := h.engineEvent hk hc hm hq hlist
  · have hqueue := h.queued hk
    rw [hevent]
    refine .inr ⟨⟨hqueue, hpage, hm, hslot⟩, ?_⟩
    rw [State.putOff_owed, ← howed]
  · have hstarted := h.started hk' hc hm hq hslot
    rw [hevent]
    refine .inl ⟨hstarted, ?_⟩
    obtain ⟨_, _, _, _, hu⟩ := State.startScan_update
      (({ t with freeCount := t.freeCount + 1 } : State).setQueue l []) l e.slot q c.side c.lane c.dwell
    rw [h.examineLeg_starts hk' hc hm hq, hu]
    exact howed

/-- The event touches no slot, no leg and no other page. -/
theorem State.ScanWaits.engineEvent_keeps (hlist : t.handOver = []) :
    (∀ m, (t.engineEvent l).slot m = t.slot m) ∧ (∀ k, (t.engineEvent l).leg k = t.leg k) ∧
      (∀ p, p ≠ q → (t.engineEvent l).page p = t.page p) := by
  have hk' : s.KeepsWaiting { t with freeCount := t.freeCount + 1 } l e.slot := ⟨hk.straps, hk.map, hk.queue, hk.bytes⟩
  obtain hevent | hevent := h.engineEvent hk hc hm hq hlist
  · rw [hevent]
    exact ⟨fun _ => rfl, fun _ => rfl, fun _ _ => rfl⟩
  · have hpages (p : PageId) := State.page_startScan (({ t with freeCount := t.freeCount + 1 } : State).setQueue l []) l
      e.slot q c.side c.lane c.dwell p
    obtain ⟨_, _, _, _, hu⟩ := State.startScan_update
      (({ t with freeCount := t.freeCount + 1 } : State).setQueue l []) l e.slot q c.side c.lane c.dwell
    rw [hevent, h.examineLeg_starts hk' hc hm hq]
    refine ⟨?_, ?_, fun p hp => (hpages p).trans (if_neg hp)⟩
    · rw [hu]; exact fun _ => rfl
    · rw [hu]; exact fun _ => rfl

end

/-! ### A cell completes (R120, R122) -/

/-- R120: the count of a cell and the number of cells done are written, and the next cell begins. -/
def State.cellWritten (s : State) (p : PageId) (slot : SlotId) (errors : Nat) : State :=
  State.modPage { s with
    mem := s.mem.write (pageBase p + 0x200 + (s.page p).cellsDone)
      (BitVec.ofNat 8 (if 255 < errors then 255 else errors)) } p (fun c => { c with cellsDone := c.cellsDone + 1, state := .busy slot (c.dwell * 1000) })

/-- R120, R122: how a scan whose cells are done, or whose cancel was asked, ends. -/
def endOutcome (cancel : Bool) : ScanOutcome := if cancel then .cancelled else .complete

theorem endOutcome_code (cancel : Bool) : (endOutcome cancel).code = if cancel then 3 else 1 := by
  cases cancel <;> decide

def endStatus (cancel : Bool) : Status := if cancel then .cancelled else .ok

/-- R120, R122: the scan ended after its cell. -/
def State.cellEnded (s : State) (p : PageId) (slot : SlotId) (errors : Nat) : State :=
  (s.cellWritten p slot errors).endScan p slot (endOutcome (s.slot slot).cancelAsked)
    (endStatus (s.slot slot).cancelAsked)

theorem State.page_cellWritten (s : State) (p : PageId) (slot : SlotId) (errors : Nat) (q : PageId) :
    (s.cellWritten p slot errors).page q = if q = p then { s.page p with
      cellsDone := (s.page p).cellsDone + 1, state := .busy slot ((s.page p).dwell * 1000) } else s.page q :=
  State.page_modPage { s with
    mem := s.mem.write (pageBase p + 0x200 + (s.page p).cellsDone)
      (BitVec.ofNat 8 (if 255 < errors then 255 else errors)) } p q _

theorem State.read_cellWritten (hw : s.mem.wf = true) (p : PageId) (slot : SlotId) (errors a : Nat) :
    (s.cellWritten p slot errors).mem.read a = if a = pageBase p + 0x200 + (s.page p).cellsDone then
      BitVec.ofNat 8 (min errors 255) else s.mem.read a := by
  have hcount : (if 255 < errors then 255 else errors) = min errors 255 := by split <;> omega
  rw [← hcount]
  exact Memory.read_write s.mem _ a _ hw

theorem State.completeCell_goesOn (hcancel : (s.slot slot).cancelAsked = false) (hcells : (s.page p).cellsDone < 511) :
    s.completeCell p slot errors = s.cellWritten p slot errors := by
  have hpage := congrArg Page.cellsDone ((s.page_cellWritten p slot errors p).trans (if_pos rfl))
  have hdone : ¬Config.scanCells ≤ ((s.cellWritten p slot errors).page p).cellsDone := by
    rw [hpage]
    simp only [Config.scanCells]
    omega
  have hcancel' : ¬((s.cellWritten p slot errors).slot slot).cancelAsked = true :=
    fun hc => absurd (hcancel.symm.trans hc) nofun
  exact (if_neg hcancel').trans (if_neg hdone)

theorem State.completeCell_ends (hend : (s.slot slot).cancelAsked = true ∨ (s.page p).cellsDone = 511) :
    s.completeCell p slot errors = (s.cellEnded p slot errors).engineEvent (s.page p).leg := by
  have hpage := (s.page_cellWritten p slot errors p).trans (if_pos rfl)
  by_cases hcancel : (s.slot slot).cancelAsked = true
  · have hended : s.cellEnded p slot errors = (s.cellWritten p slot errors).endScan p slot .cancelled .cancelled := by
      rw [State.cellEnded, hcancel]
      exact rfl
    rw [hended]
    exact if_pos hcancel
  · have hdone : Config.scanCells ≤ ((s.cellWritten p slot errors).page p).cellsDone := by
      rw [congrArg Page.cellsDone hpage]
      simp only [Config.scanCells]
      have hlast := hend.resolve_left hcancel
      omega
    have hended : s.cellEnded p slot errors = (s.cellWritten p slot errors).endScan p slot .complete .ok := by
      rw [State.cellEnded, Bool.eq_false_iff.mpr hcancel]
      exact rfl
    rw [hended]
    exact (if_neg hcancel).trans (if_pos hdone)

theorem State.engineEvent_nil (hq : (s.engine l).queue = []) (hlist : s.handOver = []) : s.engineEvent l = s := by
  simp [State.engineEvent, State.headCanStart_nil hq, State.examineLeg_nil hq, State.intake_nil hlist]

theorem State.scanSide_cellWritten (s : State) (p : PageId) (slot : SlotId) (errors : Nat) :
    (s.cellWritten p slot errors).scanSide p = s.sideOf (s.page p).lane (s.page p).side := by
  rw [State.scanSide, State.page_cellWritten, if_pos rfl]
  exact rfl

theorem State.cellEnded_eq (s : State) (p : PageId) (slot : SlotId) (errors : Nat) : s.cellEnded p slot errors =
    ((s.cellWritten p slot errors).heldPage p (endOutcome (s.slot slot).cancelAsked)).endAwaited slot
      (scanResult p (endOutcome (s.slot slot).cancelAsked) ((s.page p).cellsDone + 1))
      (endStatus (s.slot slot).cancelAsked) := by
  rw [State.cellEnded, State.endScan_eq, State.page_cellWritten, if_pos rfl]

theorem State.page_cellEnded (s : State) (p : PageId) (slot : SlotId) (errors : Nat) (q : PageId) :
    (s.cellEnded p slot errors).page q = if q = p then { s.page p with
      cellsDone := (s.page p).cellsDone + 1, state := .held, outcome := endOutcome (s.slot slot).cancelAsked }
    else s.page q := by
  rw [State.cellEnded, State.page_endScan]
  split
  · rw [State.page_cellWritten, if_pos rfl]
  · next hq => rw [State.page_cellWritten, if_neg hq]

theorem State.lane_cellEnded (s : State) (p : PageId) (slot : SlotId) (errors : Nat) (y : LaneSide) :
    (s.cellEnded p slot errors).lane y = if y = s.sideOf (s.page p).lane (s.page p).side then
      { s.lane y with monitor := .idle } else s.lane y := by
  rw [State.cellEnded, State.lane_endScan, State.scanSide_cellWritten]
  exact rfl

theorem State.slot_cellEnded (s : State) (p : PageId) (slot : SlotId) (errors : Nat) (m : SlotId) :
    (s.cellEnded p slot errors).slot m = if m = slot then
      ⟨.done, endStatus (s.slot slot).cancelAsked, (s.slot slot).cancelAsked⟩ else s.slot m := by
  rw [State.cellEnded, State.slot_endScan]
  exact rfl

theorem State.heldPage_update (s : State) (p : PageId) (o : ScanOutcome) : ∃ lineSide switchSide pages,
    s.heldPage p o = { s with lineSide := lineSide, switchSide := switchSide, pages := pages } := ⟨_, _, _, rfl⟩

theorem State.endAwaited_update_result (s : State) (n : SlotId) (result : List Byte) (st : Status) :
    ∃ slots mem summary latchedLine, s.endAwaited n result st = { s with
      slots := slots, mem := mem, summary := summary, latchedLine := latchedLine } := ⟨_, _, _, _, rfl⟩

theorem State.cellWritten_update (s : State) (p : PageId) (slot : SlotId) (errors : Nat) : ∃ pages mem,
    s.cellWritten p slot errors = { s with pages := pages, mem := mem } := ⟨_, _, rfl⟩

/-- R120: nothing but the page, the monitor, the slot, the memory and the summary moves at the end of a scan. -/
theorem State.cellEnded_update (s : State) (p : PageId) (slot : SlotId) (errors : Nat) :
    ∃ lineSide switchSide slots pages mem summary latchedLine, s.cellEnded p slot errors = { s with
      lineSide := lineSide, switchSide := switchSide, slots := slots, pages := pages, mem := mem, summary := summary
      latchedLine := latchedLine } := by
  rw [State.cellEnded_eq]
  obtain ⟨_, _, hcell⟩ := s.cellWritten_update p slot errors
  obtain ⟨_, _, _, hheld⟩ := (s.cellWritten p slot errors).heldPage_update p (endOutcome (s.slot slot).cancelAsked)
  obtain ⟨_, _, _, _, hended⟩ := State.endAwaited_update_result ((s.cellWritten p slot errors).heldPage p
    (endOutcome (s.slot slot).cancelAsked)) slot
    (scanResult p (endOutcome (s.slot slot).cancelAsked) ((s.page p).cellsDone + 1))
    (endStatus (s.slot slot).cancelAsked)
  rw [hended, hheld, hcell]
  exact ⟨_, _, _, _, _, _, _, rfl⟩

theorem State.summary_cellEnded (s : State) (p : PageId) (slot : SlotId) (errors : Nat) :
    (s.cellEnded p slot errors).summary = s.summary ||| (1#32 <<< slot.val) := by
  rw [State.cellEnded_eq, State.endAwaited_summary]
  exact rfl

theorem State.read_cellEnded (hw : s.mem.wf = true) (p : PageId) (slot : SlotId) (errors a : Nat)
    (ha : ¬(slotBase slot + 0x80 ≤ a ∧ a < slotBase slot + 0x84)) :
    (s.cellEnded p slot errors).mem.read a = if a = pageBase p + 0x200 + (s.page p).cellsDone then
      BitVec.ofNat 8 (min errors 255) else s.mem.read a := by
  rw [State.cellEnded_eq, State.endAwaited_mem, ← State.read_cellWritten hw p slot errors a]
  exact Memory.read_writeBytes_outside (by rw [scanResult_length]; exact ha)

/-- R120, R122: the result of the scan. -/
theorem State.result_cellEnded (hw : s.mem.wf = true) (p : PageId) (slot : SlotId) (errors : Nat) {j : Nat} (hj : j < 4) :
    (s.cellEnded p slot errors).slotByte slot (0x80 + j) =
      (scanResult p (endOutcome (s.slot slot).cancelAsked) ((s.page p).cellsDone + 1)).getD j 0 := by
  have hwf : ((s.cellWritten p slot errors).heldPage p (endOutcome (s.slot slot).cancelAsked)).mem.wf = true :=
    Memory.wf_write _ _ _ hw
  rw [State.cellEnded_eq, State.slotByte_endAwaited hwf slot _ _ (by rwa [scanResult_length])
    (by rw [scanResult_length]; decide), if_pos rfl]

/-- R122: the last cell of a scan lets a waiting EYE_SCAN of its lane side start. -/
theorem State.completeCell_waiting (hw : s.mem.wf = true) (hbusy : (s.page p).state = .busy slot left)
    (hwait : s.ScanWaits l e q c) (hlist : s.handOver = []) (hleg : (s.page p).leg = l)
    (hside : s.sideOf (s.page p).lane (s.page p).side = s.sideOf c.lane c.side) (hc : (s.leg l).state = .carrying)
    (hfree : (s.page q).state = .free) (hlast : (s.page p).cellsDone = 511) (hne : e.slot ≠ slot) :
    ((s.completeCell p slot errors).page p).state = .held ∧ ((s.completeCell p slot errors).slot slot).state = .done ∧
      (s.completeCell p slot errors).leg l = s.leg l ∧ s.ScanStartsOrIsPutOff (s.completeCell p slot errors) l e q c := by
  have hpq : q ≠ p := fun h => by
    rw [h, hbusy] at hfree
    exact absurd hfree nofun
  have hpage := s.page_cellEnded p slot errors
  have hlane := s.lane_cellEnded p slot errors
  have hslot := s.slot_cellEnded p slot errors
  have hread := State.read_cellEnded hw p slot errors
  obtain ⟨_, _, _, _, _, _, _, hu⟩ := s.cellEnded_update p slot errors
  rw [State.completeCell_ends (.inr hlast), hleg]
  generalize s.cellEnded p slot errors = t at hpage hlane hslot hread hu ⊢
  have hk : s.KeepsWaiting t l e.slot := by
    refine ⟨by rw [hu], by rw [hu], by rw [hu]; rfl, fun i hi => ?_⟩
    have he := e.slot.isLt
    have hcell := slot_ne_cell (n := e.slot) (a := slotBase e.slot + i) ⟨by omega, by omega⟩ p
    rw [State.slotByte, hread _ (by simp only [slotBase]; have := slot.isLt; omega), if_neg (by omega)]
    exact rfl
  have hlegs : t.leg l = s.leg l := by rw [hu]; rfl
  have hc' : (t.leg l).state = .carrying := hlegs ▸ hc
  have hm : (t.lane (s.sideOf c.lane c.side)).monitor ≠ .scanning := by
    rw [hlane, if_pos hside.symm]
    nofun
  have hsame : t.page q = s.page q := (hpage q).trans (if_neg hpq)
  have hfree' : (t.page q).state = .free := by rw [hsame, hfree]
  have hlist' : t.handOver = [] := by rw [hu]; exact hlist
  obtain ⟨hslots, hlegs', hpages⟩ := hwait.engineEvent_keeps hk hc' hm hfree' hlist'
  refine ⟨?_, ?_, (hlegs' l).trans hlegs, hwait.startsOrIsPutOff hk hc' hm hfree' hlist' hsame
    ((hslot e.slot).trans (if_neg hne)) (by rw [hu])⟩
  · rw [hpages p (Ne.symm hpq), hpage, if_pos rfl]
  · rw [hslots, hslot, if_pos rfl]

/-- Settles O29. -/
theorem scanCellsFillThePage : Obligations.ScanCellsFillThePage := by
  intro p errors slot left s hr hw hbusy hcells
  have hexec : exec (.scanCellComplete p errors) s = .next (s.completeCell p slot errors) := by
    have hwhen : exec (.scanCellComplete p errors) s = whenRunning s true (fun s => s.completeCell p slot errors) := by
      show execScanCellComplete p errors s = _
      rw [execScanCellComplete, hbusy]
    rw [hwhen]
    exact whenRunning_of_can _ hr rfl
  refine ⟨fun hwork => ⟨_, hexec, ?_⟩, fun l e q c hwait hlist hleg hside hc hfree hlast _ hne => ⟨_, hexec,
    State.completeCell_waiting hw hbusy hwait hlist hleg hside hc hfree hlast hne⟩⟩
  by_cases hend : (s.slot slot).cancelAsked = true ∨ (s.page p).cellsDone = 511
  case neg =>
    obtain ⟨hcancel, hnot⟩ := not_or.mp hend
    have hpage := s.page_cellWritten p slot errors
    have hread := State.read_cellWritten hw p slot errors
    rw [State.completeCell_goesOn (Bool.eq_false_iff.mpr hcancel) (by omega)]
    exact ⟨by rw [hpage, if_pos rfl], by rw [hread, if_pos rfl],
      fun q hq => by rw [hpage, if_neg (by simpa using hq)], fun _ _ => rfl, ⟨rfl, rfl, rfl⟩, ⟨rfl, rfl, rfl⟩,
      ⟨rfl, rfl, rfl, rfl, rfl, rfl⟩, fun _ => rfl, ⟨fun _ => rfl, rfl, rfl, rfl, rfl⟩, ⟨rfl, rfl⟩,
      ⟨rfl, rfl, rfl, rfl, rfl⟩, ⟨rfl, rfl, rfl⟩, fun _ _ => ⟨by rw [hpage, if_pos rfl],
        fun a ha => by rw [hread, if_neg ha], fun _ _ => rfl, fun _ _ => rfl, ⟨rfl, rfl, rfl, rfl, rfl⟩⟩,
      fun h => absurd h hend⟩
  case pos =>
    have hpage := s.page_cellEnded p slot errors
    have hlane := s.lane_cellEnded p slot errors
    have hslot := s.slot_cellEnded p slot errors
    have hread := State.read_cellEnded hw p slot errors
    have hsummary := s.summary_cellEnded p slot errors
    have hresult (j : Nat) (hj : j < 4) := State.result_cellEnded hw p slot errors hj
    obtain ⟨_, _, _, _, _, _, _, hu⟩ := s.cellEnded_update p slot errors
    obtain ⟨hlist, hqueues, -⟩ := hwork
    rw [State.completeCell_ends hend]
    generalize s.cellEnded p slot errors = t at hpage hlane hslot hread hsummary hresult hu ⊢
    have hquiet : t.engineEvent (s.page p).leg = t :=
      State.engineEvent_nil (by rw [hu]; exact hqueues _) (by rw [hu]; exact hlist)
    rw [hquiet]
    refine ⟨by rw [hpage, if_pos rfl], ?_, fun q hq => by rw [hpage, if_neg (by simpa using hq)], ?_⟩
    · rw [hread _ ?_, if_pos rfl]
      intro hin
      exact slot_ne_cell (n := slot) ⟨by omega, by omega⟩ p ⟨Nat.le_add_right .., Nat.add_lt_add_left hcells _⟩
    · have hframe : s.SameLegsBut [] t ∧ s.SamePins t ∧ s.SamePower t ∧ s.SameDevice t ∧ s.SameMap t ∧
          s.SameTasks t ∧ s.SameFaults t ∧ s.SameLine t ∧ s.SameSettings t := by
        rw [hu]
        exact ⟨fun _ _ => rfl, ⟨rfl, rfl, rfl⟩, ⟨rfl, rfl, rfl⟩, ⟨rfl, rfl, rfl, rfl, rfl, rfl⟩, fun _ => rfl,
          ⟨fun _ => rfl, rfl, rfl, rfl, rfl⟩, ⟨rfl, rfl⟩, ⟨rfl, rfl, rfl, rfl, rfl⟩, ⟨rfl, rfl, rfl⟩⟩
      obtain ⟨hlegs, hpins, hpower, hdevice, hmap, htasks, hfaults, hline, hsettings⟩ := hframe
      refine ⟨hlegs, hpins, hpower, hdevice, hmap, htasks, hfaults, hline, hsettings,
        fun hcancel hlast => absurd hend (by simp [hcancel]; omega), fun _ => ⟨?_, ?_, ?_, hsummary, hresult 0 (by decide),
          ?_, hresult 2 (by decide), hresult 3 (by decide), fun a ha hout => ?_, fun y hy => ?_, fun m hm => ?_⟩⟩
      · rw [hpage, if_pos rfl]
        exact rfl
      · rw [hlane, if_pos rfl]
      · rw [hslot, if_pos rfl]
        exact rfl
      · exact (hresult 1 (by decide)).trans (endOutcome_code _)
      · rw [hread a hout, if_neg ha]
      · rw [hlane, if_neg (by simpa using hy)]
      · rw [hslot, if_neg (by simpa using hm)]

end Sys2Proof.Machine
end

section
/-! An entry that gives up (O31). -/

namespace Sys2Proof.Machine

variable {s t u : State} {n m : SlotId} {l k : LegId} {e : Entry} {q : List Entry} {st : Status} {r : FaultRecord}

/-! ### A task that ends with no result -/

/-- What the end of a task with no result leaves: everything but the slots, the summary and the fault log. -/
structure State.KeepsButEnd (s t : State) : Prop where
  part : s.SamePart t
  pages : s.SamePagesBut [] t
  bytes : s.SameBytes t
  line : s.SameLine t
  tasks : s.SameTasks t
  settings : s.SameSettings t

theorem State.keepsButEnd_endAwaited (s : State) (n : SlotId) (st : Status) : s.KeepsButEnd (s.endAwaited n [] st) := by
  obtain ⟨_, _, h⟩ := s.endAwaited_update n st
  rw [h]
  exact ⟨⟨⟨rfl, rfl, rfl⟩, ⟨rfl, rfl, rfl⟩, ⟨rfl, rfl, rfl, rfl, rfl, rfl⟩, fun _ => rfl, fun _ _ => rfl, fun _ _ => rfl⟩,
    fun _ _ => rfl, fun _ => rfl, ⟨rfl, rfl, rfl, rfl, rfl⟩, ⟨fun _ => rfl, rfl, rfl, rfl, rfl⟩, ⟨rfl, rfl, rfl⟩⟩

theorem State.keepsButEnd_reportFault (s : State) (r : FaultRecord) : s.KeepsButEnd (s.reportFault r) := by
  obtain ⟨_, _, _, _, h⟩ := s.reportFault_eq_update r
  rw [h]
  exact ⟨⟨⟨rfl, rfl, rfl⟩, ⟨rfl, rfl, rfl⟩, ⟨rfl, rfl, rfl, rfl, rfl, rfl⟩, fun _ => rfl, fun _ _ => rfl, fun _ _ => rfl⟩,
    fun _ _ => rfl, fun _ => rfl, ⟨rfl, rfl, rfl, rfl, rfl⟩, ⟨fun _ => rfl, rfl, rfl, rfl, rfl⟩, ⟨rfl, rfl, rfl⟩⟩

/-- R144, R168: the fault that a posted entry's end reports. -/
def Entry.fault (e : Entry) (st : Status) : FaultRecord :=
  ⟨.posted, st, e.slot.val, e.kindByte, e.leg, e.label0, e.label1, 0, 0⟩

theorem State.endTask_posted (h : e.awaited = false) (hst : st.isFault = true) :
    s.endTask e [] st = s.reportFault (e.fault st) := by
  rw [State.endTask, h]
  exact if_pos hst

theorem State.endTask_awaited (h : e.awaited = true) (result : List Byte) (st : Status) :
    s.endTask e result st = s.endAwaited e.slot result st := if_pos h

theorem State.keepsButEnd_endTask (s : State) (e : Entry) (hst : st.isFault = true) :
    s.KeepsButEnd (s.endTask e [] st) := by
  cases h : e.awaited with
  | true => rw [State.endTask_awaited h]; exact s.keepsButEnd_endAwaited e.slot st
  | false => rw [State.endTask_posted h hst]; exact s.keepsButEnd_reportFault _

/-- A queue changed aside, the end of a task leaves the part, the pages, the bytes and the line. -/
theorem State.KeepsButEnd.of_setQueue (h : (s.setQueue l q).KeepsButEnd t) :
    s.SamePart t ∧ s.SamePagesBut [] t ∧ s.SameBytes t ∧ s.SameLine t :=
  ⟨h.part, h.pages, h.bytes, h.line⟩

/-! ### An entry whose patience ends (R149) -/

theorem exec_patienceExpiry {place : Fin 2} (hr : s.resetHeld = false) (he : s.waitingEntry l place.val = some e) :
    exec (.patienceExpiry l place) s = .next (s.giveUpEntry l place.val e).intake := by
  have hwhen : exec (.patienceExpiry l place) s =
      whenRunning s true fun s => (s.giveUpEntry l place.val e).intake := by
    show execPatienceExpiry l place s = _
    rw [execPatienceExpiry, he]
  rw [hwhen]
  exact whenRunning_of_can _ hr rfl

theorem State.waitingEntry_of {i : Nat} (hq : (s.engine l).queue[i]? = some e) (hd : e.deferred = true)
    (hc : e.clock.isSome = true) : s.waitingEntry l i = some e := by
  simp [State.waitingEntry, hq, hd, hc]

/-- The queue without the entry that gave up, and its end. -/
def State.gaveUp (s : State) (l : LegId) (q : List Entry) (e : Entry) : State := (s.setQueue l q).endTask e [] .gaveUp

theorem State.keepsButEnd_gaveUp (s : State) (l : LegId) (q : List Entry) (e : Entry) :
    (s.setQueue l q).KeepsButEnd (s.gaveUp l q e) := State.keepsButEnd_endTask _ e rfl

theorem State.queue_gaveUp (s : State) (l : LegId) (q : List Entry) (e : Entry) :
    ((s.gaveUp l q e).engine l).queue = q := by
  obtain ⟨hengines, -⟩ := (s.keepsButEnd_gaveUp l q e).tasks
  rw [hengines, State.engine_setQueue, if_pos rfl]

theorem State.handOver_gaveUp (s : State) (l : LegId) (q : List Entry) (e : Entry) :
    (s.gaveUp l q e).handOver = s.handOver := by
  obtain ⟨-, -, -, hlist, -⟩ := (s.keepsButEnd_gaveUp l q e).tasks
  exact hlist

/-- Settles O31. -/
theorem patienceExpiryGivesUp : Obligations.PatienceExpiryGivesUp := by
  intro l e s hr hlist hdeferred hclock
  refine ⟨fun hq => ?alone, fun h hq hposted hawaited hd hk hp harg hc => ?behind⟩
  case alone =>
    have hexamine : s.giveUpEntry l 0 e = s.gaveUp l [] e := by
      rw [State.giveUpEntry, hq]
      exact State.examineLeg_nil (s.queue_gaveUp l [] e)
    have hexec := exec_patienceExpiry (place := 0) hr (State.waitingEntry_of (by rw [hq]; rfl) hdeferred hclock)
    have hintake : (s.giveUpEntry l 0 e).intake = s.gaveUp l [] e := by
      rw [hexamine, State.intake_nil ((s.handOver_gaveUp l [] e).trans hlist)]
    refine ⟨_, hexec.trans (congrArg _ hintake), s.queue_gaveUp l [] e, fun ha => ?_, fun ha => ?_,
      (s.keepsButEnd_gaveUp l [] e).of_setQueue⟩
    · have hend : s.gaveUp l [] e = (s.setQueue l []).endAwaited e.slot [] .gaveUp := State.endTask_awaited ha _ _
      rw [hend]
      refine ⟨by rw [State.slot_endAwaited, if_pos rfl], by rw [State.slot_endAwaited, if_pos rfl], ?_, ⟨rfl, rfl⟩,
        fun m hm => ?_⟩
      · rw [State.endAwaited_summary, BitVec.getLsbD_or, getLsbD_slotBit_self, Bool.or_true]
      · rw [State.slot_endAwaited, if_neg (by simpa using hm)]
        rfl
    · have hend : s.gaveUp l [] e = (s.setQueue l []).reportFault (e.fault .gaveUp) := State.endTask_posted ha rfl
      obtain ⟨-, -, -, -, -, hslots, -⟩ := (s.setQueue l []).reportFault_keeps (e.fault .gaveUp)
      obtain ⟨hfirst, hlater⟩ := (s.setQueue l []).faultReported_reportFault (e.fault .gaveUp)
      rw [hend]
      refine ⟨hslots, fun hnone => ?_, fun hsome => ?_⟩
      · obtain ⟨hrecord, -, hsummary⟩ := hfirst hnone
        rw [hsummary]
        refine ⟨?_, hrecord⟩
        rw [BitVec.getLsbD_or]
        exact (congrArg _ (by decide)).trans (Bool.or_true _)
      · obtain ⟨hrecord, hcount, -⟩ := hlater hsome
        exact ⟨hrecord, hcount⟩
  case behind =>
    have hexec := exec_patienceExpiry (place := 1) hr (State.waitingEntry_of (by rw [hq]; rfl) hdeferred hclock)
    have hend : s.gaveUp l [h] e = (s.setQueue l [h]).reportFault (e.fault .gaveUp) := State.endTask_posted hposted rfl
    obtain ⟨-, -, -, -, -, hslots, -⟩ := (s.setQueue l [h]).reportFault_keeps (e.fault .gaveUp)
    obtain ⟨⟨-, -, -, -, -, hlegs⟩, -, hbytes, -⟩ := s.keepsButEnd_gaveUp l [h] e
    have hwaits : (s.gaveUp l [h] e).WaitsOn l h := by
      refine ⟨s.queue_gaveUp l [h] e, hd, by rw [hk]; nofun, ?_⟩
      rw [State.runLegTask_retunes hp hk]
      refine State.runLegRetune_waits ?_ ?_
      · have hbyte : ((s.gaveUp l [h] e).setQueue l []).arg h 0 = s.slotByte h.slot 0x10 :=
          (if_pos hawaited).trans (hbytes _)
        rw [hbyte]
        exact harg
      · have hleg : (s.gaveUp l [h] e).leg l = s.leg l := hlegs l List.not_mem_nil
        rw [State.leg_setQueue, hleg]
        exact hc
    have hexamine : s.giveUpEntry l 1 e = s.gaveUp l [h] e := by
      rw [State.giveUpEntry, hq]
      exact hwaits.examineLeg
    have hintake : (s.giveUpEntry l 1 e).intake = s.gaveUp l [h] e := by
      rw [hexamine, State.intake_nil ((s.handOver_gaveUp l [h] e).trans hlist)]
    obtain ⟨hpart, hpages, hbytes', hline⟩ := (s.keepsButEnd_gaveUp l [h] e).of_setQueue
    refine ⟨_, hexec.trans (congrArg _ hintake), s.queue_gaveUp l [h] e, hpart, ?_, hpages, hbytes', hline⟩
    rw [hend]
    exact hslots

end Sys2Proof.Machine
end

section
/-! What a deferred head of a leg queue lets pass (R150, R152). -/

namespace Sys2Proof.Machine

variable {s t u : State} {n m : SlotId} {l k : LegId} {e g p : Entry} {es : List Entry}

/-! ### The head waits -/

theorem State.examineRounds_nil (hq : (s.engine l).queue = []) (fuel : Nat) : s.examineRounds l fuel = s := by
  cases fuel with
  | zero => rfl
  | succ fuel => rw [State.examineRounds, hq]

/-- R146: the head is deferred already and its kind makes it wait. -/
structure State.HeadWaits (s : State) (l : LegId) (e : Entry) (es : List Entry) : Prop where
  queue : (s.engine l).queue = e :: es
  deferred : e.deferred = true
  kind : e.kind ≠ .legPark
  waits : (s.setQueue l es).runLegTask l e = none

theorem parkPlace_cons_of_ne (h : e.kind ≠ .legPark) (es : List Entry) :
    parkPlace (e :: es) = (parkPlace es).map (· + 1) := by
  simp [parkPlace, List.findIdx?_cons, h]

theorem parkPlace_cons_of_eq (h : e.kind = .legPark) (es : List Entry) : parkPlace (e :: es) = some 0 := by
  simp [parkPlace, List.findIdx?_cons, h]

theorem State.HeadWaits.attempt (h : s.HeadWaits l e es) : s.attemptAt l 0 e = none := by
  rw [State.attemptAt, h.queue]
  exact h.waits

theorem State.HeadWaits.deferAt (h : s.HeadWaits l e es) : s.deferAt l 0 = s := by
  have hkept : e.deferEntry = e := if_pos h.deferred
  refine State.setQueue_same ?_
  rw [h.queue]
  simp [hkept]

/-- R146: behind a head that waits the pass of R150 is made, and no LEG_PARK passes. -/
theorem State.HeadWaits.examineLeg_passed (h : s.HeadWaits l e es) (hpass : s.passEntries l (es.length + 1) = t)
    (hpark : t.passPark l = none) : s.examineLeg l = t := by
  rw [State.examineLeg, h.queue]
  show s.examineRounds l (es.length + 1 + 1) = _
  rw [State.examineRounds, h.queue]
  simp only [h.attempt, h.deferAt, h.queue, List.length_cons, hpass, hpark]

/-- R146: behind a head that waits the pass of R150 is made, and LEG_PARK passes (R152). -/
theorem State.HeadWaits.examineLeg_parks (h : s.HeadWaits l e es) (hpass : s.passEntries l (es.length + 1) = t)
    (hpark : t.passPark l = some u) (hu : (u.engine l).queue = []) : s.examineLeg l = u := by
  rw [State.examineLeg, h.queue]
  show s.examineRounds l (es.length + 1 + 1) = _
  rw [State.examineRounds, h.queue]
  simp only [h.attempt, h.deferAt, h.queue, List.length_cons, hpass, hpark, State.examineRounds_nil hu]

/-- R150: an awaited entry behind the head stops the pass. -/
theorem State.passEntries_awaited (hq : (s.engine l).queue = e :: g :: es) (hg : g.awaited = true) (fuel : Nat) :
    s.passEntries l fuel = s := by
  cases fuel with
  | zero => rfl
  | succ fuel => simp [State.passEntries, hq, hg]

theorem State.passEntries_alone (hq : (s.engine l).queue = [e]) (fuel : Nat) : s.passEntries l fuel = s := by
  cases fuel with
  | zero => rfl
  | succ fuel => simp [State.passEntries, hq]

theorem State.passPark_none (hq : (s.engine l).queue = es) (hes : parkPlace es = none) : s.passPark l = none := by
  rw [State.passPark, hq, hes]

/-! ### LEG_PARK passes (R152) -/

/-- R152: LEG_PARK executed past the entries ahead of it, and they superseded. -/
def State.parkPassed (s : State) (l : LegId) (p : Entry) (ahead : List Entry) : State :=
  ((s.runLegPark l p).supersedeAwaited l ahead).supersedePosted ahead

theorem State.passPark_last (hq : (s.engine l).queue = es ++ [p]) (hplace : parkPlace (es ++ [p]) = some es.length)
    (hp : p.patience.toNat ≤ 3) : s.passPark l = some ((s.setQueue l []).parkPassed l p es) := by
  have hg : p.patienceGood = true := decide_eq_true hp
  rw [State.passPark, hq, hplace]
  simp [State.parkPassed, hg]

/-- R152: a LEG_PARK behind a deferred head, and behind one awaited entry at most, passes them. -/
theorem State.HeadWaits.park (h : s.HeadWaits l e (es ++ [p])) (hk : p.kind = .legPark) (ha : p.awaited = true)
    (hp : p.patience.toNat ≤ 3) (hes : es = [] ∨ ∃ g, es = [g] ∧ g.awaited = true ∧ g.kind ≠ .legPark)
    (hempty : (((s.setQueue l []).parkPassed l p (e :: es)).engine l).queue = []) :
    s.examineLeg l = (s.setQueue l []).parkPassed l p (e :: es) := by
  have hstop (fuel : Nat) : s.passEntries l fuel = s := by
    obtain rfl | ⟨g, rfl, hg, -⟩ := hes
    · exact State.passEntries_awaited h.queue ha fuel
    · exact State.passEntries_awaited h.queue hg fuel
  have hplace : parkPlace ((e :: es) ++ [p]) = some (e :: es).length := by
    obtain rfl | ⟨g, rfl, -, hg⟩ := hes
    · rw [List.singleton_append, parkPlace_cons_of_ne h.kind, parkPlace_cons_of_eq hk]
      rfl
    · rw [List.cons_append, List.singleton_append, parkPlace_cons_of_ne h.kind, parkPlace_cons_of_ne hg,
        parkPlace_cons_of_eq hk]
      rfl
  have hpass : s.passPark l = some ((s.setQueue l []).parkPassed l p (e :: es)) :=
    State.passPark_last h.queue hplace hp
  exact h.examineLeg_parks (hstop _) hpass hempty

/-! ### A posted entry passes (R150) -/

theorem State.HeadWaits.attempt_behind (h : s.HeadWaits l e [p]) :
    s.attemptAt l 1 p = (s.setQueue l [e]).runLegTask l p := by
  rw [State.attemptAt, h.queue]
  exact rfl

section
variable (h : s.HeadWaits l e [p]) (hk : p.kind ≠ .legPark)
include h hk

theorem State.HeadWaits.noPark : parkPlace [e, p] = none := by
  rw [parkPlace_cons_of_ne h.kind, parkPlace_cons_of_ne hk]
  rfl

/-- R150: with passing off nothing passes. -/
theorem State.HeadWaits.stands (hoff : (s.leg l).setup.passing = false) : s.examineLeg l = s := by
  have hstop : s.passEntries l ([p].length + 1) = s := by simp [State.passEntries, h.queue, hoff]
  exact h.examineLeg_passed hstop (State.passPark_none h.queue (h.noPark hk))

variable (ha : e.awaited = true) (hp : p.awaited = false) (hon : (s.leg l).setup.passing = true)
include ha hp hon

/-- R150: with passing on, a posted entry behind an awaited head is executed past it. -/
theorem State.HeadWaits.runs (hrun : (s.setQueue l [e]).runLegTask l p = some t) (ht : (t.engine l).queue = [e]) :
    s.examineLeg l = t := by
  have hattempt := h.attempt_behind.trans hrun
  refine h.examineLeg_passed ?_ (State.passPark_none ht (by rw [parkPlace_cons_of_ne h.kind]; rfl))
  simp [State.passEntries, h.queue, ha, hp, hon, hk, hattempt, ht]

/-- R150: with passing on, a posted entry behind an awaited head that waits is deferred. -/
theorem State.HeadWaits.defers (hrun : (s.setQueue l [e]).runLegTask l p = none) :
    s.examineLeg l = s.setQueue l [e, p.deferEntry] := by
  have hattempt := h.attempt_behind.trans hrun
  have hdefer : s.deferAt l 1 = s.setQueue l [e, p.deferEntry] := by
    rw [State.deferAt, h.queue]
    exact rfl
  have hkind : p.deferEntry.kind ≠ .legPark := by
    unfold Entry.deferEntry
    split <;> exact hk
  refine h.examineLeg_passed ?_ (State.passPark_none (by rw [State.engine_setQueue, if_pos rfl])
    (by rw [parkPlace_cons_of_ne h.kind, parkPlace_cons_of_ne hkind]; rfl))
  simp [State.passEntries, h.queue, ha, hp, hon, hk, hattempt, hdefer]

end

end Sys2Proof.Machine
end

section
/-! LEG_PARK passing a deferred LEG_RETUNE (R152, R154, R158). -/

namespace Sys2Proof.Machine

variable {s t u : State} {n m : SlotId} {l k : LegId} {e g p : Entry} {es : List Entry} {st st' : Status} {h : TaskHeader}
  {args : List Byte}

/-! ### Tasks that have finished -/

/-- The task of a slot is DONE with a status, and its summary bit stands. -/
structure State.Finished (s : State) (m : SlotId) (st : Status) : Prop where
  state : (s.slot m).state = .done
  status : (s.slot m).status = st
  summary : s.summary.getLsbD m.val = true

theorem State.finished_endAwaited (s : State) (n : SlotId) (result : List Byte) (st : Status) :
    (s.endAwaited n result st).Finished n st where
  state := by rw [State.slot_endAwaited, if_pos rfl]
  status := by rw [State.slot_endAwaited, if_pos rfl]
  summary := by rw [State.endAwaited_summary, BitVec.getLsbD_or, getLsbD_slotBit_self, Bool.or_true]

theorem State.Finished.endAwaited (hf : s.Finished m st) (hn : m ≠ n) (result : List Byte) (st' : Status) :
    (s.endAwaited n result st').Finished m st where
  state := by rw [State.slot_endAwaited, if_neg hn, hf.state]
  status := by rw [State.slot_endAwaited, if_neg hn, hf.status]
  summary := by rw [State.endAwaited_summary, BitVec.getLsbD_or, hf.summary, Bool.true_or]

/-! ### A leg that parks out of no CARRYING -/

theorem State.keepsSignals_abandonSide (s : State) (l : LegId) (d : Side) : s.KeepsSignals (s.abandonSide l d) := by
  unfold State.abandonSide
  split
  · exact (State.keepsSignals_modLanes _ (f := LaneState.abandon) (fun _ => ⟨rfl, rfl⟩) s).modLeg l _
  · exact State.keepsSignals_modLanes _ (f := LaneState.rest) (fun _ => ⟨rfl, rfl⟩) s

theorem State.keepsSignals_parkLeg (hc : (s.leg l).state ≠ .carrying) : s.KeepsSignals (s.parkLeg l) := by
  have habandon : s.KeepsSignals (s.abandonSessions l) := by
    unfold State.abandonSessions
    split
    · exact (s.keepsSignals_abandonSide l .line).trans (State.keepsSignals_abandonSide _ l .switch)
    · exact .refl s
  have hstay : (s.abandonSessions l).leaveCarrying l = s.abandonSessions l :=
    if_neg (by rw [State.state_abandonSessions]; exact hc)
  rw [State.parkLeg, hstay]
  exact habandon.modLeg l _

/-- R28: a leg that LEG_PARK parks out of no CARRYING moves no page, and no slot but the one in flight. -/
theorem State.parkByTask_quiet (hc : (s.leg l).state ≠ .carrying) :
    (∀ q, (s.parkByTask l).page q = s.page q) ∧
      ∀ m, some m ≠ (s.engine l).inFlight → (s.parkByTask l).slot m = s.slot m := by
  by_cases hp : (s.leg l).state = .parked
  · rw [State.parkByTask_of_parked hp]
    exact ⟨fun _ => rfl, fun _ _ => rfl⟩
  · have hout : ((s.modLeg l fun g => { g with intent := false }).leg l).state ≠ .carrying := by
      rw [State.leg_modLeg_self]
      exact hc
    have hpark := State.keepsSignals_parkLeg hout
    have hslot (m : SlotId) : ((s.modLeg l fun g => { g with intent := false }).parkLeg l).slot m = s.slot m := by
      obtain ⟨_, _, _, hu⟩ := hpark.update
      rw [hu]
      rfl
    rw [State.parkByTask_of_out hp]
    refine ⟨fun q => ?_, fun m hm => ?_⟩
    · have hreport (w : State) : (w.reportOutcome l .superseded).page q = w.page q := by
        unfold State.reportOutcome
        split <;> rfl
      rw [hreport, hpark.page]
      exact rfl
    · rw [State.slot_reportOutcome, hpark.engine]
      rw [if_neg fun hf => hm hf.symm, hslot]

/-! ### The entries that LEG_PARK passes -/

/-- R154: an awaited entry completes SUPERSEDED as its leg stands. -/
def State.supersede (s : State) (l : LegId) (e : Entry) : State :=
  s.endAwaited e.slot (s.supersededResult l e) .superseded

theorem State.length_supersededResult (s : State) (l : LegId) (e : Entry) :
    (s.supersededResult l e).length ≤ 0x80 := by
  unfold State.supersededResult
  split
  · rw [Leg.length_bringUpResult]; decide
  · exact Nat.zero_le _

theorem State.legExit_supersede (s : State) (l : LegId) (e : Entry) : s.LegExit l (s.supersede l e) :=
  .endAwaited s l e.slot (s.length_supersededResult l e) .superseded

theorem State.supersedeAwaited_cons (he : e.awaited = true) (es : List Entry) :
    s.supersedeAwaited l (e :: es) = (s.supersede l e).supersedeAwaited l es := by
  have hend : s.endTask e (s.supersededResult l e) .superseded = s.supersede l e := State.endTask_awaited he _ _
  simp [State.supersedeAwaited, he, hend]

theorem State.supersedePosted_awaited (hes : ∀ e ∈ es, e.awaited = true) : s.supersedePosted es = s := by
  have hnone : es.filter (fun e => !e.awaited) = [] :=
    List.filter_eq_nil_iff.mpr fun e he => by simp [hes e he]
  rw [State.supersedePosted, hnone]
  exact rfl

/-- R152: LEG_PARK passes awaited entries: they complete SUPERSEDED, in their order. -/
theorem State.parkPassed_awaited (hp : p.awaited = true) (hes : ∀ e ∈ es, e.awaited = true) : s.parkPassed l p es =
    es.foldl (fun s e => s.supersede l e) ((s.parkByTask l).endAwaited p.slot [(s.leg l).state.code] .ok) := by
  have hpark : s.runLegPark l p = (s.parkByTask l).endAwaited p.slot [(s.leg l).state.code] .ok :=
    State.endTask_awaited hp _ _
  have hfold (v : State) : v.supersedeAwaited l es = es.foldl (fun s e => s.supersede l e) v := by
    induction es generalizing v with
    | nil => rfl
    | cons e es ih =>
      rw [State.supersedeAwaited_cons (hes e List.mem_cons_self), List.foldl_cons,
        ih fun x hx => hes x (List.mem_cons_of_mem e hx)]
  rw [State.parkPassed, State.supersedePosted_awaited hes, hfold, hpark]

/-- R158: the result of a LEG_START superseded in a queue. -/
theorem State.slotByte_supersede (hw : s.mem.wf = true) (hk : e.kind = .legStart) {j : Nat} (hj : j < 5) :
    (s.supersede l e).slotByte e.slot (0x80 + j) = (s.leg l).bringUpResult.getD j 0 := by
  have hresult : s.supersededResult l e = (s.leg l).bringUpResult := if_pos hk
  rw [State.supersede, hresult]
  exact (State.slotByte_endAwaited hw e.slot _ _ (by rwa [Leg.length_bringUpResult])
    (by rw [Leg.length_bringUpResult]; decide)).trans (if_pos rfl)

section
variable (s l es)

theorem State.leg_supersedes (k : LegId) : (es.foldl (fun s e => s.supersede l e) s).leg k = s.leg k :=
  foldl_keeps (fun t : State => t.leg k) _ (fun _ _ => State.leg_endAwaited ..) es s

theorem State.page_supersedes (q : PageId) : (es.foldl (fun s e => s.supersede l e) s).page q = s.page q :=
  foldl_keeps (fun t : State => t.page q) _ (fun _ _ => State.page_endAwaited ..) es s

theorem State.legExit_supersedes : s.LegExit l (es.foldl (fun s e => s.supersede l e) s) :=
  .foldl (fun s e => s.legExit_supersede l e) es s

end

theorem State.slot_supersedes (hm : ∀ e ∈ es, e.slot ≠ m) (s : State) :
    (es.foldl (fun s e => s.supersede l e) s).slot m = s.slot m := by
  induction es generalizing s with
  | nil => rfl
  | cons e es ih =>
    have he : m ≠ e.slot := Ne.symm (hm e List.mem_cons_self)
    rw [List.foldl_cons, ih fun x hx => hm x (List.mem_cons_of_mem e hx), State.supersede, State.slot_endAwaited, if_neg he]

theorem State.Finished.supersedes (hm : ∀ e ∈ es, e.slot ≠ m) (hf : s.Finished m st) :
    (es.foldl (fun s e => s.supersede l e) s).Finished m st := by
  induction es generalizing s with
  | nil => exact hf
  | cons e es ih =>
    exact ih (fun x hx => hm x (List.mem_cons_of_mem e hx)) (hf.endAwaited (Ne.symm (hm e List.mem_cons_self)) _ _)

/-- R158: the leg as LEG_PARK leaves it, in the items that an outcome reports. -/
theorem State.items_parkByTask (s : State) (l : LegId) : ((s.parkByTask l).leg l).state = .parked ∧
    ((s.parkByTask l).leg l).intent = false ∧ ((s.parkByTask l).leg l).bringUpResult =
      [0, (s.leg l).grade.code, BitVec.ofNat 8 (s.leg l).attempts, (s.leg l).cause.code, flagByte (s.leg l).givenUp] := by
  obtain ⟨hintent, hattempts, hgivenUp, -, hgrade, hcause⟩ := Leg.parked_keeps { s.leg l with intent := false }
  rw [State.leg_parkByTask]
  split
  · next hp =>
    refine ⟨hp, rfl, ?_⟩
    rw [Leg.bringUpResult, hp]
    exact rfl
  · refine ⟨rfl, hintent, ?_⟩
    rw [Leg.bringUpResult, hattempts, hgivenUp, hgrade, hcause]
    exact rfl

end Sys2Proof.Machine
end

section
/-! LEG_PARK handed over behind a deferred LEG_RETUNE (the first clause of O54). -/

namespace Sys2Proof.Machine

variable {s t u v : State} {n m : SlotId} {l k : LegId} {e g p : Entry} {es rest : List Entry} {st st' : Status}
  {h : TaskHeader} {args : List Byte} {kind : TaskKind}

/-! ### The task taken -/

/-- R139: what a task taken leaves of the state, but for its slot, the memory, the line and the list. -/
theorem State.takenTask_update (s : State) (n : SlotId) (kind : TaskKind) (h : TaskHeader) (args : List Byte) :
    ∃ slots mem acknowledged offset, s.takenTask n kind h args = { s with
      slots := slots, mem := mem, acknowledged := acknowledged, offset := offset, writeOpen := none, handOver := [] } :=
  ⟨_, _, _, _, rfl⟩

/-- R40: an awaited LEG_RETUNE of another slot, deferred already, whose leg is not CARRYING. -/
structure State.RetuneAhead (s : State) (l : LegId) (e : Entry) (n : SlotId) : Prop where
  deferred : e.deferred = true
  awaited : e.awaited = true
  kind : e.kind = .legRetune
  patience : e.patience.toNat ≤ 3
  sides : (s.slotByte e.slot 0x10).toNat ≤ 2
  slot : e.slot ≠ n
  state : (s.leg l).state ≠ .carrying

/-- R138, R147: the header of a leg task for a used leg, with a patience code of the list. -/
structure State.HeadedFor (s : State) (h : TaskHeader) (l : LegId) : Prop where
  leg : h.leg.toNat = l.val
  used : s.used l = true
  patience : h.patience.toNat ≤ 3

/-- R40: it waits at the head while another slot's task is taken. -/
theorem State.RetuneAhead.headWaits (he : s.RetuneAhead l e n) (hbytes : s.SameBytesOutside u n)
    (hlegs : u.leg l = s.leg l) : (u.setQueue l (e :: es)).HeadWaits l e es := by
  have hkind := he.kind
  refine ⟨by rw [State.engine_setQueue, if_pos rfl], he.deferred, by rw [hkind]; nofun, ?_⟩
  rw [State.runLegTask_retunes he.patience hkind]
  refine State.runLegRetune_waits ?_ ?_
  · have hbyte : ((u.setQueue l (e :: es)).setQueue l es).arg e 0 = s.slotByte e.slot 0x10 := by
      refine (if_pos he.awaited).trans (hbytes _ fun hin => he.slot (Fin.ext ?_))
      simp only [slotBase] at hin
      omega
    rw [hbyte]
    exact he.sides
  · rw [State.leg_setQueue, State.leg_setQueue, hlegs]
    exact he.state

theorem State.setQueue_setQueue (s : State) (l : LegId) (q q' : List Entry) :
    (s.setQueue l q).setQueue l q' = s.setQueue l q' := by
  simp [State.setQueue, State.modEngine]

/-- R152, R154: LEG_PARK taken and executed past the entries ahead of it, its queue empty. -/
def State.parkedPast (s : State) (n : SlotId) (h : TaskHeader) (l : LegId) (ahead : List Entry) : State :=
  ahead.foldl (fun s e => s.supersede l e)
    ((((s.takenTask n .legPark h []).setQueue l []).parkByTask l).endAwaited n [(s.leg l).state.code] .ok)

theorem State.legExit_parkedPast (s : State) (n : SlotId) (h : TaskHeader) (l : LegId) (ahead : List Entry) :
    ((s.takenTask n .legPark h []).setQueue l []).LegExit l (s.parkedPast n h l ahead) :=
  ((legExit_parkByTask _ l).trans (.endAwaited _ l n (by simp) _)).trans (State.legExit_supersedes _ l ahead)

theorem State.queue_parkedPast (s : State) (n : SlotId) (h : TaskHeader) (l : LegId) (ahead : List Entry) :
    ((s.parkedPast n h l ahead).engine l).queue = [] := by
  rw [(s.legExit_parkedPast n h l ahead).toUpdate.queue, State.engine_setQueue, if_pos rfl]

theorem State.handOverTask_parksPast (hs : s.TakesTask n) (hh : h.cls ≠ 1) (hf : s.HeadedFor h l)
    (hq : (s.engine l).queue = e :: rest)
    (hrest : rest = [] ∨ ∃ g, rest = [g] ∧ g.awaited = true ∧ g.kind ≠ .legPark) (he : s.RetuneAhead l e n) :
    s.handOverTask n .legPark h [] = s.parkedPast n h l (e :: rest) := by
  have hlength : (s.engine l).queue.length < 8 := by
    rw [hq]
    obtain rfl | ⟨g, rfl, -⟩ := hrest <;> simp
  have hawaited : ∀ x ∈ e :: rest, x.awaited = true := by
    obtain rfl | ⟨g, rfl, hg, -⟩ := hrest
    · simpa using he.awaited
    · simpa using ⟨he.awaited, hg⟩
  have hhead := he.headWaits (u := s.takenTask n .legPark h []) (es := rest ++ [awaitedEntry n .legPark h])
    (State.takenTask_sameBytesOutside hs.wf (Nat.zero_le _)) rfl
  have hpassed : (((s.takenTask n .legPark h []).setQueue l (e :: (rest ++ [awaitedEntry n .legPark h]))).setQueue l
      []).parkPassed l (awaitedEntry n .legPark h) (e :: rest) = s.parkedPast n h l (e :: rest) := by
    rw [State.parkPassed_awaited rfl hawaited, State.setQueue_setQueue]
    exact rfl
  rw [State.handOverTask_joins hs (Nat.zero_le _) rfl hh hf.leg hf.used hlength, hq, List.cons_append]
  exact (hhead.park rfl rfl hf.patience hrest (by rw [hpassed, State.queue_parkedPast])).trans hpassed

/-- R152, R154, R158: what LEG_PARK leaves when it has passed the entries ahead of it. -/
theorem State.parkedPast_keeps (hc : (s.leg l).state ≠ .carrying) (n : SlotId) (h : TaskHeader) (ahead : List Entry) :
    ((s.parkedPast n h l ahead).leg l).state = .parked ∧ ((s.parkedPast n h l ahead).leg l).intent = false ∧
      s.SameLegsBut [l] (s.parkedPast n h l ahead) ∧ s.SamePins (s.parkedPast n h l ahead) ∧
      s.SamePower (s.parkedPast n h l ahead) ∧ s.SameDevice (s.parkedPast n h l ahead) ∧
      s.SameMap (s.parkedPast n h l ahead) ∧ s.SamePagesBut [] (s.parkedPast n h l ahead) ∧
      s.SameFaults (s.parkedPast n h l ahead) := by
  have hexit := s.legExit_parkedPast n h l ahead
  have hleg : (s.parkedPast n h l ahead).leg l = (((s.takenTask n .legPark h []).setQueue l []).parkByTask l).leg l := by
    rw [State.parkedPast, State.leg_supersedes, State.leg_endAwaited]
  have hpage (q : PageId) : (s.parkedPast n h l ahead).page q = s.page q := by
    rw [State.parkedPast, State.page_supersedes, State.page_endAwaited, (State.parkByTask_quiet ?_).1]
    · exact rfl
    · exact hc
  obtain ⟨hstate, hintent, -⟩ := ((s.takenTask n .legPark h []).setQueue l []).items_parkByTask l
  obtain ⟨hpins, hpower, hdevice, hmap, hfaults, -⟩ := hexit.toUpdate.registers
  exact ⟨hleg ▸ hstate, hleg ▸ hintent, hexit.toUpdate.sameLegsBut, hpins, hpower, hdevice, hmap,
    fun q _ => hpage q, hfaults⟩

/-- R154: which slots LEG_PARK finishes when it has passed the entries ahead of it. -/
theorem State.slots_parkedPast (hc : (s.leg l).state ≠ .carrying) {ahead : List Entry}
    (hn : ∀ x ∈ ahead, x.slot ≠ n) (h : TaskHeader) : (s.parkedPast n h l ahead).Finished n .ok ∧
      ∀ m, m ≠ n → (∀ x ∈ ahead, x.slot ≠ m) → some m ≠ (s.engine l).inFlight →
        (s.parkedPast n h l ahead).slot m = s.slot m := by
  refine ⟨.supersedes hn (State.finished_endAwaited ..), fun m hm hx hf => ?_⟩
  have hflight : (((s.takenTask n .legPark h []).setQueue l []).engine l).inFlight = (s.engine l).inFlight := by
    rw [State.engine_setQueue, if_pos rfl]
    exact rfl
  rw [State.parkedPast, State.slot_supersedes hx, State.slot_endAwaited, if_neg hm,
    (State.parkByTask_quiet (by exact hc)).2 m (by rwa [hflight])]
  exact (State.slot_takenTask s n .legPark h [] m).trans (if_neg hm)

/-- R154, R158: the LEG_START that stood between the head and LEG_PARK. -/
theorem State.parkedPast_start (hw : s.mem.wf = true) (hk : g.kind = .legStart) (n : SlotId) (h : TaskHeader) (e : Entry)
    {j : Nat} (hj : j < 5) : (s.parkedPast n h l [e, g]).slotByte g.slot (0x80 + j) =
      [0, (s.leg l).grade.code, BitVec.ofNat 8 (s.leg l).attempts, (s.leg l).cause.code,
        flagByte (s.leg l).givenUp].getD j 0 := by
  have hwf : (s.parkedPast n h l [e]).mem.wf = true := (s.legExit_parkedPast n h l [e]).wf (State.takenTask_wf hw)
  have hleg : (s.parkedPast n h l [e]).leg l = (((s.takenTask n .legPark h []).setQueue l []).parkByTask l).leg l := by
    rw [State.parkedPast, State.leg_supersedes, State.leg_endAwaited]
  obtain ⟨-, -, hresult⟩ := ((s.takenTask n .legPark h []).setQueue l []).items_parkByTask l
  refine (State.slotByte_supersede (s := s.parkedPast n h l [e]) hwf hk hj).trans ?_
  rw [hleg, hresult]
  exact rfl

theorem State.finished_supersedes_cons (s : State) (hm : ∀ x ∈ es, x.slot ≠ e.slot) :
    ((e :: es).foldl (fun s e => s.supersede l e) s).Finished e.slot .superseded :=
  State.Finished.supersedes (s := s.supersede l e) hm (s.finished_endAwaited e.slot (s.supersededResult l e) .superseded)

/-- The first clause of O54. -/
theorem State.legPark_passes (hs : s.TakesTask n) (hh : h.cls ≠ 1) (hf : s.HeadedFor h l)
    (hq : (s.engine l).queue = e :: rest)
    (hrest : rest = [] ∨ ∃ g, rest = [g] ∧ g.deferred = false ∧ g.awaited = true ∧ g.kind = .legStart ∧
      g.slot ≠ e.slot ∧ g.slot ≠ n) (he : s.RetuneAhead l e n) :
    ∃ t, exec (.legPark n h) s = .next t ∧ (t.engine l).queue = [] ∧
      (t.slot e.slot).state = .done ∧ (t.slot e.slot).status = .superseded ∧ (t.slot n).state = .done ∧
      (t.slot n).status = .ok ∧ t.summary.getLsbD e.slot.val = true ∧ t.summary.getLsbD n.val = true ∧
      (t.leg l).state = .parked ∧ (t.leg l).intent = false ∧ s.SameLegsBut [l] t ∧ s.SamePins t ∧ s.SamePower t ∧
      s.SameDevice t ∧ s.SameMap t ∧ s.SamePagesBut [] t ∧ s.SameFaults t ∧
      (∀ g ∈ rest, (t.slot g.slot).state = .done ∧ (t.slot g.slot).status = .superseded ∧
        t.summary.getLsbD g.slot.val = true ∧ t.slotByte g.slot 0x80 = 0 ∧
        t.slotByte g.slot 0x81 = (s.leg l).grade.code ∧
        t.slotByte g.slot 0x82 = BitVec.ofNat 8 (s.leg l).attempts ∧
        t.slotByte g.slot 0x83 = (s.leg l).cause.code ∧
        t.slotByte g.slot 0x84 = (if (s.leg l).givenUp then 1 else 0)) ∧
      (∀ m, m ≠ n → m ≠ e.slot → m ∉ rest.map (·.slot) → some m ≠ (s.engine l).inFlight →
        t.slot m = s.slot m) := by
  have hrest' : rest = [] ∨ ∃ g, rest = [g] ∧ g.awaited = true ∧ g.kind ≠ .legPark := by
    refine hrest.imp id ?_
    rintro ⟨g, rfl, -, hg, hkind, -⟩
    exact ⟨g, rfl, hg, by rw [hkind]; nofun⟩
  have hexec := State.handOverTask_parksPast hs hh hf hq hrest' he
  have hother : ∀ x ∈ e :: rest, x.slot ≠ n := by
    obtain rfl | ⟨g, rfl, -, -, -, -, hg⟩ := hrest
    · simpa using he.slot
    · simpa using ⟨he.slot, hg⟩
  have hhead : (s.parkedPast n h l (e :: rest)).Finished e.slot .superseded := by
    refine State.finished_supersedes_cons _ ?_
    obtain rfl | ⟨g, rfl, -, -, -, hg, -⟩ := hrest
    · nofun
    · simpa using hg
  obtain ⟨hpark, hslots⟩ := State.slots_parkedPast he.state hother h
  obtain ⟨hstate, hintent, hlegs, hpins, hpower, hdevice, hmap, hpages, hfaults⟩ :=
    State.parkedPast_keeps he.state n h (e :: rest)
  refine ⟨_, congrArg Host.Outcome.next hexec, s.queue_parkedPast n h l _, hhead.state, hhead.status, hpark.state,
    hpark.status, hhead.summary, hpark.summary, hstate, hintent, hlegs, hpins, hpower, hdevice, hmap, hpages, hfaults,
    fun g hg => ?_, fun m hm hhm hr hfl => hslots m hm (fun x hx => ?_) hfl⟩
  · obtain rfl | ⟨g', rfl, -, -, hkind, -⟩ := hrest
    · exact absurd hg List.not_mem_nil
    · obtain rfl := List.mem_singleton.mp hg
      have hlast : (s.parkedPast n h l [e, g]).Finished g.slot .superseded := State.finished_endAwaited ..
      have hbyte (j : Nat) (hj : j < 5) := State.parkedPast_start (l := l) hs.wf hkind n h e hj
      exact ⟨hlast.state, hlast.status, hlast.summary, hbyte 0 (by decide), hbyte 1 (by decide), hbyte 2 (by decide),
        hbyte 3 (by decide), hbyte 4 (by decide)⟩
  · obtain rfl | hx := List.mem_cons.mp hx
    · exact Ne.symm hhm
    · exact fun h => hr (h ▸ List.mem_map_of_mem hx)

end Sys2Proof.Machine
end

section
/-! A posted SET_TAPS handed over behind a deferred LEG_RETUNE (the second clause of O54). -/

namespace Sys2Proof.Machine

variable {s t u v : State} {n m : SlotId} {l k : LegId} {e g p : Entry} {es rest q : List Entry} {st st' : Status}
  {h : TaskHeader} {args : List Byte} {kind : TaskKind} {side lane pre main post : Byte} {i : LaneId} {d : Side}
  {x : LaneSide}

/-- R139: a posted task taken changes the queue of its leg, and lane sides perhaps. -/
structure State.PostedTo (s : State) (n : SlotId) (kind : TaskKind) (h : TaskHeader) (args : List Byte) (l : LegId)
    (q : List Entry) (t : State) : Prop where
  update : ∃ lineSide switchSide, t = { (s.wroteTask n kind h args).setQueue l q with
    lineSide := lineSide, switchSide := switchSide }

theorem State.PostedTo.queue (hp : s.PostedTo n kind h args l q t) : (t.engine l).queue = q := by
  obtain ⟨_, _, rfl⟩ := hp.update
  exact congrArg LegEngine.queue ((State.engine_setQueue (s := s.wroteTask n kind h args) l l q).trans (if_pos rfl))

theorem State.PostedTo.keeps (hp : s.PostedTo n kind h args l q t) (hs : s.TakesTask n) (hl : args.length ≤ 0x10) :
    s.TaskWritten t n kind h args ∧ s.SameSlotsBut [] t ∧ s.SameBytesOutside t n ∧ s.SameLegsBut [] t ∧
      s.SameOutsideLegs t [l] ∧ s.SameMap t ∧ s.SameFaults t ∧ s.SameAttention t ∧
      (t.engine l).inFlight = (s.engine l).inFlight := by
  have hwritten := State.taskWritten_wroteTask (k := kind) (h := h) (args := args) hs
  have houtside := State.wroteTask_sameBytesOutside (k := kind) (h := h) hs hl
  have hengine (m : LegId) := State.engine_setQueue (s := s.wroteTask n kind h args) l m q
  have hflight : (((s.wroteTask n kind h args).setQueue l q).engine l).inFlight = (s.engine l).inFlight := by
    rw [State.engine_setQueue, if_pos rfl]
    exact rfl
  obtain ⟨_, _, rfl⟩ := hp.update
  refine ⟨hwritten, fun _ _ => rfl, houtside, fun _ _ => rfl, ⟨⟨rfl, rfl, rfl⟩, fun _ _ => rfl, rfl, rfl, fun _ _ => rfl,
    fun m hm => (hengine m).trans (if_neg (by simpa using hm))⟩, fun _ => rfl, ⟨rfl, rfl⟩, ⟨rfl, rfl, rfl, rfl, rfl⟩, ?_⟩
  exact hflight

/-- R145: a posted entry holds a copy of the argument bytes. -/
theorem State.args_postedEntry (hs : s.TakesTask n) (hl : args.length = 5) :
    (s.postedEntry n kind h args).args.take 5 = args := by
  obtain ⟨-, -, -, -, -, -, hbytes⟩ := State.taskWritten_wroteTask (k := kind) (h := h) (args := args) hs
  have hbyte (j : Nat) (hj : j < 5) : (s.wroteTask n kind h args).slotByte n (0x10 + j) = args.getD j 0 := by
    rw [hbytes _ (by omega) (by omega), if_pos ⟨by omega, by omega⟩, Nat.add_sub_cancel_left]
  refine List.ext_getElem (by simp [State.postedEntry, hl]) fun j hj hj' => ?_
  rw [List.getElem_take]
  simp [State.postedEntry, hbyte j (hl ▸ hj'), hj']

theorem State.arg_postedEntry (hs : s.TakesTask n) (hl : args.length = 5) {j : Nat} (hj : j < 5) :
    u.arg (s.postedEntry n kind h args) j = args.getD j 0 := by
  obtain ⟨-, -, -, -, -, -, hbytes⟩ := State.taskWritten_wroteTask (k := kind) (h := h) (args := args) hs
  have hbyte : (s.wroteTask n kind h args).slotByte n (0x10 + j) = args.getD j 0 := by
    rw [hbytes _ (by omega) (by omega), if_pos ⟨by omega, by omega⟩, Nat.add_sub_cancel_left]
  have hcopy : u.arg (s.postedEntry n kind h args) j = (s.wroteTask n kind h args).slotByte n (0x10 + j) := by
    have hin : j < 0x10 := by omega
    refine (if_neg (by simp [State.postedEntry])).trans ?_
    simp [State.postedEntry, hin]
  rw [hcopy, hbyte]

theorem State.RetuneAhead.headWaits_posted (he : s.RetuneAhead l e n) (hs : s.TakesTask n) (hl : args.length ≤ 0x10)
    (es : List Entry) : ((s.wroteTask n kind h args).setQueue l (e :: es)).HeadWaits l e es :=
  he.headWaits (State.wroteTask_sameBytesOutside hs hl) rfl

theorem State.kind_postedEntry : (s.postedEntry n kind h args).kind = kind := rfl

/-- The state in which a posted SET_TAPS has been written, its queue changed. -/
def State.postedTaps (s : State) (n : SlotId) (h : TaskHeader) (args : List Byte) (l : LegId) (q : List Entry) : State :=
  (s.wroteTask n .setTaps h args).setQueue l q

section
variable (hs : s.TakesTask n) (hh : h.cls = 1) (hf : s.HeadedFor h l) (hq : (s.engine l).queue = [e])
  (hl : args.length = 5)
include hs hh hf hq hl

theorem State.setTaps_joins : s.handOverTask n .setTaps h args =
    (s.postedTaps n h args l [e, s.postedEntry n .setTaps h args]).examineLeg l := by
  rw [State.handOverTask_posts hs (by omega) rfl rfl hh hf.leg hf.used (by rw [hq]; simp), hq]
  exact rfl

variable (he : s.RetuneAhead l e n)
include he

/-- R150: with passing off a posted SET_TAPS stands behind the head unchecked. -/
theorem State.setTaps_stands (hoff : (s.leg l).setup.passing = false) :
    s.handOverTask n .setTaps h args = s.postedTaps n h args l [e, s.postedEntry n .setTaps h args] := by
  have hkind : (s.postedEntry n .setTaps h args).kind ≠ .legPark := by rw [State.kind_postedEntry]; nofun
  rw [State.setTaps_joins hs hh hf hq hl]
  exact (he.headWaits_posted hs (by omega) _).stands hkind hoff

/-- R150, R89: with passing on it is deferred where the leg's state makes it wait. -/
theorem State.setTaps_defers (hon : (s.leg l).setup.passing = true)
    (hrun : (s.postedTaps n h args l [e]).runLegTask l (s.postedEntry n .setTaps h args) = none) :
    s.handOverTask n .setTaps h args = s.postedTaps n h args l [e, (s.postedEntry n .setTaps h args).deferEntry] := by
  have hkind : (s.postedEntry n .setTaps h args).kind ≠ .legPark := by rw [State.kind_postedEntry]; nofun
  rw [State.setTaps_joins hs hh hf hq hl]
  refine ((he.headWaits_posted hs (by omega) _).defers hkind he.awaited rfl hon ?_).trans ?_
  · rw [State.setQueue_setQueue]
    exact hrun
  · rw [State.setQueue_setQueue]
    exact rfl

/-- R150: with passing on it is executed past the head. -/
theorem State.setTaps_runs (hon : (s.leg l).setup.passing = true)
    (hrun : (s.postedTaps n h args l [e]).runLegTask l (s.postedEntry n .setTaps h args) = some t)
    (ht : (t.engine l).queue = [e]) : s.handOverTask n .setTaps h args = t := by
  have hkind : (s.postedEntry n .setTaps h args).kind ≠ .legPark := by rw [State.kind_postedEntry]; nofun
  rw [State.setTaps_joins hs hh hf hq hl]
  refine (he.headWaits_posted hs (by omega) _).runs hkind he.awaited rfl hon ?_ ht
  rw [State.setQueue_setQueue]
  exact hrun

end

theorem State.postedTo_postedTaps (s : State) (n : SlotId) (h : TaskHeader) (args : List Byte) (l : LegId)
    (q : List Entry) : s.PostedTo n .setTaps h args l q (s.postedTaps n h args l q) := ⟨⟨_, _, rfl⟩⟩

theorem State.leg_postedTaps (s : State) (n : SlotId) (h : TaskHeader) (args : List Byte) (l : LegId) (q : List Entry)
    (k : LegId) : (s.postedTaps n h args l q).leg k = s.leg k := rfl

theorem State.lane_postedTaps (s : State) (n : SlotId) (h : TaskHeader) (args : List Byte) (l : LegId) (q : List Entry)
    (y : LaneSide) : (s.postedTaps n h args l q).lane y = s.lane y := rfl

theorem State.straps_postedTaps (s : State) (n : SlotId) (h : TaskHeader) (args : List Byte) (l : LegId) (q : List Entry) :
    (s.postedTaps n h args l q).straps = s.straps := rfl

/-- What the second clause of O54 says of the lane sides and of the queue. -/
def State.TapsPassed (s t : State) (l : LegId) (e : Entry) (n : SlotId) (h : TaskHeader) (x : LaneSide)
    (side lane pre main post : Byte) : Prop :=
  ((s.leg l).setup.passing = true → (s.leg l).state = .parked →
    (t.engine l).queue = [e] ∧ s.SameLanesBut [x] t ∧
    t.lane x = { s.lane x with
      taps := saturate (s.leg l).setup.rate ⟨pre.toInt, main.toInt, post.toInt⟩ }) ∧
  ((s.leg l).setup.passing = false ∨ (s.leg l).state ≠ .parked →
    s.SameLanesBut [] t ∧ ∃ q, (t.engine l).queue = [e, q] ∧ q.kind = .setTaps ∧ q.awaited = false ∧
      q.slot = n ∧ q.label0 = h.label0 ∧ q.label1 = h.label1 ∧
      q.args.take 5 = [side, lane, pre, main, post] ∧ q.deferred = (s.leg l).setup.passing ∧
      q.clock = (if (s.leg l).setup.passing then patienceClock h.patience else none))

/-- R89: SET_TAPS of a posted entry, whatever its leg's queue. -/
theorem State.runLegTask_postedTaps (hs : s.TakesTask n) (hf : s.HeadedFor h l) (hi : i ∈ s.members l)
    (hlane : i.val = lane.toNat) (hd : decodeSide side = some d) (hleg : u.leg l = s.leg l)
    (hstraps : u.straps = s.straps) (hc : (s.leg l).state ≠ .carrying) :
    u.runLegTask l (s.postedEntry n .setTaps h [side, lane, pre, main, post]) =
      if (s.leg l).state = .parked then some (u.modLane (u.sideOf i d)
        fun v => { v with taps := saturate (s.leg l).setup.rate ⟨pre.toInt, main.toInt, post.toInt⟩ }) else none := by
  have harg (j : Nat) (hj : j < 5) : u.arg (s.postedEntry n .setTaps h [side, lane, pre, main, post]) j =
      [side, lane, pre, main, post].getD j 0 := State.arg_postedEntry hs rfl hj
  have hawaited : (s.postedEntry n .setTaps h [side, lane, pre, main, post]).awaited = false := rfl
  rw [State.runLegTask_setTaps hf.patience rfl]
  generalize s.postedEntry n .setTaps h [side, lane, pre, main, post] = p at harg hawaited ⊢
  have hd' : decodeSide (u.arg p 0) = some d := by rw [harg 0 (by decide)]; exact hd
  have hi' : u.memberArg l (u.arg p 1) = some i := by
    rw [harg 1 (by decide)]
    exact State.memberArg_eq_some.mpr ⟨State.mem_members.mpr (hstraps ▸ State.mem_members.mp hi), hlane⟩
  split
  · next hparked =>
    have hwanted : (⟨(u.arg p 2).toInt, (u.arg p 3).toInt, (u.arg p 4).toInt⟩ : Taps) =
        ⟨pre.toInt, main.toInt, post.toInt⟩ := by
      rw [harg 2 (by decide), harg 3 (by decide), harg 4 (by decide)]
      exact rfl
    rw [State.runSetTaps_loads hd' hi' (.inl (hleg ▸ hparked)) hwanted, hleg, State.endTask, hawaited]
    exact rfl
  · next hparked => exact State.runSetTaps_waits hd' hi' (hleg ▸ hparked) (hleg ▸ hc)

/-- R150, R89: a posted SET_TAPS behind the head, and what it leaves of its lane side and of the queue. -/
theorem State.setTaps_passes (hs : s.TakesTask n) (hh : h.cls = 1) (hf : s.HeadedFor h l)
    (hq : (s.engine l).queue = [e]) (he : s.RetuneAhead l e n) (hi : i ∈ s.members l) (hlane : i.val = lane.toNat)
    (hx : (side = 0 ∧ x = ⟨.line, i⟩) ∨ (side = 1 ∧ x = ⟨.switch, (s.entry i).source⟩)) :
    ∃ t q, s.handOverTask n .setTaps h [side, lane, pre, main, post] = t ∧
      s.PostedTo n .setTaps h [side, lane, pre, main, post] l q t ∧ s.TapsPassed t l e n h x side lane pre main post := by
  have hcopy := State.args_postedEntry (n := n) (kind := .setTaps) (h := h) (args := [side, lane, pre, main, post]) hs rfl
  by_cases hon : (s.leg l).setup.passing = true
  case neg =>
    have hoff := Bool.eq_false_iff.mpr hon
    have hposted := s.postedTo_postedTaps n h [side, lane, pre, main, post] l
      [e, s.postedEntry n .setTaps h [side, lane, pre, main, post]]
    exact ⟨_, _, State.setTaps_stands hs hh hf hq rfl he hoff, hposted, fun h => absurd h hon, fun _ => ⟨fun _ _ => s.lane_postedTaps ..,
      _, hposted.queue, rfl, rfl, rfl, rfl, rfl, hcopy, hoff.symm, (if_neg hon).symm⟩⟩
  case pos =>
    obtain ⟨d, hd, hside⟩ := State.sideOf_of_code hx
    have hrun := State.runLegTask_postedTaps (n := n) (h := h) (u := s.postedTaps n h [side, lane, pre, main, post] l [e])
      (pre := pre) (main := main) (post := post) hs hf hi hlane hd
      (s.leg_postedTaps ..) (s.straps_postedTaps ..) he.state
    by_cases hparked : (s.leg l).state = .parked
    case neg =>
      rw [if_neg hparked] at hrun
      have hposted := s.postedTo_postedTaps n h [side, lane, pre, main, post] l
        [e, (s.postedEntry n .setTaps h [side, lane, pre, main, post]).deferEntry]
      exact ⟨_, _, State.setTaps_defers hs hh hf hq rfl he hon hrun, hposted, fun _ h => absurd h hparked,
        fun _ => ⟨fun y _ => s.lane_postedTaps .., _, hposted.queue, rfl, rfl, rfl, rfl, rfl, hcopy, hon.symm,
          (patienceTime_eq h.patience).trans (if_pos hon).symm⟩⟩
    case pos =>
      have hside' : (s.postedTaps n h [side, lane, pre, main, post] l [e]).sideOf i d = x := hside
      rw [if_pos hparked, hside'] at hrun
      have hposted : s.PostedTo n .setTaps h [side, lane, pre, main, post] l [e]
          ((s.postedTaps n h [side, lane, pre, main, post] l [e]).modLane x fun v => { v with
            taps := saturate (s.leg l).setup.rate ⟨pre.toInt, main.toInt, post.toInt⟩ }) := ⟨⟨_, _, rfl⟩⟩
      refine ⟨_, _, State.setTaps_runs hs hh hf hq rfl he hon hrun hposted.queue, hposted,
        fun _ _ => ⟨hposted.queue, fun y hy => ?_, ?_⟩, fun h => absurd h (by simp [hon, hparked])⟩
      · rw [State.lane_modLane, if_neg (by simpa using hy), State.lane_postedTaps]
      · rw [State.lane_modLane_self, State.lane_postedTaps]

end Sys2Proof.Machine
end

section
/-! LOWPWR_ASSERT with a deferred head in one queue (the third clause of O54), and O54. -/

namespace Sys2Proof.Machine

variable {s t u v w : State} {n m : SlotId} {l k : LegId} {e g p : Entry} {es rest q : List Entry} {st st' : Status}
  {h : TaskHeader}

/-! ### One leg among all -/

/-- A walk over a list in which one place alone acts does what that place does. -/
theorem foldl_only {σ ι : Type} {f : σ → ι → σ} {i : ι} (P : σ → Prop) (hother : ∀ s j, j ≠ i → P s → f s j = s)
    (hkeep : ∀ s, P s → P (f s i)) {is : List ι} (hi : i ∈ is) (hn : is.Nodup) (s : σ) (hs : P s) :
    is.foldl f s = f s i := by
  have hskip (is : List ι) (hi : i ∉ is) (s : σ) (hs : P s) : is.foldl f s = s := by
    induction is with
    | nil => rfl
    | cons j is ih =>
      rw [List.foldl_cons, hother s j (fun h => hi (h ▸ List.mem_cons_self)) hs]
      exact ih fun h => hi (List.mem_cons_of_mem j h)
  induction is with
  | nil => exact absurd hi List.not_mem_nil
  | cons j is ih =>
    obtain ⟨hj, his⟩ := List.nodup_cons.mp hn
    rw [List.foldl_cons]
    by_cases h : j = i
    · subst h
      exact hskip is hj _ (hkeep s hs)
    · rw [hother s j h hs]
      exact ih ((List.mem_cons.mp hi).resolve_left (Ne.symm h)) his

theorem flatMap_only {ι α : Type} {f : ι → List α} {i : ι} (hother : ∀ j, j ≠ i → f j = []) {is : List ι} (hi : i ∈ is)
    (hn : is.Nodup) : is.flatMap f = f i := by
  have hskip (is : List ι) (hi : i ∉ is) : is.flatMap f = [] :=
    List.flatMap_eq_nil_iff.mpr fun j hj => hother j fun h => hi (h ▸ hj)
  induction is with
  | nil => exact absurd hi List.not_mem_nil
  | cons j is ih =>
    obtain ⟨hj, his⟩ := List.nodup_cons.mp hn
    rw [List.flatMap_cons]
    by_cases h : j = i
    · subst h
      rw [hskip is hj, List.append_nil]
    · rw [hother j h, List.nil_append]
      exact ih ((List.mem_cons.mp hi).resolve_left (Ne.symm h)) his

theorem filter_only {ι : Type} [DecidableEq ι] {f : ι → Bool} {i : ι} (hother : ∀ j, j ≠ i → f j = false)
    (hf : f i = true) {is : List ι} (hi : i ∈ is) (hn : is.Nodup) : is.filter f = [i] := by
  have heq : f = fun j => decide (j = i) := funext fun j => by
    by_cases h : j = i
    · rw [h, hf, decide_eq_true rfl]
    · rw [hother j h, decide_eq_false h]
  rw [heq, List.filter_eq, List.count_eq_one_of_mem hn hi]
  exact rfl

/-! ### The part with the power gone -/

/-- The power is LOW, leg l PARKED with this queue, every other queue empty, and no slot waiting. -/
structure State.Downed (s t : State) (l : LegId) (q : List Entry) : Prop where
  queue : (t.engine l).queue = q
  others (k : LegId) : k ≠ l → (t.engine k).queue = []
  list : t.handOver = []
  parked : (t.leg l).state = .parked
  low : t.effective = .low
  map : s.SameMap t
  straps : t.straps = s.straps

namespace State.Downed

theorem of_same (h : s.Downed t l q) (hengines : ∀ k, u.engine k = t.engine k) (hlist : u.handOver = t.handOver)
    (hleg : u.leg l = t.leg l) (hlow : u.effective = t.effective) (hmap : t.SameMap u) (hstraps : u.straps = t.straps) :
    s.Downed u l q :=
  ⟨by rw [hengines, h.queue], fun k hk => by rw [hengines, h.others k hk], hlist.trans h.list, by rw [hleg, h.parked],
    hlow.trans h.low, fun i => (hmap i).trans (h.map i), hstraps.trans h.straps⟩

theorem setQueue (h : s.Downed t l q) (q' : List Entry) : s.Downed (t.setQueue l q') l q' := by
  have hengine (k : LegId) := State.engine_setQueue (s := t) l k q'
  refine ⟨by rw [hengine, if_pos rfl], fun k hk => by rw [hengine, if_neg hk, h.others k hk], h.list, h.parked, h.low,
    h.map, h.straps⟩

theorem endAwaited (h : s.Downed t l q) (n : SlotId) (result : List Byte) (st : Status) :
    s.Downed (t.endAwaited n result st) l q :=
  h.of_same (fun _ => rfl) rfl rfl rfl (fun _ => rfl) rfl

theorem reportFault (h : s.Downed t l q) (r : FaultRecord) : s.Downed (t.reportFault r) l q := by
  obtain ⟨_, _, _, _, hu⟩ := t.reportFault_eq_update r
  rw [hu]
  exact h.of_same (fun _ => rfl) rfl rfl rfl (fun _ => rfl) rfl

theorem freeCount (h : s.Downed t l q) (c : Nat) : s.Downed { t with freeCount := c } l q :=
  h.of_same (fun _ => rfl) rfl rfl rfl (fun _ => rfl) rfl

theorem finishPowerWait (h : s.Downed t l q) (st : Status) : s.Downed (t.finishPowerWait st) l q := by
  obtain ⟨⟨-, -, hstraps⟩, ⟨-, hlow, -⟩, -, hmap, -, hlegs, -, -, -, -, hengines, -, hlist, -⟩ :=
    t.finishPowerWait_keeps st
  exact h.of_same hengines hlist (hlegs l List.not_mem_nil) hlow hmap hstraps

theorem raise (h : s.Downed t l q) (bits : BitVec 32) : s.Downed (t.raise bits) l q :=
  h.of_same (fun _ => rfl) rfl rfl rfl (fun _ => rfl) rfl

end State.Downed

/-- R174: the power gone and every leg PARKED. -/
theorem State.downed_allParked (hlist : s.handOver = []) (hothers : ∀ k, k ≠ l → (s.engine k).queue = [])
    (hq : (s.engine l).queue = q) : s.Downed s.unpowered.allParked l q := by
  have hparked := s.unpowered.legsExit_allParked
  have hleg := s.unpowered.leg_allParked l
  obtain ⟨hlist', -, -, -, hengines⟩ := s.unpowered_tasks
  have hlow : s.unpowered.effective = .low := rfl
  have hmap : s.SameMap s.unpowered := fun _ => rfl
  have hstraps : s.unpowered.straps = s.straps := rfl
  generalize s.unpowered = v at *
  generalize v.allParked = u at *
  obtain ⟨⟨-, -, hstraps'⟩, ⟨-, hlow', -⟩, -, hmap', -, -, -, -, -, hlist'', -⟩ := hparked.registers
  refine ⟨?_, fun k hk => ?_, hlist''.trans (hlist'.trans hlist), ?_, hlow'.trans hlow, fun i => (hmap' i).trans (hmap i),
    hstraps'.trans hstraps⟩
  · rw [hparked.queues, hengines, hq]
  · rw [hparked.queues, hengines, hothers k hk]
  · rw [hleg]
    obtain ⟨hstate, -⟩ := (v.leg l).parkedByPower_keeps
    exact hstate

/-! ### The deferred head superseded (R154) -/

theorem mem_allLegs_nodup (l : LegId) : l ∈ allLegs ∧ allLegs.Nodup := ⟨mem_allLegs l, by decide⟩

/-- R154: the one deferred entry completes SUPERSEDED, an awaited one in its slot, a posted one as a fault. -/
def State.superseded (s : State) (l : LegId) (rest : List Entry) (e : Entry) : State :=
  if e.awaited then (s.setQueue l rest).supersede l e
  else
    let t := (s.setQueue l rest).reportFault (e.fault .superseded)
    { t with freeCount := t.freeCount + 1 }

theorem State.supersedeDeferred_one (hd : s.Downed t l (e :: rest)) (he : e.deferred = true)
    (hrest : ∀ g ∈ rest, g.deferred = false) : t.supersedeDeferred = t.superseded l rest e := by
  have hgone (k : LegId) : (t.engine k).queue.filter (fun e => e.deferred) = if k = l then [e] else [] := by
    have hnone : rest.filter (fun e => e.deferred) = [] :=
      List.filter_eq_nil_iff.mpr fun g hg => by simp [hrest g hg]
    split
    · next hk => rw [hk, hd.queue, List.filter_cons_of_pos he, hnone]
    · next hk => rw [hd.others k hk, List.filter_nil]
  have hkept (k : LegId) : (t.engine k).queue.filter (fun e => !e.deferred) = if k = l then rest else [] := by
    have hall : rest.filter (fun e => !e.deferred) = rest :=
      List.filter_eq_self.mpr fun g hg => by simp [hrest g hg]
    split
    · next hk => rw [hk, hd.queue, List.filter_cons_of_neg (by simp [he]), hall]
    · next hk => rw [hd.others k hk, List.filter_nil]
  obtain ⟨hl, hnodup⟩ := mem_allLegs_nodup l
  have hflat : (allLegs.flatMap fun k => if k = l then [e] else []) = [e] :=
    (flatMap_only (fun k hk => if_neg hk) hl hnodup).trans (if_pos rfl)
  have hfold : allLegs.foldl (fun v k => (v.setQueue k (if k = l then rest else [])).supersedeAwaited k
      (if k = l then [e] else [])) t = (t.setQueue l rest).supersedeAwaited l [e] := by
    refine (foldl_only (i := l) (fun v : State => ∀ k, k ≠ l → (v.engine k).queue = []) (fun v k hk hv => ?_)
      (fun v hv k hk => ?_) hl hnodup t hd.others).trans ?_
    · rw [if_neg hk, if_neg hk]
      exact State.setQueue_same (hv k hk)
    · rw [if_pos rfl, if_pos rfl]
      have hsuper (w : State) : (w.supersedeAwaited l [e]).engine k = w.engine k := by
        cases ha : e.awaited with
        | true =>
          rw [State.supersedeAwaited_cons ha]
          exact rfl
        | false => simp [State.supersedeAwaited, ha]
      rw [hsuper, State.engine_setQueue, if_neg hk]
      exact hv k hk
    · rw [if_pos rfl, if_pos rfl]
  simp only [State.supersedeDeferred, hgone, hkept, hfold, hflat]
  unfold State.superseded
  split
  · next ha =>
    rw [State.supersedeAwaited_cons ha, State.supersedePosted_awaited (by simpa using ha)]
    exact rfl
  · next ha =>
    have hposted : e.awaited = false := Bool.eq_false_iff.mpr ha
    have hnone : (t.setQueue l rest).supersedeAwaited l [e] = t.setQueue l rest := by
      simp [State.supersedeAwaited, hposted]
    have hend : (t.setQueue l rest).endTask e [] .superseded = (t.setQueue l rest).reportFault (e.fault .superseded) :=
      State.endTask_posted hposted rfl
    have hfilter : [e].filter (fun e => !e.awaited) = [e] := by simp [hposted]
    rw [hnone, State.supersedePosted, hfilter, ← hend]
    exact rfl

theorem State.downed_superseded (hd : s.Downed t l (e :: rest)) : s.Downed (t.superseded l rest e) l rest := by
  unfold State.superseded
  split
  · exact (hd.setQueue rest).endAwaited _ _ _
  · exact ((hd.setQueue rest).reportFault _).freeCount _

/-! ### What stands of the queues is examined (R154) -/

/-- R174: the power wait list finished and the notice of the power raised. -/
def State.noticed (s : State) : State := (s.finishPowerWait .heldLow).raise powerBit

theorem State.examineLegs_one (hd : s.Downed t l [g]) :
    t.examineLegs = State.examineLeg { t with freeCount := t.freeCount + 1 } l := by
  obtain ⟨hl, hnodup⟩ := mem_allLegs_nodup l
  have hbusy : allLegs.filter (fun k => !(t.engine k).queue.isEmpty) = [l] :=
    filter_only (fun k hk => by rw [hd.others k hk]; rfl) (by rw [hd.queue]; rfl) hl hnodup
  rw [State.examineLegs, hbusy]
  exact rfl

/-- R158, R174: an awaited LEG_START that stood unchecked is then executed: HELD_LOW. -/
theorem State.examineLegs_heldLow (hd : s.Downed t l [g]) (ha : g.awaited = true) (hk : g.kind = .legStart)
    (hp : g.patience.toNat ≤ 3) (hcarry : ∀ i ∈ s.members l, (s.entry i).function = .carry) :
    ∃ result, t.examineLegs = State.endAwaited
      ((({ t with freeCount := t.freeCount + 1 } : State).setQueue l []).modLeg l Leg.tookIntent) g.slot result .heldLow := by
  have hd' := hd.freeCount (t.freeCount + 1)
  have hd'' := hd'.setQueue []
  rw [State.examineLegs_one hd]
  generalize ({ t with freeCount := t.freeCount + 1 } : State) = v at *
  have hall : (v.setQueue l []).allCarry l = true := by
    refine State.allCarry_iff.mpr fun i hi => ?_
    rw [hd''.map i]
    refine hcarry i (State.mem_members.mpr ?_)
    rw [← hd''.straps]
    exact State.mem_members.mp hi
  have hrun : (v.setQueue l []).runLegTask l g = some (((v.setQueue l []).modLeg l Leg.tookIntent).endAwaited g.slot
      ((v.setQueue l []).leg l).tookIntent.bringUpResult .heldLow) := by
    rw [State.runLegTask_legStart hp hk, State.runLegStart_heldLow hd''.parked hall (by rw [hd''.low]; nofun),
      State.endTask_awaited ha]
  exact ⟨_, State.examineLeg_ends hd'.queue hrun (by rw [State.engine_endAwaited, State.engine_modLeg, hd''.queue])⟩

/-! ### O54 -/

theorem State.powerLow_superseded (hlist : s.handOver = []) (hothers : ∀ k, k ≠ l → (s.engine k).queue = [])
    (hq : (s.engine l).queue = e :: rest) (he : e.deferred = true) (hrest : ∀ g ∈ rest, g.deferred = false) :
    s.powerLow .heldLow = (s.unpowered.allParked.superseded l rest e).noticed.examineLegs ∧
      s.Downed (s.unpowered.allParked.superseded l rest e).noticed l rest := by
  have hd := State.downed_allParked hlist hothers hq
  have hsuper := State.supersedeDeferred_one hd he hrest
  refine ⟨?_, ((State.downed_superseded hd).finishPowerWait _).raise _⟩
  rw [← hsuper]
  exact rfl

end Sys2Proof.Machine
end

section
/-! What passes, and what supersedes, behind a deferred head (O54). -/

namespace Sys2Proof.Machine

variable {s t u v w : State} {n m : SlotId} {l k : LegId} {e g p : Entry} {es rest q : List Entry} {st st' : Status}
  {h : TaskHeader} {r : FaultRecord}

/-! ### What finished stays finished -/

theorem State.Finished.of_same (hf : s.Finished m st) (hslot : t.slot m = s.slot m) (hsummary : t.summary = s.summary) :
    t.Finished m st :=
  ⟨by rw [hslot, hf.state], by rw [hslot, hf.status], by rw [hsummary, hf.summary]⟩

theorem State.Finished.noticed (hf : s.Finished m st) (hm : m ∉ s.powerWait) : s.noticed.Finished m st := by
  have hslot : s.noticed.slot m = s.slot m := (State.slot_finishPowerWait s .heldLow m).trans (if_neg hm)
  refine ⟨by rw [hslot, hf.state], by rw [hslot, hf.status], ?_⟩
  have hsummary := State.summary_finishPowerWait s .heldLow hf.summary
  rw [State.noticed, State.raise_summary, BitVec.getLsbD_or, hsummary, Bool.true_or]

/-- R168: a fault stands as the first of the log, and bit 24 tells of it. -/
structure State.Reported (s : State) (r : FaultRecord) : Prop where
  record : s.faultRecord = some r
  summary : s.summary.getLsbD 24 = true

theorem State.reported_reportFault (h : s.faultRecord = none) (r : FaultRecord) : (s.reportFault r).Reported r := by
  obtain ⟨hrecord, -, hsummary⟩ := (s.faultReported_reportFault r).1 h
  refine ⟨hrecord, ?_⟩
  rw [hsummary, BitVec.getLsbD_or]
  exact (congrArg _ (by decide)).trans (Bool.or_true _)

theorem State.Reported.of_same (hr : s.Reported r) (hrecord : t.faultRecord = s.faultRecord)
    (hsummary : t.summary = s.summary) : t.Reported r :=
  ⟨hrecord.trans hr.record, by rw [hsummary, hr.summary]⟩

theorem State.Reported.noticed (hr : s.Reported r) : s.noticed.Reported r := by
  obtain ⟨-, -, -, -, -, -, -, ⟨hrecord, -⟩, -⟩ := s.finishPowerWait_keeps .heldLow
  refine ⟨hrecord.trans hr.record, ?_⟩
  have hsummary := State.summary_finishPowerWait s .heldLow hr.summary
  rw [State.noticed, State.raise_summary, BitVec.getLsbD_or, hsummary, Bool.true_or]

theorem State.Reported.endAwaited (hr : s.Reported r) (n : SlotId) (result : List Byte) (st : Status) :
    (s.endAwaited n result st).Reported r :=
  ⟨hr.record, by rw [State.endAwaited_summary, BitVec.getLsbD_or, hr.summary, Bool.true_or]⟩

/-! ### The deferred head -/

/-- R154: how the deferred head ended. -/
structure State.HeadEnded (e : Entry) (record : Option FaultRecord) (t : State) : Prop where
  awaited : e.awaited = true → t.Finished e.slot .superseded
  posted : e.awaited = false → record = none → t.Reported (e.fault .superseded)

theorem State.HeadEnded.of_same {record : Option FaultRecord} (h : s.HeadEnded e record) (hslot : t.slot e.slot = s.slot e.slot)
    (hrecord : t.faultRecord = s.faultRecord) (hsummary : t.summary = s.summary) : t.HeadEnded e record :=
  ⟨fun ha => (h.awaited ha).of_same hslot hsummary, fun ha hn => (h.posted ha hn).of_same hrecord hsummary⟩

theorem State.HeadEnded.endAwaited {record : Option FaultRecord} (h : s.HeadEnded e record) (hn : e.slot ≠ n)
    (result : List Byte) (st : Status) : (s.endAwaited n result st).HeadEnded e record :=
  ⟨fun ha => (h.awaited ha).endAwaited hn _ _, fun ha hr => (h.posted ha hr).endAwaited _ _ _⟩

theorem State.headEnded_superseded (s : State) (l : LegId) (rest : List Entry) (e : Entry) :
    (s.superseded l rest e).HeadEnded e s.faultRecord ∧ (s.superseded l rest e).powerWait = s.powerWait := by
  unfold State.superseded
  split
  · next ha =>
    exact ⟨⟨fun _ => State.finished_endAwaited .., fun hp => absurd (ha.symm.trans hp) nofun⟩, rfl⟩
  · next ha =>
    refine ⟨⟨fun h => absurd h ha, fun _ hn => ?_⟩, ?_⟩
    · exact (State.reported_reportFault (s := s.setQueue l rest) hn _).of_same rfl rfl
    · obtain ⟨_, _, _, _, hu⟩ := (s.setQueue l rest).reportFault_eq_update (e.fault .superseded)
      rw [hu]
      exact rfl

/-- R154, R174: the head as the fall of the power leaves it, before the queue is examined. -/
theorem State.headEnded_fall (hm : e.slot ∉ s.powerWait) :
    (s.unpowered.allParked.superseded l rest e).noticed.HeadEnded e s.faultRecord := by
  have hparked := s.unpowered.legsExit_allParked
  obtain ⟨-, -, -, hwait, -⟩ := s.unpowered_tasks
  have hrecord : s.unpowered.faultRecord = s.faultRecord := rfl
  generalize s.unpowered = v at *
  obtain ⟨-, -, -, -, ⟨hrecord', -⟩, -, -, -, hwait', -⟩ := hparked.registers
  generalize v.allParked = u at *
  obtain ⟨hended, hkept⟩ := u.headEnded_superseded l rest e
  rw [hrecord', hrecord] at hended
  have hm' : e.slot ∉ (u.superseded l rest e).powerWait := by rwa [hkept, hwait', hwait]
  exact ⟨fun ha => (hended.awaited ha).noticed hm', fun ha hn => (hended.posted ha hn).noticed⟩

theorem State.Downed.modLeg {f : Leg → Leg} (h : s.Downed t l q) (hf : (f (t.leg l)).state = .parked) :
    s.Downed (t.modLeg l f) l q :=
  ⟨h.queue, h.others, h.list, by rw [State.leg_modLeg_self, hf], h.low, h.map, h.straps⟩

/-- R158, R174: what the LEG_START that stood behind the head leaves. -/
theorem State.HeadEnded.examineLegs {record : Option FaultRecord} (hended : t.HeadEnded e record)
    (hd : s.Downed t l [g]) (ha : g.awaited = true) (hk : g.kind = .legStart) (hp : g.patience.toNat ≤ 3)
    (hcarry : ∀ i ∈ s.members l, (s.entry i).function = .carry) (hne : g.slot ≠ e.slot) :
    s.Downed t.examineLegs l [] ∧ t.examineLegs.HeadEnded e record ∧ t.examineLegs.Finished g.slot .heldLow ∧
      (t.examineLegs.leg l).intent = true ∧ (t.examineLegs.leg l).attempts = 0 := by
  obtain ⟨result, hrun⟩ := State.examineLegs_heldLow hd ha hk hp hcarry
  have hd' := (hd.freeCount (t.freeCount + 1)).setQueue []
  have hended' : (State.setQueue { t with freeCount := t.freeCount + 1 } l []).HeadEnded e record :=
    hended.of_same rfl rfl rfl
  rw [hrun]
  generalize State.setQueue { t with freeCount := t.freeCount + 1 } l [] = v at *
  have hlegEnded : (v.modLeg l Leg.tookIntent).HeadEnded e record := hended'.of_same rfl rfl rfl
  have hleg : ((v.modLeg l Leg.tookIntent).endAwaited g.slot result .heldLow).leg l = (v.leg l).tookIntent := by
    rw [State.leg_endAwaited, State.leg_modLeg_self]
  refine ⟨(hd'.modLeg hd'.parked).endAwaited _ _ _, hlegEnded.endAwaited (Ne.symm hne) _ _,
    State.finished_endAwaited .., ?_, ?_⟩
  · rw [hleg]; rfl
  · rw [hleg]; rfl

/-- The third clause of O54. -/
theorem State.lowpwr_supersedes (hr : s.resetHeld = false) (hl : s.lowpwr = false) (he : s.effective ≠ .low)
    (hlist : s.handOver = []) (hothers : ∀ k, k ≠ l → (s.engine k).queue = []) (hq : (s.engine l).queue = e :: rest)
    (hd : e.deferred = true) (hm : e.slot ∉ s.powerWait)
    (hrest : rest = [] ∨ (∃ g, rest = [g] ∧ g.deferred = false ∧ g.awaited = true ∧ g.kind = .legStart ∧
      g.patience.toNat ≤ 3 ∧ g.slot ≠ e.slot ∧ ∀ i ∈ s.members l, (s.entry i).function = .carry)) :
    ∃ t, exec .lowpwrAssert s = .next t ∧ (t.engine l).queue = [] ∧ (t.leg l).state = .parked ∧
      t.HeadEnded e s.faultRecord ∧
      ∀ g ∈ rest, t.Finished g.slot .heldLow ∧ (t.leg l).intent = true ∧ (t.leg l).attempts = 0 := by
  have hunchecked : ∀ g ∈ rest, g.deferred = false := by
    obtain rfl | ⟨g, rfl, hg, -⟩ := hrest
    · nofun
    · simpa using hg
  obtain ⟨hlow, hdowned⟩ := State.powerLow_superseded (s := s.heldLow) hlist hothers hq hd hunchecked
  have hended : _ := State.headEnded_fall (s := s.heldLow) (l := l) (rest := rest) hm
  have hexec := exec_lowpwrAssert_falls hr hl he
  rw [hlow] at hexec
  generalize (s.heldLow.unpowered.allParked.superseded l rest e).noticed = v at hexec hdowned hended
  obtain rfl | ⟨g, rfl, -, ha, hk, hp, hne, hcarry⟩ := hrest
  · have hquiet : v.examineLegs = v := State.examineLegs_nil fun k => by
      by_cases hkl : k = l
      · rw [hkl, hdowned.queue]
      · exact hdowned.others k hkl
    rw [hquiet, State.intake_nil hdowned.list] at hexec
    exact ⟨v, hexec, hdowned.queue, hdowned.parked, hended, nofun⟩
  · obtain ⟨hdowned', hended', hfinished, hintent, hattempts⟩ := hended.examineLegs hdowned ha hk hp hcarry hne
    rw [State.intake_nil hdowned'.list] at hexec
    refine ⟨_, hexec, hdowned'.queue, hdowned'.parked, hended', fun g' hg' => ?_⟩
    obtain rfl := List.mem_singleton.mp hg'
    exact ⟨hfinished, hintent, hattempts⟩

/-- Settles O54. -/
theorem queuedEntriesPassOrAreSuperseded : Obligations.QueuedEntriesPassOrAreSuperseded := by
  intro l e s hd
  refine ⟨fun n h rest hfree hready hheld hempty hlist hw hleg hu hp hq hrest ha hk hpatience hsides hn hc =>
    ⟨fun hh => ?passes, fun hh hnil side lane pre main post i x hi hlane hx => ?posted⟩,
    fun rest hr hl he hlist hothers hq hm hrest => ?falls⟩
  case passes =>
    exact State.legPark_passes ⟨hfree, hready, hheld, hempty, hlist, hw⟩ hh ⟨hleg, hu, hp⟩ hq hrest
      ⟨hd, ha, hk, hpatience, hsides, hn, hc⟩
  case posted =>
    subst hnil
    have hs : s.TakesTask n := ⟨hfree, hready, hheld, hempty, hlist, hw⟩
    obtain ⟨t, q, hexec, hposted, hpassed⟩ := State.setTaps_passes (pre := pre) (main := main) (post := post) hs hh
      ⟨hleg, hu, hp⟩ hq ⟨hd, ha, hk, hpatience, hsides, hn, hc⟩ hi hlane hx
    obtain ⟨hwritten, hslots, hbytes, hlegs, houtside, hmap, hfaults, hattention, hflight⟩ := hposted.keeps hs (by simp)
    exact ⟨t, congrArg Host.Outcome.next hexec, hwritten, hslots, hbytes, hlegs, houtside, hmap, hfaults, hattention,
      hflight, hpassed⟩
  case falls =>
    obtain ⟨t, hexec, hqueue, hparked, hended, hstarts⟩ :=
      State.lowpwr_supersedes hr hl he hlist hothers hq hd hm hrest
    refine ⟨t, hexec, hqueue, hparked, fun ha => ?_, fun ha hn => ?_, fun g hg => ?_⟩
    · obtain ⟨hstate, hstatus, hsummary⟩ := hended.awaited ha
      exact ⟨hstate, hstatus, hsummary⟩
    · obtain ⟨hrecord, hsummary⟩ := hended.posted ha hn
      exact ⟨hrecord, hsummary⟩
    · obtain ⟨⟨hstate, hstatus, hsummary⟩, hintent, hattempts⟩ := hstarts g hg
      exact ⟨hstate, hstatus, hsummary, hintent, hattempts⟩

end Sys2Proof.Machine
end

section
/-! The entry into CARRYING (R37, R67), and the last agreement (O26). -/

namespace Sys2Proof.Machine

variable {s t u : State} {n m : SlotId} {l k : LegId} {x y : LaneSide} {d : Side} {e : Entry} {p : PageId} {c : Page}
  {grade : Grade} {st : Status}

/-! ### The entry into CARRYING -/

/-- R37, R39: the items of a leg that enters CARRYING. -/
def Leg.entered (grade : Grade) (g : Leg) : Leg :=
  { g.modSides (fun d => { d with relay := { d.relay with armed := true } }) with
    state := .carrying, attempts := 0, grade := grade, carryEntries := countUp Config.legCounterMax g.carryEntries }

/-- R37, R39: the status that the entry into CARRYING reports. -/
def Grade.status : Grade → Status
  | .full => .ok
  | .degraded => .okDegraded

/-- R37, R71: the leg in CARRYING, before its outcome is reported. -/
def State.carriedOut (s : State) (l : LegId) (grade : Grade) : State :=
  ((s.modLanes (s.allMemberSides l) LaneState.rest).modLeg l (Leg.entered grade)).legNotice l

theorem State.enterCarrying_eq (s : State) (l : LegId) (grade : Grade) :
    s.enterCarrying l grade = (s.carriedOut l grade).reportOutcome l grade.status := by
  cases grade <;> exact rfl

theorem LaneState.rest_rest (v : LaneState) : v.rest.rest = v.rest := by
  have hmonitor : v.monitor.discardReading.discardReading = v.monitor.discardReading := by cases v.monitor <;> rfl
  simp only [LaneState.rest, hmonitor]

theorem State.lane_reportOutcome (s : State) (l : LegId) (st : Status) (y : LaneSide) :
    (s.reportOutcome l st).lane y = s.lane y := by
  obtain ⟨_, _, _, _, _, h⟩ := s.reportOutcome_eq_update l st
  rw [h]
  exact rfl

theorem State.lane_enterCarrying (s : State) (l : LegId) (grade : Grade) (y : LaneSide) :
    (s.enterCarrying l grade).lane y = if y ∈ s.allMemberSides l then (s.lane y).rest else s.lane y := by
  rw [State.enterCarrying_eq, State.lane_reportOutcome, State.carriedOut, State.lane_legNotice, State.lane_modLeg]
  split
  · next h => exact State.lane_modLanes_of_idempotent LaneState.rest_rest _ h
  · next h => exact State.lane_modLanes_of_notMem s _ y _ h

theorem State.leg_enterCarrying (s : State) (l : LegId) (grade : Grade) :
    (s.enterCarrying l grade).leg l = (s.leg l).entered grade := by
  rw [State.enterCarrying_eq, State.leg_reportOutcome, State.carriedOut, State.leg_legNotice, State.leg_modLeg_self,
    State.leg_modLanes]

theorem State.engine_carriedOut (s : State) (l : LegId) (grade : Grade) (k : LegId) :
    (s.carriedOut l grade).engine k = s.engine k := by
  rw [State.carriedOut, State.engine_legNotice, State.engine_modLeg, State.engine_modLanes]

theorem State.notice_enterCarrying (s : State) (l : LegId) (grade : Grade) :
    (s.enterCarrying l grade).summary.getLsbD (16 + l.val) = true := by
  rw [State.enterCarrying_eq]
  refine (legUpdate_reportOutcome _ l _).summary _ ?_
  rw [State.carriedOut, State.legNotice_summary, BitVec.getLsbD_or, getLsbD_legBit, Bool.or_true]

/-- R41: the task in flight finishes with the reported outcome. -/
theorem State.taskFinished_reportOutcome (h : u.engine l = s.engine l) (st : Status) :
    s.TaskFinished (u.reportOutcome l st) l st := by
  refine ⟨by rw [State.engine_reportOutcome, if_pos rfl], fun n hn => ?_⟩
  rw [← h] at hn
  rw [State.slot_reportOutcome, if_pos hn, State.reportOutcome_of_some hn, State.endAwaited_summary, BitVec.getLsbD_or,
    getLsbD_slotBit_self, Bool.or_true]
  exact ⟨rfl, rfl, rfl⟩

theorem State.taskFinished_enterCarrying (s : State) (l : LegId) (grade : Grade) :
    s.TaskFinished (s.enterCarrying l grade) l grade.status := by
  rw [State.enterCarrying_eq]
  exact State.taskFinished_reportOutcome (s.engine_carriedOut l grade l) _

/-- What the entry leaves of the exchange memory, the pages and the slots. -/
theorem State.exchange_enterCarrying (s : State) (l : LegId) (grade : Grade) :
    s.KeepsBytes (s.enterCarrying l grade) ∧ (∀ q, (s.enterCarrying l grade).page q = s.page q) ∧
      s.StartsNoScan (s.enterCarrying l grade) ∧
      ∀ m, (s.engine l).inFlight ≠ some m → (s.enterCarrying l grade).slot m = s.slot m := by
  refine ⟨?_, fun q => ?_, fun y hy => ?_, fun m hm => ?_⟩
  · rw [State.enterCarrying_eq]
    exact (State.KeepsBytes.of_mem (by rw [State.carriedOut, State.legNotice_mem, State.modLeg_mem, State.modLanes_mem])).trans
      (State.keepsBytes_reportOutcome _ l _)
  · rw [State.enterCarrying_eq, State.page_reportOutcome, State.carriedOut, State.page_legNotice, State.page_modLeg,
      State.page_modLanes]
  · rw [State.lane_enterCarrying]
    split
    · exact Monitor.discardReading_ne hy
    · exact hy
  · rw [State.enterCarrying_eq, State.slot_reportOutcome, State.engine_carriedOut, if_neg hm, State.carriedOut,
      State.slot_legNotice, State.slot_modLeg, State.slot_modLanes]

/-! ### The last agreement (R65 to R67) -/

/-- R65, R66: a HOLDING lane side that counts its last frame with CONTENT. -/
def LaneState.agree (v : LaneState) : LaneState := { v with tuner := { v.tuner with hold := 16, phase := .agreed } }

/-- R67: a session DONE, its timer stopped. -/
def LegSide.tuned (v : LegSide) : LegSide := { v with session := .done, timer := none }

theorem LaneState.settle_agrees {v : LaneState} (hhold : v.tuner.hold = 15) (hphase : v.tuner.phase = .holding) :
    v.settle true = v.agree := by
  simp [LaneState.settle, LaneState.agree, Tuner.countHold, hhold, hphase, Config.agreementFrames]

theorem LaneState.settle_holds {v : LaneState} {content : Bool} (hphase : v.tuner.phase = .holding)
    (h : content = false ∨ v.tuner.hold + 1 < 16) : v.settle content =
      { v with tuner := { v.tuner with hold := if content then v.tuner.hold + 1 else 0 } } := by
  cases content with
  | false => simp [LaneState.settle, Tuner.countHold, hphase]
  | true =>
    have hshort : ¬16 ≤ v.tuner.hold + 1 := by
      have hlt := h.resolve_left nofun
      omega
    simp [LaneState.settle, Tuner.countHold, hphase, Config.agreementFrames, hshort]

theorem State.takeAgreement_of_last {content : Bool} (hrun : ((s.leg (s.legOf x)).side x.side).session = .running)
    (hall : ∀ y ∈ s.memberSides (s.legOf x) x.side,
      ((s.modLane x (LaneState.settle content)).lane y).tuner.phase = .agreed) :
    s.takeAgreement x content = (s.modLane x (LaneState.settle content)).sessionDone (s.legOf x) x.side :=
  if_pos ⟨hrun, List.all_eq_true.mpr fun y hy => decide_eq_true (hall y hy)⟩

theorem State.sessionDone_waits (h : ((s.leg l).side (otherSide d)).session ≠ .done) :
    s.sessionDone l d = s.modLegSide l d LegSide.tuned := by
  have hother : (((s.modLegSide l d LegSide.tuned).leg l).side (otherSide d)).session =
      ((s.leg l).side (otherSide d)).session := by
    rw [State.leg_modLegSide_self, Leg.side_modSide, if_neg (otherSide_ne d)]
  exact if_neg (hother ▸ h)

theorem State.sessionDone_enters (h : ((s.leg l).side (otherSide d)).session = .done) : s.sessionDone l d =
    (s.modLegSide l d LegSide.tuned).enterCarrying l (s.leg l).tunedGrade := by
  have hleg := State.leg_modLegSide_self s l d LegSide.tuned
  have hother : (((s.modLegSide l d LegSide.tuned).leg l).side (otherSide d)).session = .done := by
    rw [hleg, Leg.side_modSide, if_neg (otherSide_ne d), h]
  have hgrade : ((s.modLegSide l d LegSide.tuned).leg l).tunedGrade = (s.leg l).tunedGrade := by
    rw [hleg]
    cases d <;> rfl
  rw [← hgrade]
  exact if_pos hother

end Sys2Proof.Machine
end

section
/-! The last agreement of a session (O26). -/

namespace Sys2Proof.Machine

variable {s t u : State} {n m : SlotId} {l k : LegId} {x y : LaneSide} {d : Side} {e : Entry} {p : PageId} {c : Page}
  {grade : Grade} {st : Status} {f : RxFrame} {frame : Vector Byte 8}

/-- R67: the leg whose session of a side becomes DONE by the agreement of lane side x. -/
def State.agreed (s : State) (x : LaneSide) : State :=
  (s.modLane x LaneState.agree).modLegSide (s.legOf x) x.side LegSide.tuned

theorem State.lane_agreed (s : State) (x y : LaneSide) :
    (s.agreed x).lane y = if y = x then (s.lane x).agree else s.lane y := by
  rw [State.agreed, State.lane_modLegSide, State.lane_modLane]

theorem State.leg_agreed (s : State) (x : LaneSide) :
    (s.agreed x).leg (s.legOf x) = (s.leg (s.legOf x)).modSide x.side LegSide.tuned := by
  rw [State.agreed, State.leg_modLegSide_self, State.leg_modLane]

theorem legUpdate_agreed (s : State) (x : LaneSide) :
    (s.modLane x LaneState.agree).LegUpdate (s.legOf x) (s.agreed x) := .modLegSide _ _ _ _

/-- A good frame of the known mark, without a request and on a lane side that has none: only the hold is counted. -/
theorem State.goodFrame_plain (hmark : (s.lane x).tuner.partnerMark = some f.mark) (hk : f.reqKind = 0)
    (ho : (s.lane x).tuner.outstanding = none) : s.goodFrame x f = s.takeAgreement x f.content := by
  rw [State.goodFrame_of_noReply (Tuner.replyIn_of_none ho f),
    State.modLane_of_eq (LaneState.takeFrame_of_plain (s.leg (s.legOf x)).setup hmark hk)]

theorem exec_frameReceived_plain (hr : s.resetHeld = false) (htune : (s.leg (s.legOf x)).state = .tune)
    (hlock : (s.lane x).locked = true) (hgood : frameGood (s.afterPolarity x frame) = true)
    (hf : f = decodeFrame (s.afterPolarity x frame)) (hmark : (s.lane x).tuner.partnerMark = some f.mark)
    (hk : f.reqKind = 0) (ho : (s.lane x).tuner.outstanding = none) :
    exec (.tuningFrameReceived x frame) s = .next ((s.takeAgreement x f.content).afterLegEvent s (s.legOf x)) := by
  subst hf
  rw [exec_frameReceived_good hr htune hlock hgood, State.goodFrame_plain hmark hk ho]

section
variable (hhold : (s.lane x).tuner.hold = 15) (hphase : (s.lane x).tuner.phase = .holding)
include hhold hphase

theorem State.modLane_settle : s.modLane x (LaneState.settle true) = s.modLane x LaneState.agree :=
  State.modLane_congr (LaneState.settle_agrees hhold hphase)

/-- R67: the frame that brings the last lane side of a running session to AGREED. -/
theorem State.takeAgreement_last (hrun : ((s.leg (s.legOf x)).side x.side).session = .running)
    (hall : ∀ y ∈ s.memberSides (s.legOf x) x.side, y ≠ x → (s.lane y).tuner.phase = .agreed) :
    s.takeAgreement x true = (s.modLane x LaneState.agree).sessionDone (s.legOf x) x.side := by
  rw [State.takeAgreement_of_last hrun, State.modLane_settle hhold hphase]
  intro y hy
  rw [State.modLane_settle hhold hphase, State.lane_modLane]
  split
  · exact rfl
  · next hne => exact hall y hy hne

theorem State.takeAgreement_waits (hrun : ((s.leg (s.legOf x)).side x.side).session = .running)
    (hall : ∀ y ∈ s.memberSides (s.legOf x) x.side, y ≠ x → (s.lane y).tuner.phase = .agreed)
    (hother : ((s.leg (s.legOf x)).side (otherSide x.side)).session ≠ .done) : s.takeAgreement x true = s.agreed x := by
  rw [State.takeAgreement_last hhold hphase hrun hall]
  exact State.sessionDone_waits (s := s.modLane x LaneState.agree) hother

theorem State.takeAgreement_enters (hrun : ((s.leg (s.legOf x)).side x.side).session = .running)
    (hall : ∀ y ∈ s.memberSides (s.legOf x) x.side, y ≠ x → (s.lane y).tuner.phase = .agreed)
    (hother : ((s.leg (s.legOf x)).side (otherSide x.side)).session = .done) : s.takeAgreement x true =
      (s.agreed x).enterCarrying (s.legOf x) (s.leg (s.legOf x)).tunedGrade := by
  rw [State.takeAgreement_last hhold hphase hrun hall]
  exact State.sessionDone_enters (s := s.modLane x LaneState.agree) hother

end

/-- R37: the entry into CARRYING that the last agreement brings. -/
def State.tunedIn (s : State) (x : LaneSide) : State :=
  (s.agreed x).enterCarrying (s.legOf x) (s.leg (s.legOf x)).tunedGrade

theorem legUpdate_tunedIn (s : State) (x : LaneSide) :
    (s.modLane x LaneState.agree).LegUpdate (s.legOf x) (s.tunedIn x) :=
  (legUpdate_agreed s x).trans (legUpdate_enterCarrying _ _ _)

theorem State.leg_tunedIn (s : State) (x : LaneSide) : (s.tunedIn x).leg (s.legOf x) =
    ((s.leg (s.legOf x)).modSide x.side LegSide.tuned).entered (s.leg (s.legOf x)).tunedGrade := by
  rw [State.tunedIn, State.leg_enterCarrying, State.leg_agreed]

theorem State.lane_tunedIn (s : State) (x y : LaneSide) : (s.tunedIn x).lane y =
    if y ∈ s.allMemberSides (s.legOf x) then ((s.agreed x).lane y).rest else (s.agreed x).lane y :=
  State.lane_enterCarrying (s.agreed x) (s.legOf x) _ y

theorem eq_otherSide_of_ne {d e : Side} (h : e ≠ d) : e = otherSide d :=
  match d, e with
  | .line, .switch => rfl
  | .switch, .line => rfl
  | .line, .line => absurd rfl h
  | .switch, .switch => absurd rfl h

/-- R37, R38: what the leg is after the entry. -/
theorem Leg.items_tunedIn (g : Leg) (d : Side) (hother : (g.side (otherSide d)).session = .done) :
    ((g.modSide d LegSide.tuned).entered g.tunedGrade).state = .carrying ∧
      ((g.modSide d LegSide.tuned).entered g.tunedGrade).attempts = 0 ∧
      ((g.modSide d LegSide.tuned).entered g.tunedGrade).grade =
        (if g.line.weak = 0 ∧ g.switch.weak = 0 then .full else .degraded) ∧
      (∀ d', (((g.modSide d LegSide.tuned).entered g.tunedGrade).side d').session = .done ∧
        (((g.modSide d LegSide.tuned).entered g.tunedGrade).side d').relay.armed = true ∧
        (((g.modSide d LegSide.tuned).entered g.tunedGrade).side d').weak = (g.side d').weak) ∧
      (((g.modSide d LegSide.tuned).entered g.tunedGrade).side d).timer = none ∧
      ((g.modSide d LegSide.tuned).entered g.tunedGrade).carryEntries = nextCount g.carryEntries ∧
      ((g.modSide d LegSide.tuned).entered g.tunedGrade).intent = g.intent := by
  have hside (d' : Side) : (((g.modSide d LegSide.tuned).entered g.tunedGrade).side d') =
      { if d' = d then (g.side d).tuned else g.side d' with
        relay := { (if d' = d then (g.side d).tuned else g.side d').relay with armed := true } } := by
    rw [← Leg.side_modSide]
    exact Leg.side_modSides (g.modSide d LegSide.tuned) (fun v => { v with relay := { v.relay with armed := true } }) d'
  refine ⟨rfl, rfl, rfl, fun d' => ?_, ?_, ?_, ?_⟩
  · rw [hside]
    split
    · next h => exact ⟨rfl, rfl, by rw [h]; rfl⟩
    · next h =>
      refine ⟨?_, rfl, rfl⟩
      rw [eq_otherSide_of_ne h]
      exact hother
  · rw [hside, if_pos rfl]
    exact rfl
  · cases d <;> exact rfl
  · cases d <;> exact rfl

theorem State.status_tunedGrade (g : Leg) : g.tunedGrade.status =
    if g.line.weak = 0 ∧ g.switch.weak = 0 then .ok else .okDegraded := by
  unfold Leg.tunedGrade
  split <;> rfl

theorem State.keepsTaps_tunedIn (s : State) (x y : LaneSide) : ((s.tunedIn x).lane y).taps = (s.lane y).taps := by
  have hagreed : ((s.agreed x).lane y).taps = (s.lane y).taps := by
    rw [State.lane_agreed]
    split
    · next h => rw [h]; rfl
    · rfl
  rw [State.lane_tunedIn, ← hagreed]
  split <;> rfl

/-- R37, R71: the lane sides of a leg that the last agreement takes to CARRYING. -/
theorem State.lanes_tunedIn (hmap : s.MapPermutes) (x : LaneSide) :
    (∀ y ∈ s.allMemberSides (s.legOf x), ((s.tunedIn x).lane y).tuner.phase = .idle ∧
      ((s.tunedIn x).lane y).tuner.ownMark = (s.lane y).tuner.ownMark) ∧
      s.SameLanesBut (s.allMemberSides (s.legOf x)) (s.tunedIn x) := by
  refine ⟨fun y hy => ?_, fun y hy => ?_⟩
  · rw [State.lane_tunedIn, if_pos hy, State.lane_agreed]
    refine ⟨rfl, ?_⟩
    split
    · next h => rw [h]; rfl
    · rfl
  · rw [State.lane_tunedIn, if_neg hy, State.lane_agreed, if_neg]
    exact fun h => hy (h ▸ State.mem_allMemberSides hmap x)

/-- R37, log 37: a waiting EYE_SCAN at the entry into CARRYING. -/
theorem State.ScanWaits.tunedIn (h : s.ScanWaits (s.legOf x) e p c) (hlist : s.handOver = [])
    (hp : (s.page p).state = .free) (hm : (s.lane (s.sideOf c.lane c.side)).monitor ≠ .scanning)
    (hflight : (s.engine (s.legOf x)).inFlight ≠ some e.slot) :
    (((s.tunedIn x).engineEvent (s.legOf x)).leg (s.legOf x)).state = .carrying ∧
      s.ScanStartsOrIsPutOff ((s.tunedIn x).engineEvent (s.legOf x)) (s.legOf x) e p c := by
  have hupdate := legUpdate_tunedIn s x
  obtain ⟨hbytes, hpages, hmonitors, hslots⟩ := (s.agreed x).exchange_enterCarrying (s.legOf x)
    (s.leg (s.legOf x)).tunedGrade
  have hstate : ((s.tunedIn x).leg (s.legOf x)).state = .carrying := by
    rw [State.leg_tunedIn]
    rfl
  have hagreed : ((s.agreed x).lane (s.sideOf c.lane c.side)).monitor ≠ .scanning := by
    rw [State.lane_agreed]
    split
    · next h => rw [h] at hm; exact hm
    · exact hm
  have hk : s.KeepsWaiting (s.tunedIn x) (s.legOf x) e.slot := by
    have hkept : (s.modLane x LaneState.agree).KeepsBytes (s.tunedIn x) := (State.KeepsBytes.of_mem rfl).trans hbytes
    obtain ⟨hstraps, hmap, hqueue, hread⟩ := State.KeepsWaiting.of_legUpdate (n := e.slot) hupdate hkept
    exact ⟨hstraps, hmap, hqueue, hread⟩
  have hrest : (s.tunedIn x).handOver = s.handOver ∧ (s.tunedIn x).owed = s.owed := by
    obtain ⟨_, _, _, _, _, _, _, _, _, hu⟩ := hupdate.update
    rw [hu]
    exact ⟨rfl, rfl⟩
  have hpage : (s.tunedIn x).page p = s.page p := hpages p
  have hslot : (s.tunedIn x).slot e.slot = s.slot e.slot := hslots e.slot hflight
  have hmonitor : ((s.tunedIn x).lane (s.sideOf c.lane c.side)).monitor ≠ .scanning := hmonitors _ hagreed
  obtain ⟨hlist', howed⟩ := hrest
  generalize s.tunedIn x = t at *
  have hlist'' := hlist'.trans hlist
  have hp' : (t.page p).state = .free := by rw [hpage, hp]
  obtain ⟨-, hlegs, -⟩ := h.engineEvent_keeps hk hstate hmonitor hp' hlist''
  exact ⟨by rw [hlegs, hstate], h.startsOrIsPutOff hk hstate hmonitor hp' hlist'' hpage hslot howed⟩

/-- Settles O26. -/
theorem lastAgreementEntersCarrying : Obligations.LastAgreementEntersCarrying := by
  intro x frame f s hr hmap htune hlock hgood hf hmark hk ho hphase
  have hexec := exec_frameReceived_plain hr htune hlock hgood hf hmark hk ho
  refine ⟨fun hshort => ?holds, fun hc hhold hleft => ?agrees, fun hc hhold hall hrun hother => ?waits,
    fun hw hc hhold hall hrun hother => ?enters, fun e p c hwait hlist hp hm hflight hc hhold hall hrun hother => ?scans⟩
  case holds =>
    have hsettle := LaneState.settle_holds hphase hshort
    have hquiet : s.takeAgreement x f.content = s.modLane x (LaneState.settle f.content) :=
      State.takeAgreement_of_not (.inr (State.short_of_phase hmap (by rw [hsettle, hphase]; nofun)))
    rw [hquiet, State.afterLegEvent_of_state (s := s) (t := s.modLane x _) (l := s.legOf x) rfl] at hexec
    exact ⟨_, hexec, (s.lane_modLane_self x _).trans hsettle, s.sameLanesBut_modLane x _, s.sameLegsBut_modLane x _,
      s.sameOutside_modLane x _⟩
  case agrees =>
    obtain ⟨y, hy, hne, hshort⟩ := hleft
    have hquiet : s.takeAgreement x f.content = s.modLane x LaneState.agree := by
      rw [hc, State.takeAgreement_of_not (.inr ⟨y, hy, by rwa [State.lane_modLane, if_neg hne]⟩),
        State.modLane_settle hhold hphase]
    rw [hquiet, State.afterLegEvent_of_state (s := s) (t := s.modLane x _) (l := s.legOf x) rfl] at hexec
    exact ⟨_, hexec, s.lane_modLane_self x _, s.sameLanesBut_modLane x _, s.sameLegsBut_modLane x _,
      s.sameOutside_modLane x _⟩
  case waits =>
    have hleg := s.leg_agreed x
    have hstate : ((s.agreed x).leg (s.legOf x)).state = (s.leg (s.legOf x)).state := by
      rw [hleg]
      cases x.side <;> rfl
    rw [hc, State.takeAgreement_waits hhold hphase hrun hall hother, State.afterLegEvent_of_state hstate] at hexec
    refine ⟨_, hexec, by rw [State.lane_agreed, if_pos rfl]; rfl, hstate.trans htune, ?_, ?_, ?_, fun y hy => ?_,
      fun k hk => ?_, ?_⟩
    · rw [hleg, Leg.side_modSide, if_pos rfl]
      exact rfl
    · rw [hleg, Leg.side_modSide, if_neg (otherSide_ne _)]
    · rw [State.SameLegItems, hleg]
      cases x.side <;> rfl
    · rw [State.lane_agreed, if_neg (by simpa using hy)]
    · exact (legUpdate_agreed s x).legs k (by simpa using hk)
    · exact ((State.KeepsSignals.refl _).modLeg _ _).sameOutside (s := s.modLane x LaneState.agree)
  case enters =>
    have hupdate := legUpdate_tunedIn s x
    have hwork : (s.tunedIn x).NoWork := hupdate.noWork (State.noWork_modLane hw x _)
    rw [hc, State.takeAgreement_enters hhold hphase hrun hall hother] at hexec
    rw [show (s.agreed x).enterCarrying (s.legOf x) (s.leg (s.legOf x)).tunedGrade = s.tunedIn x from rfl,
      State.afterLegEvent_of_noWork hwork] at hexec
    obtain ⟨hstate, hattempts, hgrade, hsides, htimer, hentries, hintent⟩ :=
      (s.leg (s.legOf x)).items_tunedIn x.side hother
    obtain ⟨hlanes, hother'⟩ := State.lanes_tunedIn hmap x
    obtain ⟨hpins, hpower, hdevice, hsame, hfaults, -, hline, -, -, -, howed⟩ := hupdate.registers
    have hfinished := (s.agreed x).taskFinished_enterCarrying (s.legOf x) (s.leg (s.legOf x)).tunedGrade
    rw [State.status_tunedGrade] at hfinished
    have hleg := s.leg_tunedIn x
    refine ⟨_, hexec, by rw [hleg, hstate], by rw [hleg, hattempts], by rw [hleg, hgrade], by rw [hleg]; exact hsides,
      by rw [hleg, htimer], by rw [hleg, hentries], by rw [hleg, hintent],
      State.notice_enterCarrying _ _ _, hfinished, hlanes, s.keepsTaps_tunedIn x, hother', hupdate.sameLegsBut, hpins,
      hpower, hdevice, hsame, hfaults, hline, howed⟩
  case scans =>
    obtain ⟨hstate, hscan⟩ := hwait.tunedIn hlist hp hm hflight
    rw [hc, State.takeAgreement_enters hhold hphase hrun hall hother] at hexec
    have hevent : (s.tunedIn x).afterLegEvent s (s.legOf x) = (s.tunedIn x).engineEvent (s.legOf x) := by
      refine if_neg ?_
      rw [State.leg_tunedIn, htune]
      nofun
    exact ⟨_, hexec.trans (congrArg Host.Outcome.next hevent), hstate, hscan⟩

end Sys2Proof.Machine
end

section
/-! What a leg event touches of the lane sides, and a leg's entries into ACQUIRE and PARKED (Sections 2.4 to 2.7). -/

namespace Sys2Proof.Machine

variable {s t u : State} {l : LegId} {d : Side} {st : Status}

/-! ### Only the leg's own lane sides -/

/-- An event of a leg that touches no lane side but the leg's own. -/
structure State.LegMoves (l : LegId) (s t : State) : Prop extends State.LegUpdate l s t where
  lanes_same : s.SameLanesBut (s.allMemberSides l) t

namespace State.LegMoves

theorem of_lanes (h : s.LegUpdate l t) (hl : ∀ y, t.lane y = s.lane y) : s.LegMoves l t := ⟨h, fun y _ => hl y⟩

theorem refl (l : LegId) (s : State) : s.LegMoves l s := of_lanes (.refl l s) fun _ => rfl

theorem trans (h : s.LegMoves l t) (h' : t.LegMoves l u) : s.LegMoves l u where
  toLegUpdate := h.toLegUpdate.trans h'.toLegUpdate
  lanes_same y hy := (h'.lanes_same y (h.allMemberSides l ▸ hy)).trans (h.lanes_same y hy)

theorem modLeg (h : s.LegMoves l t) {f : Leg → Leg} (hf : (f (t.leg l)).setup = (t.leg l).setup) :
    s.LegMoves l (t.modLeg l f) := h.trans (of_lanes (.modLeg t l hf) fun _ => rfl)

theorem modLegSide (h : s.LegMoves l t) (d : Side) (f : LegSide → LegSide) : s.LegMoves l (t.modLegSide l d f) :=
  h.trans (of_lanes (.modLegSide t l d f) fun _ => rfl)

theorem modLanes (s : State) (l : LegId) (d : Side) {f : LaneState → LaneState}
    (hf : ∀ v : LaneState, (f v).presence = v.presence ∧ (f v).locked = v.locked ∧ (f v).counters = v.counters ∧
      (f v).mask = v.mask) : s.LegMoves l (s.modLanes (s.memberSides l d) f) :=
  ⟨.modLanes _ s l hf, fun y hy => s.lane_modLanes_of_notMem _ y f fun h => hy (State.mem_memberSides_iff.mp h).1⟩

end State.LegMoves

theorem legMoves_abandonSide (s : State) (l : LegId) (d : Side) : s.LegMoves l (s.abandonSide l d) := by
  unfold State.abandonSide
  split
  · exact (State.LegMoves.modLanes s l d LaneState.abandon_keeps).modLegSide d _
  · exact .modLanes s l d LaneState.rest_keeps

theorem legMoves_abandonSessions (s : State) (l : LegId) : s.LegMoves l (s.abandonSessions l) := by
  unfold State.abandonSessions
  split
  · exact (legMoves_abandonSide s l .line).trans (legMoves_abandonSide _ l .switch)
  · exact .refl l s

theorem legMoves_abandonRunning (s : State) (l : LegId) (d : Side) : s.LegMoves l (s.abandonRunning l d) := by
  unfold State.abandonRunning
  split
  · exact legMoves_abandonSide s l d
  · exact .refl l s

theorem legMoves_reportOutcome (s : State) (l : LegId) (st : Status) : s.LegMoves l (s.reportOutcome l st) :=
  .of_lanes (legUpdate_reportOutcome s l st) (s.lane_reportOutcome l st)

theorem legMoves_parkLeg (h : (s.leg l).state ≠ .carrying) : s.LegMoves l (s.parkLeg l) := by
  have hstay : (s.abandonSessions l).leaveCarrying l = s.abandonSessions l :=
    if_neg (by rw [State.state_abandonSessions]; exact h)
  rw [State.parkLeg, hstay]
  exact (legMoves_abandonSessions s l).modLeg rfl

theorem legMoves_enterTuneSide (s : State) (l : LegId) (kind : SessionKind) (named : List Side) (d : Side) :
    s.LegMoves l (s.enterTuneSide l kind named d) := by
  unfold State.enterTuneSide
  split
  · exact (State.LegMoves.modLanes s l d fun v => v.startSession_keeps_all _ kind).modLegSide d _
  · exact (State.LegMoves.modLanes s l d LaneState.standBy_keeps).modLegSide d _

theorem legMoves_tryTune (s : State) (l : LegId) : s.LegMoves l (s.tryTune l) := by
  unfold State.tryTune
  split
  · exact ((((State.LegMoves.refl l s).modLeg rfl).modLeg rfl).trans (legMoves_enterTuneSide _ l .bringUp _ .line)).trans
      (legMoves_enterTuneSide _ l .bringUp _ .switch)
  · exact .refl l s

theorem legMoves_enterAcquire (s : State) (l : LegId) : s.LegMoves l (s.enterAcquire l) :=
  ((State.LegMoves.refl l s).modLeg rfl).trans (legMoves_tryTune _ l)

theorem legMoves_enterCarrying (s : State) (l : LegId) (grade : Grade) : s.LegMoves l (s.enterCarrying l grade) :=
  ⟨legUpdate_enterCarrying s l grade, fun y hy => by rw [State.lane_enterCarrying, if_neg hy]⟩

/-! ### The entry into ACQUIRE (R32) -/

theorem State.leg_enterAcquire (s : State) (l : LegId) :
    (s.enterAcquire l).leg l = (s.leg l).enteredDark true (s.allLocked l) := by
  have hacquire (f : Leg → Leg) : (s.modLeg l f).allLocked l = s.allLocked l := s.allLocked_modLeg l f l
  unfold State.enterAcquire
  cases hl : s.allLocked l with
  | false =>
    rw [State.tryTune_of_unlocked ((hacquire _).trans hl), State.leg_modLeg_self]
    rfl
  | true =>
    rw [State.leg_tryTune ((hacquire _).trans hl), State.leg_modLeg_self]
    rfl

theorem State.keepsSignals_enterAcquire (s : State) (l : LegId) : s.KeepsSignals (s.enterAcquire l) :=
  ((State.KeepsSignals.refl s).modLeg l _).trans (State.keepsSignals_tryTune _ l)

theorem State.keepsSignals_abandonSessions (s : State) (l : LegId) : s.KeepsSignals (s.abandonSessions l) := by
  unfold State.abandonSessions
  split
  · exact (s.keepsSignals_abandonSide l .line).trans (State.keepsSignals_abandonSide _ l .switch)
  · exact .refl s

theorem State.keepsSignals_abandonRunning (s : State) (l : LegId) (d : Side) : s.KeepsSignals (s.abandonRunning l d) := by
  unfold State.abandonRunning
  split
  · exact s.keepsSignals_abandonSide l d
  · exact .refl s

/-! ### What a leg's record keeps -/

/-- What the last failed session left in a leg's record (R39). -/
def Leg.failures (g : Leg) : FailureCause × Nat := (g.cause, g.failedSessions)

theorem Leg.failures_abandoned (g : Leg) : g.abandoned.failures = g.failures := by
  unfold Leg.abandoned
  split <;> rfl

theorem Leg.failures_parked (g : Leg) : g.parked.failures = g.failures := g.failures_abandoned

theorem Leg.failures_enteredDark (g : Leg) (present locked : Bool) :
    (g.enteredDark present locked).failures = g.failures := by
  cases present <;> cases locked <;> rfl

/-- R32, R54: past ACQUIRE both sessions run. -/
theorem Leg.running_enteredDark (g : Leg) (d : Side) : ((g.enteredDark true true).side d).session = .running := by
  cases d <;> rfl

/-! ### A leg parked with BRING_UP_FAILED (R33, R39) -/

/-- R33, R39: a leg parks, items of its record change, and BRING_UP_FAILED is reported. -/
def State.parkFailed (s : State) (l : LegId) (f : Leg → Leg) : State :=
  (((s.parkLeg l).modLeg l f).legNotice l).reportOutcome l .bringUpFailed

theorem State.leg_parkFailed (s : State) (l : LegId) (f : Leg → Leg) : (s.parkFailed l f).leg l = f (s.leg l).parked := by
  rw [State.parkFailed, State.leg_reportOutcome, State.leg_legNotice, State.leg_modLeg_self, State.leg_parkLeg]

theorem State.notice_parkFailed (s : State) (l : LegId) (f : Leg → Leg) :
    (s.parkFailed l f).summary.getLsbD (16 + l.val) = true := by
  refine (legUpdate_reportOutcome _ l _).summary _ ?_
  rw [State.legNotice_summary, BitVec.getLsbD_or, getLsbD_legBit, Bool.or_true]

theorem State.taskFinished_parkFailed (s : State) (l : LegId) (f : Leg → Leg) :
    s.TaskFinished (s.parkFailed l f) l .bringUpFailed := by
  refine State.taskFinished_reportOutcome ?_ _
  rw [State.engine_legNotice, State.engine_modLeg, State.inFlight_parkLeg]

theorem legMoves_parkFailed (h : (s.leg l).state ≠ .carrying) {f : Leg → Leg} (hf : ∀ g, (f g).setup = g.setup) :
    s.LegMoves l (s.parkFailed l f) :=
  (((legMoves_parkLeg h).modLeg (hf _)).trans (.of_lanes (.legNotice _ l) fun _ => rfl)).trans
    (legMoves_reportOutcome _ l _)

end Sys2Proof.Machine
end

section
/-! A failed session and its fallback (R39, R68), and the two timeouts that fail one (O22). -/

namespace Sys2Proof.Machine

variable {s t u : State} {l : LegId} {d : Side} {x : LaneSide} {cause : FailureCause}

/-! ### The failed session -/

/-- R68: a session that has failed. -/
def LegSide.failed (v : LegSide) : LegSide := { v with session := .failed, timer := none }

/-- R39: the leg's record of a failed session. -/
def Leg.countFailure (cause : FailureCause) (g : Leg) : Leg :=
  { g with cause := cause, failedSessions := nextCount g.failedSessions }

/-- R39, R68: the items of a leg with a failed session, before its fallback. -/
def Leg.failed (d : Side) (cause : FailureCause) (g : Leg) : Leg :=
  ((g.modSide d LegSide.failed).countFailure cause).modSide (otherSide d) LegSide.abandoned

/-- R39, R68: the state with a failed session, before the fallback. -/
def State.failed (s : State) (l : LegId) (d : Side) (cause : FailureCause) : State :=
  (((s.modLanes (s.memberSides l d) LaneState.failSession).modLegSide l d LegSide.failed).modLeg l
    (Leg.countFailure cause)).abandonRunning l (otherSide d)

theorem State.sessionFailed_eq (s : State) (l : LegId) (d : Side) (cause : FailureCause) :
    s.sessionFailed l d cause = (s.failed l d cause).fallBack l := rfl

theorem State.leg_abandonRunning (s : State) (l : LegId) (d : Side) :
    (s.abandonRunning l d).leg l = (s.leg l).modSide d LegSide.abandoned := by
  unfold State.abandonRunning
  split
  · exact s.leg_abandonSide l d
  · next h => exact (Leg.modSide_of_eq (LegSide.abandoned_of_not h)).symm

theorem State.leg_failed (s : State) (l : LegId) (d : Side) (cause : FailureCause) :
    (s.failed l d cause).leg l = (s.leg l).failed d cause := by
  rw [State.failed, State.leg_abandonRunning, State.leg_modLeg_self, State.leg_modLegSide_self, State.leg_modLanes]
  rfl

theorem Leg.failed_keeps (g : Leg) (d : Side) (cause : FailureCause) :
    (g.failed d cause).failures = (cause, nextCount g.failedSessions) ∧ (g.failed d cause).state = g.state ∧
      (g.failed d cause).setup = g.setup ∧ (g.failed d cause).attempts = g.attempts ∧
      (g.failed d cause).intent = g.intent ∧ (g.failed d cause).givenUp = g.givenUp ∧
      (g.failed d cause).carryEntries = g.carryEntries ∧ ((g.failed d cause).side d).session = .failed := by
  cases d <;> exact ⟨rfl, rfl, rfl, rfl, rfl, rfl, rfl, rfl⟩

theorem State.keepsSignals_failed (s : State) (l : LegId) (d : Side) (cause : FailureCause) :
    s.KeepsSignals (s.failed l d cause) :=
  (((State.keepsSignals_modLanes _ (f := LaneState.failSession) (fun v => ⟨v.failSession_keeps.1, v.failSession_keeps.2.1⟩) s).modLeg
    l _).modLeg l _).trans
    (State.keepsSignals_abandonRunning _ l _)

theorem legMoves_failed (s : State) (l : LegId) (d : Side) (cause : FailureCause) : s.LegMoves l (s.failed l d cause) :=
  (((State.LegMoves.modLanes s l d LaneState.failSession_keeps).modLegSide d _).modLeg rfl).trans
    (legMoves_abandonRunning _ l _)

/-! ### The fallback -/

/-- R39: the items of a leg that counts one more attempt, its sessions abandoned. -/
def Leg.retried (g : Leg) : Leg := { g.abandoned with attempts := g.attempts + 1 }

theorem Leg.retried_keeps (g : Leg) : g.retried.failures = g.failures ∧ g.retried.state = g.state ∧
    g.retried.setup = g.setup ∧ g.retried.intent = g.intent := by
  obtain ⟨hstate, hintent, -, -, hsetup, -⟩ := g.abandoned_keeps
  exact ⟨g.failures_abandoned, hstate, hsetup, hintent⟩

/-- R39: one more attempt is counted, the sessions of the leg abandoned. -/
def State.retried (u : State) (l : LegId) : State :=
  (u.abandonSessions l).modLeg l (fun g => { g with attempts := g.attempts + 1 })

theorem State.leg_retried (u : State) (l : LegId) :
    (u.retried l).leg l = (u.leg l).retried := by
  obtain ⟨-, -, hattempts, -⟩ := (u.leg l).abandoned_keeps
  rw [State.retried, State.leg_modLeg_self, State.leg_abandonSessions, hattempts, Leg.retried]

theorem State.fallBack_of_carry (h : (u.leg l).setup.fallback = .carry) : u.fallBack l = u.enterCarrying l .degraded := by
  simp only [State.fallBack, h]

theorem State.fallBack_of_park (h : (u.leg l).setup.fallback = .park) :
    u.fallBack l = u.parkFailed l (fun g => { g with intent := false }) := by
  simp only [State.fallBack, h]
  exact rfl

theorem State.fallBack_of_retry (h : (u.leg l).setup.fallback = .retry) : u.fallBack l =
    if (u.leg l).attempts + 1 < (u.leg l).setup.attemptLimit then (u.retried l).enterAcquire l
    else (u.retried l).parkFailed l (fun g => { g with intent := false, givenUp := true }) := by
  obtain ⟨-, -, hsetup, -⟩ := (u.leg l).retried_keeps
  have hattempts : ((u.retried l).leg l).attempts = (u.leg l).attempts + 1 := by rw [State.leg_retried, Leg.retried]
  have hlimit : ((u.retried l).leg l).setup = (u.leg l).setup := by rw [State.leg_retried, hsetup]
  rw [← hattempts, ← hlimit]
  simp only [State.fallBack, h]
  exact rfl

theorem legMoves_fallBack (h : (u.leg l).state = .tune) : u.LegMoves l (u.fallBack l) := by
  cases hf : (u.leg l).setup.fallback with
  | carry =>
    rw [State.fallBack_of_carry hf]
    exact legMoves_enterCarrying u l .degraded
  | park =>
    rw [State.fallBack_of_park hf]
    exact legMoves_parkFailed (by rw [h]; nofun) fun _ => rfl
  | retry =>
    have hretried : u.LegMoves l (u.retried l) := (legMoves_abandonSessions u l).modLeg rfl
    have hstate : ((u.retried l).leg l).state = .tune := by
      obtain ⟨-, hstate, -⟩ := (u.leg l).retried_keeps
      rw [State.leg_retried, hstate, h]
    rw [State.fallBack_of_retry hf]
    split
    · exact hretried.trans (legMoves_enterAcquire _ l)
    · exact hretried.trans (legMoves_parkFailed (by rw [hstate]; nofun) fun _ => rfl)

/-! ### The leg after the fallback -/

theorem State.TaskFinished.of_engine {st : Status} (h : u.TaskFinished t l st)
    (he : (u.engine l).inFlight = (s.engine l).inFlight) : s.TaskFinished t l st :=
  ⟨h.1, fun n hn => h.2 n (he.trans hn)⟩

section
variable (hleg : u.leg l = (s.leg l).failed d cause)
include hleg

theorem State.setup_failed : (u.leg l).setup = (s.leg l).setup := by
  obtain ⟨-, -, hsetup, -⟩ := (s.leg l).failed_keeps d cause
  rw [hleg, hsetup]

theorem State.failures_failed : (u.leg l).failures = (cause, nextCount (s.leg l).failedSessions) := by
  rw [hleg, ((s.leg l).failed_keeps d cause).1]

variable (hu : s.KeepsSignals u)
include hu

theorem State.followsFallback_carry (hf : (s.leg l).setup.fallback = .carry) :
    s.FollowsFallback (u.enterCarrying l .degraded) l d cause := by
  obtain ⟨hfailures, -, hsetup, -, hintent, -, hentries, hsession⟩ := (s.leg l).failed_keeps d cause
  obtain ⟨hcause, hcount⟩ := Prod.mk.inj hfailures
  have hcarry := u.leg_enterCarrying l .degraded
  rw [hleg] at hcarry
  have hside (e : Side) : ((((s.leg l).failed d cause).entered .degraded).side e) =
      { (((s.leg l).failed d cause).side e) with
        relay := { (((s.leg l).failed d cause).side e).relay with armed := true } } :=
    Leg.side_modSides _ (fun v => { v with relay := { v.relay with armed := true } }) e
  unfold State.FollowsFallback
  rw [hf, hcarry]
  exact ⟨hcause, hcount, hsetup, rfl, rfl, rfl, hintent, congrArg nextCount hentries, by rw [hside]; exact hsession,
    fun e => by rw [hside], u.notice_enterCarrying l .degraded,
    (u.taskFinished_enterCarrying l .degraded).of_engine (congrArg LegEngine.inFlight (hu.engine l))⟩

theorem State.followsFallback_park (hf : (s.leg l).setup.fallback = .park) :
    s.FollowsFallback (u.parkFailed l fun g => { g with intent := false }) l d cause := by
  obtain ⟨hfailures, -, hsetup, hattempts, hintent, hgivenUp, -⟩ := (s.leg l).failed_keeps d cause
  obtain ⟨-, hattempts', hgivenUp', hsetup', -⟩ := ((s.leg l).failed d cause).parked_keeps
  obtain ⟨hcause, hcount⟩ := Prod.mk.inj ((Leg.failures_parked _).trans hfailures)
  have hpark := u.leg_parkFailed l (fun g => { g with intent := false })
  rw [hleg] at hpark
  unfold State.FollowsFallback
  rw [hf, hpark]
  exact ⟨hcause, hcount, hsetup'.trans hsetup, rfl, rfl, hgivenUp'.trans hgivenUp, hattempts'.trans hattempts,
    u.notice_parkFailed l _, (u.taskFinished_parkFailed l _).of_engine (congrArg LegEngine.inFlight (hu.engine l))⟩

/-- R39: RETRY below the attempt limit. -/
theorem State.followsFallback_retry (hf : (s.leg l).setup.fallback = .retry)
    (hlt : (s.leg l).attempts + 1 < (s.leg l).setup.attemptLimit) :
    s.FollowsFallback ((u.retried l).enterAcquire l) l d cause := by
  obtain ⟨hfailures, -, hsetup, hattempts, hintent, -⟩ := (s.leg l).failed_keeps d cause
  obtain ⟨hfailures', -, hsetup', hintent'⟩ := ((s.leg l).failed d cause).retried_keeps
  have hsignals : s.KeepsSignals (u.retried l) := hu.trans ((u.keepsSignals_abandonSessions l).modLeg l _)
  have hacquire := (u.retried l).leg_enterAcquire l
  rw [hsignals.allLocked, State.leg_retried, hleg] at hacquire
  obtain ⟨hintent'', hattempts'', -, hsetup''⟩ := ((s.leg l).failed d cause).retried.enteredDark_keeps true (s.allLocked l)
  obtain ⟨hcause, hcount⟩ := Prod.mk.inj
    ((Leg.failures_enteredDark _ true (s.allLocked l)).trans (hfailures'.trans hfailures))
  unfold State.FollowsFallback
  rw [hf, hacquire]
  refine ⟨hcause, hcount, hsetup''.trans (hsetup'.trans hsetup), hattempts''.trans (congrArg (· + 1) hattempts),
    fun _ => ⟨?_, hintent''.trans (hintent'.trans hintent), fun hall e => ?_, ?_⟩, fun hle => absurd hlt (by omega)⟩
  · rw [Leg.state_enteredDark]
    cases s.allLocked l <;> rfl
  · rw [hall]
    exact Leg.running_enteredDark _ e
  · rw [(hsignals.trans ((u.retried l).keepsSignals_enterAcquire l)).engine]

/-- R39, R33: RETRY at the attempt limit, the give-up. -/
theorem State.followsFallback_giveUp (hf : (s.leg l).setup.fallback = .retry)
    (hle : (s.leg l).setup.attemptLimit ≤ (s.leg l).attempts + 1) :
    s.FollowsFallback ((u.retried l).parkFailed l fun g => { g with intent := false, givenUp := true }) l d cause := by
  obtain ⟨hfailures, -, hsetup, hattempts, -⟩ := (s.leg l).failed_keeps d cause
  obtain ⟨hfailures', -, hsetup', -⟩ := ((s.leg l).failed d cause).retried_keeps
  have hsignals : s.KeepsSignals (u.retried l) := hu.trans ((u.keepsSignals_abandonSessions l).modLeg l _)
  have hpark := (u.retried l).leg_parkFailed l (fun g => { g with intent := false, givenUp := true })
  rw [State.leg_retried, hleg] at hpark
  obtain ⟨-, hattempts'', -, hsetup'', -⟩ := ((s.leg l).failed d cause).retried.parked_keeps
  obtain ⟨hcause, hcount⟩ := Prod.mk.inj ((Leg.failures_parked _).trans (hfailures'.trans hfailures))
  unfold State.FollowsFallback
  rw [hf, hpark]
  exact ⟨hcause, hcount, hsetup''.trans (hsetup'.trans hsetup), hattempts''.trans (congrArg (· + 1) hattempts),
    fun hlt => absurd hlt (by omega), fun _ => ⟨rfl, rfl, rfl, State.notice_parkFailed _ l _,
      (State.taskFinished_parkFailed _ l _).of_engine (congrArg LegEngine.inFlight (hsignals.engine l))⟩⟩

theorem State.followsFallback_fallBack : s.FollowsFallback (u.fallBack l) l d cause := by
  have hsetup := State.setup_failed hleg
  obtain ⟨-, -, -, hattempts, -⟩ := (s.leg l).failed_keeps d cause
  rw [← hleg] at hattempts
  cases hf : (s.leg l).setup.fallback with
  | carry =>
    rw [State.fallBack_of_carry (hsetup ▸ hf)]
    exact State.followsFallback_carry hleg hu hf
  | park =>
    rw [State.fallBack_of_park (hsetup ▸ hf)]
    exact State.followsFallback_park hleg hu hf
  | retry =>
    rw [State.fallBack_of_retry (hsetup ▸ hf), hattempts, hsetup]
    split
    · next hlt => exact State.followsFallback_retry hleg hu hf hlt
    · next hle => exact State.followsFallback_giveUp hleg hu hf (Nat.le_of_not_lt hle)

end

/-- R39, R68: a failed session, and what the leg is after it. -/
theorem State.followsFallback_sessionFailed (s : State) (l : LegId) (d : Side) (cause : FailureCause) :
    s.FollowsFallback (s.sessionFailed l d cause) l d cause :=
  State.followsFallback_fallBack (s.leg_failed l d cause) (s.keepsSignals_failed l d cause)

theorem legMoves_sessionFailed (h : (s.leg l).state = .tune) (d : Side) (cause : FailureCause) :
    s.LegMoves l (s.sessionFailed l d cause) := by
  obtain ⟨-, hstate, -⟩ := (s.leg l).failed_keeps d cause
  exact (legMoves_failed s l d cause).trans (legMoves_fallBack (by rw [State.leg_failed, hstate, h]))

/-- What follows the fallback of a leg follows it from every state with the same leg, tasks and receivers. -/
theorem State.FollowsFallback.of_keepsSignals (h : u.FollowsFallback t l d cause) (hleg : u.leg l = s.leg l)
    (hu : s.KeepsSignals u) : s.FollowsFallback t l d cause := by
  unfold State.FollowsFallback State.TaskFinished at h ⊢
  rwa [hleg, hu.engine, hu.allLocked] at h

/-! ### The request-wait limit (R63) -/

/-- R49, R63: the lane side of a frame that carries a request, its wait count advanced. -/
def State.counted (s : State) (x : LaneSide) : State :=
  (s.formFrame x).modTuner x (fun v => { v with waitCount := (s.lane x).tuner.waitCount + 1 })

theorem State.keepsSignals_counted (s : State) (x : LaneSide) : s.KeepsSignals (s.counted x) := by
  rw [State.counted, State.modTuner_formFrame]
  exact s.keepsSignals_modLane x fun _ => ⟨rfl, rfl⟩

theorem State.sameLanesBut_counted (s : State) (x : LaneSide) : s.SameLanesBut [x] (s.counted x) := by
  rw [State.counted, State.modTuner_formFrame]
  exact s.sameLanesBut_modLane x _

theorem State.nextWait_of_request {m : Nat} (ho : (s.lane x).tuner.outstanding.isSome = true)
    (hm : (s.leg (s.legOf x)).setup.requestWait.limit = some m) (htune : (s.leg (s.legOf x)).state = .tune)
    (hframes : s.transmit x = .frames) : s.nextWait x = some ((s.lane x).tuner.waitCount + 1, m) := by
  obtain ⟨r, hr⟩ := Option.isSome_iff_exists.mp ho
  simp only [State.nextWait, hr, hm]
  exact if_pos ⟨htune, hframes⟩

/-- R63, R68: the frame that brings the wait count to the limit fails the session. -/
theorem State.framePeriod_timesOut {m : Nat} (hwait : s.nextWait x = some ((s.lane x).tuner.waitCount + 1, m))
    (hle : m ≤ (s.lane x).tuner.waitCount + 1) (hrun : ((s.leg (s.legOf x)).side x.side).session = .running) :
    s.framePeriod x = (s.counted x).sessionFailed (s.legOf x) x.side .noReply := by
  simp only [State.framePeriod, hwait]
  exact if_pos ⟨hle, hrun⟩

/-- Settles O22. -/
theorem timeoutsFailTheSession : Obligations.TimeoutsFailTheSession := by
  intro l d s hr hw htune hrun
  refine ⟨fun htimer => ?_, fun x m hl hd ho hm hle hframes => ?_⟩
  · have hmoves := legMoves_sessionFailed htune d .tuneTimeout
    obtain ⟨hpins, hpower, hdevice, hmap, hfaults, -, hline, -⟩ := hmoves.registers
    refine ⟨s.sessionFailed l d .tuneTimeout, ?_, s.followsFallback_sessionFailed l d _, hmoves.lanes_same,
      hmoves.sameLegsBut, hpins, hpower, hdevice, hmap, hfaults, hline⟩
    rw [exec_sessionTimerExpiry, whenRunning_of_can _ hr (by simp [htimer, hrun, htune])]
    exact congrArg Host.Outcome.next (State.afterLegEvent_of_noWork (hmoves.noWork hw) s l)
  · subst hl hd
    have hwait := State.nextWait_of_request ho hm htune hframes
    have hmoves : (s.counted x).LegMoves (s.legOf x) ((s.counted x).sessionFailed (s.legOf x) x.side .noReply) :=
      legMoves_sessionFailed (s := s.counted x) htune x.side .noReply
    have hcounted := s.keepsSignals_counted x
    obtain ⟨hpins, hpower, hdevice, hmap, hfaults, -, hline, -⟩ := hmoves.registers
    refine ⟨(s.counted x).sessionFailed (s.legOf x) x.side .noReply, ?_,
      ((s.counted x).followsFallback_sessionFailed (s.legOf x) x.side _).of_keepsSignals rfl hcounted, fun y hy => ?_,
      hmoves.sameLegsBut, hpins, hpower, hdevice, hmap, hfaults, hline⟩
    · have hwork : (s.counted x).NoWork := hw
      rw [exec_requestWaitTimeout, whenRunning_of_can _ hr (by simp [State.waitEnds, hwait, hle])]
      exact congrArg Host.Outcome.next ((congrArg (State.afterLegEvent · s _)
        (State.framePeriod_timesOut hwait hle hrun)).trans (State.afterLegEvent_of_noWork (hmoves.noWork hwork) s _))
    · obtain ⟨hx, hmember⟩ := List.mem_cons.not.mp hy |> not_or.mp
      exact (hmoves.lanes_same y hmember).trans (s.sameLanesBut_counted x y (by simpa using hx))

end Sys2Proof.Machine
end
